-- ==== Sys2Proof/Word.lean ====
section
/-! DEFINITION. The word types of the OZ3: bytes, 32-bit and 64-bit words (R7: bit 0 is the least significant). -/

namespace Sys2Proof

/-- One byte of memory. -/
abbrev Byte := BitVec 8
/-- A 32-bit word: one per-thread or uniform register. -/
abbrev W32 := BitVec 32
/-- A 64-bit word: a thread instruction, a register of 64 bits, a descriptor word, an address. -/
abbrev W64 := BitVec 64

end Sys2Proof
end

