-- ==== Sys2Proof/Syntax.lean ====
section
/-! DEFINITION. The commands of the OZ3 block: one constructor of `Instr` per row of spec/opcode_table.json,
with the operands a command carries. Operand records follow the layouts of spec/ that their docstrings cite. -/

namespace Sys2Proof

/-- The straps of Table 01-3, as they stand when SB_COLD_RST_N rises (R29). -/
structure Straps where
  geo : Fin 16
  fwsrc : Fin 4
  bridgeEn : Bool
  deriving DecidableEq, Repr, Inhabited

/-- A logical cluster: tower and logical number (R23). -/
structure CluRef where
  t : Fin 4
  c : Fin 128
  deriving DecidableEq, Repr

/-- A bunch slot: tower, logical cluster, thread engine and slot (R143). -/
structure BunchRef where
  t : Fin 4
  c : Fin 128
  e : Fin 4
  k : Fin 16
  deriving DecidableEq, Repr

/-- A Falnas port, tower.port (R17). -/
structure PortRef where
  t : Fin 4
  p : Fin 8
  deriving DecidableEq, Repr

/-- A command packet as 64-bit little-endian words, eight to a 64-byte entry (Table 12-1, R358). -/
abbrev Packet := List W64

/-- A link packet: its two header words (Table 11-3) and the 16-byte slots that follow (Table 11-4). -/
structure LinkPkt where
  w0 : W64
  w1 : W64
  slots : List (BitVec 128)
  deriving DecidableEq, Repr

/-- Write data of one 32-byte HBM unit with its byte mask and poison marks (R307, R308). -/
structure HbmData where
  data : BitVec 256
  mask : BitVec 32
  poison : BitVec 32
  deriving DecidableEq, Repr, Inhabited

/-- One access to an HBM unit: the unit number a[38:5] in its tower, the traffic class (Table 10-3), the absolute
deadline in CORE cycles for class 7 (R314), and the data of a write. -/
structure HbmOp where
  unit : Fin 17179869184
  cls : Fin 8
  deadline : Nat
  wr : Option HbmData
  deriving DecidableEq, Repr

/-- The body of a PORT_INFO flit (Table 11-6). -/
structure PortInfoBody where
  moduleId : BitVec 16
  port : BitVec 8
  flags : BitVec 8
  hops : BitVec 8
  root : BitVec 16
  deriving DecidableEq, Repr, Inhabited

/-- A timestamp of the sync flits: a stamp with a 16-bit fraction, 80 bits (R344). -/
abbrev SyncStamp := BitVec 80

/-- A host access to a BAR2 slice (R351). -/
inductive Bar2Op where
  | read (bytes : Nat)
  | write (bytes : List Byte)
  deriving DecidableEq, Repr

/-- The fields of a grant request (Table 13-3). -/
structure GrantReq where
  requester : BitVec 12
  domain : BitVec 10
  current : BitVec 16
  duration : BitVec 16
  cls : Fin 8
  fast : Bool
  deriving DecidableEq, Repr, Inhabited

/-- What the storekeeper's meters hold at the end of a budget window (R386, R390): the tower's energy in mJ, the
highest 1 µs mean in W, and per domain (ID, mean, peak) in 1/16 A. -/
structure WindowMeas where
  energyMj : Nat
  peakW : Nat
  domains : List (Nat × Nat × Nat)
  deriving DecidableEq, Repr

/-- One reading of a tower's thermal sensors (R385, R414), in m°C: the hottest attic, upper-cellar, lower-cellar and HBM
values, and per region the hottest attic sensor, the hottest lower-cellar sensor, the hottest upper-cellar reading and
the hatch power in mW. -/
structure ThermalMeas where
  attic : Int
  upper : Int
  lower : Int
  hbm : Int
  regions : List (Int × Int × Int × Nat)
  deriving DecidableEq, Repr

/-- What the bring-up memory test finds (R423, R425): failing cellar rows (tower, die, bay, physical row), clusters whose
shelf fails (tower, row, column), HBM rows (tower, stack, channel, whether a repair resource is left). -/
structure TestFindings where
  rows : List (Nat × Nat × Nat × Nat)
  shelves : List (Nat × Nat × Nat)
  hbm : List (Nat × Nat × Nat × Bool)
  deriving DecidableEq, Repr, Inhabited

/-- A register write to a tally (R180): the 64-bit value, one half of it, or the control register. -/
inductive TallyWrite where
  | val (v : W64)
  | count (v : W32)
  | target (v : W32)
  | ctl (v : W32)
  deriving DecidableEq, Repr

/-- A check-value unit (Table 15-1): of a cluster's DMA engine, a link port, or the host bridge of a tower. -/
inductive CvuRef where
  | cluster (t : Fin 4) (c : Fin 128)
  | port (t : Fin 4) (p : Fin 8)
  | bridge (t : Fin 4)
  deriving DecidableEq, Repr

/-- The commands of the block: every row of the table of operations and events. -/
inductive Instr where
  /-- COLD_RESET (R30): SB_COLD_RST_N held low for at least 10 µs resets the whole module; on its rise the straps are sampled and bring-up begins. -/
  | coldReset (heldNs : Nat) (straps : Straps)
  /-- SB_PWR_EN_FALL (R31): SB_PWR_EN falling starts the ordered stop and switches the main rails off. -/
  | sbPwrEnFall
  /-- SB_PWR_EN_RISE (R410): SB_PWR_EN high with the input at or above 10.8 V for 10 ms restarts a cold bring-up from phase 2, also after a thermal trip. -/
  | sbPwrEnRise
  /-- INPUT_QUALIFIED (R34): The 12 V input has stayed at or above 10.8 V for 10 ms, so bring-up may start. -/
  | inputQualified
  /-- INPUT_OVERVOLTAGE (R36): The input stays above 13.8 V for more than 100 µs; the carrier disconnects the main rails and the event is logged. -/
  | inputOvervoltage (mv us : Nat)
  /-- PCIE_PERST (R33): PCIE_PERST_N low resets only the host-bridge controller, fails host requests in flight with FAULT_LINK and drops BAR2 accesses in flight. -/
  | pciePerst (high : Bool)
  /-- PLL_HOLDOVER (R40): A tower PLL loses its reference, enters holdover and raises a health event. -/
  | pllHoldover (t : Fin 4)
  /-- PLL_HOLDOVER_EXIT (R40): The reference returns and the PLL leaves holdover without a glitch. -/
  | pllHoldoverExit (t : Fin 4)
  /-- STAMP_TICK (R41): Each TELE cycle adds 1 plus the signed rate adjustment to the tower's stamp counter. -/
  | stampTick (t : Fin 4)
  /-- STAMP_TOWER_STEER (R42): Every 10 µs each non-lead tower compares its stamp with the lead tower's and steers its rate. -/
  | stampTowerSteer (t : Fin 4)
  /-- DIAGONAL_HOLD_TIMEOUT (R19): Diagonal traffic held at a package bridge for 10 ms fails with RESOURCE_LOST. -/
  | diagonalHoldTimeout (id : Nat)
  /-- JOB_START (R104): An array job starts once its bin is free and it holds a grant. -/
  | jobStart (r : CluRef) (bin : Fin 16)
  /-- RESHAPE (R97): The array changes shape or bin count once every earlier job has completed, taking 64 CORE cycles. -/
  | reshape (r : CluRef)
  /-- CHUNK_DRAIN (R92): A completed chunk's bank is handed to the drain, which converts the results and writes C to the shelf. -/
  | chunkDrain (r : CluRef) (bin : Fin 16)
  /-- JOB_COMPLETE (R106): An array job's C bytes are all visible, and the array performs one ARRIVE on the descriptor's tally. -/
  | jobComplete (r : CluRef) (bin : Fin 16)
  /-- FILLER_WINDOW_EXPIRE (R113): A stall run outlasts filler_window, and the filler starts ramping down. -/
  | fillerWindowExpire (r : CluRef) (bin : Fin 16)
  /-- RAMP_DOWN_STEP (R113): Each s CORE cycles the filler ramp-down moves to its next step, and the PEs are gated after step 16. -/
  | rampDownStep (r : CluRef) (bin : Fin 16)
  /-- RAMP_UP_STEP (R114): Each s CORE cycles the array duty rises by one sixteenth, up to 16. -/
  | rampUpStep (r : CluRef)
  /-- GUARD_EVALUATE (R133): The health manager evaluates a folded invocation, updates bad_run and may make the tag pending or count a report event. -/
  | guardEvaluate (t : Fin 4) (tag : Fin 4096)
  /-- LAUNCH (R143): A command that places a team on each named cluster and starts a kernel. -/
  | launch (q : Fin 1024) (p : Packet)
  /-- BUNCH_START (R144): A TE zeroes a bunch's registers and starts it with its initial state. -/
  | bunchStart (b : BunchRef)
  /-- LAUNCH_END (R145): Every team has ended and every enqueued job has arrived; the shelf caches and far lines are flushed and the LAUNCH completes. -/
  | launchEnd (id : Nat)
  /-- LAUNCH_FAULT_STOP (R175): A bunch fault stops every bunch of the launch, and the LAUNCH completes with FAULT_BUNCH once its array jobs have arrived. -/
  | launchFaultStop (id : Nat)
  /-- TEAM_SUSPEND (R177): The dispatcher suspends a team: its bunches stop, the shelf cache is flushed and the state is saved to the save area. -/
  | teamSuspend (r : CluRef) (shelfStart shelfBytes : Nat)
  /-- TEAM_RESUME (R178): A suspended team's saved state is restored and its bunches continue. -/
  | teamResume (r : CluRef) (id : Nat)
  /-- WAIT_RELEASE (R158): A bunch waiting on a tally becomes ready once its condition holds. -/
  | waitRelease (b : BunchRef)
  /-- TALLY_REPEAT_COMPLETE (R158): An armed auto-reset tally still at or above its target completes again in the following cycle. -/
  | tallyRepeatComplete (r : CluRef) (n : Fin 128)
  /-- BARRIER_TIMEOUT (R163): A barrier timer reaches bar_timeout, and every waiting bunch raises BARRIER_TIMEOUT. -/
  | barrierTimeout (r : CluRef) (n : Fin 16)
  /-- SHELF_CACHE_WRITEBACK_DROP (R171): A shelf-cache write-back to an unmapped or lost home, or one held for 10 ms, is dropped and recorded in CLU_GLOBAL_ERR. -/
  | shelfCacheWritebackDrop (r : CluRef) (line : Nat)
  /-- MOV (R188): Instruction that copies a source or an immediate into the destination. -/
  | mov (b : BunchRef) (w : W64)
  /-- ADD (R187): Instruction that adds two operands. -/
  | add (b : BunchRef) (w : W64)
  /-- SUB (R187): Instruction that subtracts two operands. -/
  | sub (b : BunchRef) (w : W64)
  /-- MUL (R187): Instruction that multiplies two operands, optionally returning the upper half. -/
  | mul (b : BunchRef) (w : W64)
  /-- FMA (R188): Instruction that computes a fused multiply-add. -/
  | fma (b : BunchRef) (w : W64)
  /-- MIN (R188): Instruction that returns the smaller of two operands. -/
  | min (b : BunchRef) (w : W64)
  /-- MAX (R188): Instruction that returns the larger of two operands. -/
  | max (b : BunchRef) (w : W64)
  /-- AND (R187): Instruction that computes a bitwise and. -/
  | andB (b : BunchRef) (w : W64)
  /-- OR (R187): Instruction that computes a bitwise or. -/
  | orB (b : BunchRef) (w : W64)
  /-- XOR (R187): Instruction that computes a bitwise exclusive or. -/
  | xorB (b : BunchRef) (w : W64)
  /-- NOT (R187): Instruction that computes a bitwise not. -/
  | notB (b : BunchRef) (w : W64)
  /-- SHL (R188): Instruction that shifts left. -/
  | shl (b : BunchRef) (w : W64)
  /-- SHR (R188): Instruction that shifts right, logically or arithmetically. -/
  | shr (b : BunchRef) (w : W64)
  /-- POPC (R187): Instruction that counts the set bits of a register. -/
  | popc (b : BunchRef) (w : W64)
  /-- CLZ (R187): Instruction that counts leading zeros. -/
  | clz (b : BunchRef) (w : W64)
  /-- BREV (R187): Instruction that reverses the bits of a register. -/
  | brev (b : BunchRef) (w : W64)
  /-- SEL (R188): Instruction that selects between two operands by a mask bit. -/
  | sel (b : BunchRef) (w : W64)
  /-- SETP (R189): Instruction that writes a comparison result into the mask bits of the active threads. -/
  | setp (b : BunchRef) (w : W64)
  /-- SHFL (R189): Instruction that reads a register of another thread of the bunch. -/
  | shfl (b : BunchRef) (w : W64)
  /-- FRND (R187): Instruction that rounds an F32 value to an integral value. -/
  | frnd (b : BunchRef) (w : W64)
  /-- SEED (R190): Instruction that writes the ALU or converter LFSRs. -/
  | seed (b : BunchRef) (w : W64)
  /-- PRMT (R187): Instruction that permutes bytes of two registers. -/
  | prmt (b : BunchRef) (w : W64)
  /-- MOP (R189): Instruction that performs a mask operation once per bunch. -/
  | mop (b : BunchRef) (w : W64)
  /-- CVT (R191): Instruction that converts an element between float and integer formats. -/
  | cvt (b : BunchRef) (w : W64)
  /-- EX2 (R216): SFU instruction that computes 2^a. -/
  | ex2 (b : BunchRef) (w : W64)
  /-- LG2 (R216): SFU instruction that computes log2 a. -/
  | lg2 (b : BunchRef) (w : W64)
  /-- RCP (R216): SFU instruction that computes 1/a. -/
  | rcp (b : BunchRef) (w : W64)
  /-- RSQ (R216): SFU instruction that computes 1/sqrt a. -/
  | rsq (b : BunchRef) (w : W64)
  /-- SQRT (R216): SFU instruction that computes sqrt a. -/
  | sqrt (b : BunchRef) (w : W64)
  /-- SINPI (R216): SFU instruction that computes sin(pi a). -/
  | sinpi (b : BunchRef) (w : W64)
  /-- COSPI (R216): SFU instruction that computes cos(pi a). -/
  | cospi (b : BunchRef) (w : W64)
  /-- TANH (R216): SFU instruction that computes tanh a. -/
  | tanh (b : BunchRef) (w : W64)
  /-- SIGM (R216): SFU instruction that computes the logistic sigmoid. -/
  | sigm (b : BunchRef) (w : W64)
  /-- GELU (R216): SFU instruction that computes erf-based GELU. -/
  | gelu (b : BunchRef) (w : W64)
  /-- SILU (R216): SFU instruction that computes SiLU. -/
  | silu (b : BunchRef) (w : W64)
  /-- LDS (R193): Instruction that loads from the directly addressed shelf. -/
  | lds (b : BunchRef) (w : W64)
  /-- STS (R193): Instruction that stores to the directly addressed shelf. -/
  | sts (b : BunchRef) (w : W64)
  /-- LDG (R170): Instruction that loads from a module or global address through the shelf cache. -/
  | ldg (b : BunchRef) (w : W64)
  /-- STG (R170): Instruction that stores to a module or global address through the shelf cache. -/
  | stg (b : BunchRef) (w : W64)
  /-- ATOMS (R196): Instruction that performs an atomic operation on the shelf. -/
  | atoms (b : BunchRef) (w : W64)
  /-- ATOM (R172): Instruction that performs an atomic operation at a global address's home, bypassing the shelf cache. -/
  | atom (b : BunchRef) (w : W64)
  /-- GLOBAL_ACCESS_RETURN (R283): The data or acknowledgement of an outstanding global access returns to the requester. -/
  | globalAccessReturn (id : Nat)
  /-- NOP (R197): Instruction that does nothing. -/
  | nop (b : BunchRef) (w : W64)
  /-- BRA (R197): Instruction that jumps unconditionally. -/
  | bra (b : BunchRef) (w : W64)
  /-- BRA_ANY (R153): Instruction that jumps when some active thread's mask bit is 1. -/
  | braAny (b : BunchRef) (w : W64)
  /-- BRA_ALL (R153): Instruction that jumps when no active thread's mask bit is 0. -/
  | braAll (b : BunchRef) (w : W64)
  /-- BRA_NONE (R153): Instruction that jumps when no active thread's mask bit is 1. -/
  | braNone (b : BunchRef) (w : W64)
  /-- BRA_U_Z (R153): Instruction that jumps when a uniform register is zero. -/
  | braUZ (b : BunchRef) (w : W64)
  /-- BRA_U_NZ (R153): Instruction that jumps when a uniform register is non-zero. -/
  | braUNz (b : BunchRef) (w : W64)
  /-- CALL (R198): Instruction that stores a link in a uniform register and jumps. -/
  | call (b : BunchRef) (w : W64)
  /-- RET (R198): Instruction that jumps to the offset held in a uniform register. -/
  | ret (b : BunchRef) (w : W64)
  /-- PUSHM (R152): Instruction that pushes the active mask and a join and narrows m0. -/
  | pushm (b : BunchRef) (w : W64)
  /-- ANDM (R152): Instruction that narrows m0 and jumps to the join when it becomes empty. -/
  | andm (b : BunchRef) (w : W64)
  /-- POPM (R152): Instruction that restores the outer mask from the top of the mask stack. -/
  | popm (b : BunchRef) (w : W64)
  /-- EXIT (R152): Instruction that removes the active threads from the live mask and may retire the bunch. -/
  | exit (b : BunchRef) (w : W64)
  /-- SET (R156): Instruction that writes a tally's count, target and auto-reset bit. -/
  | setT (b : BunchRef) (w : W64)
  /-- ARRIVE (R200): Instruction that adds k to a tally's count once earlier shelf stores are visible. -/
  | arrive (b : BunchRef) (w : W64)
  /-- WAIT_PH (R156): Instruction that holds the bunch until the tally's phase equals p. -/
  | waitPh (b : BunchRef) (w : W64)
  /-- WAIT_GE (R156): Instruction that holds the bunch until the tally's count is at least v. -/
  | waitGe (b : BunchRef) (w : W64)
  /-- BAR (R161): Instruction that makes the bunch arrive at a barrier and wait for its release. -/
  | bar (b : BunchRef) (w : W64)
  /-- MXD (R165): Instruction that checks tile descriptors and copies them into the array's job queue. -/
  | mxd (b : BunchRef) (w : W64)
  /-- HXF (R201): Instruction that enqueues hatch transfer descriptors. -/
  | hxf (b : BunchRef) (w : W64)
  /-- QCV (R204): Instruction that enqueues conversion jobs. -/
  | qcv (b : BunchRef) (w : W64)
  /-- NRM (R222): Instruction that enqueues row-statistics jobs. -/
  | nrm (b : BunchRef) (w : W64)
  /-- FENCE (R202): Instruction that flushes the shelf cache and waits until earlier stores of its scope reach their homes. -/
  | fence (b : BunchRef) (w : W64)
  /-- TFENCE (R203): Instruction that binds the bunch to the currently active seed-table bank. -/
  | tfence (b : BunchRef) (w : W64)
  /-- QCV_JOB_START (R207): A converter starts a QCV job once the TE's previous QCV job has ended. -/
  | qcvJobStart (r : CluRef) (e : Fin 4)
  /-- QCV_JOB_COMPLETE (R208): A QCV job's writes are visible; it writes spr_end and arrives on its tally. -/
  | qcvJobComplete (r : CluRef) (e : Fin 4)
  /-- NRM_JOB_START (R228): The normalisation unit starts the next NRM job in issue order. -/
  | nrmJobStart (r : CluRef)
  /-- NRM_JOB_COMPLETE (R228): An NRM job's records are visible, and it arrives on its tally. -/
  | nrmJobComplete (r : CluRef)
  /-- TABLE_LOAD (R219): Command that checks a seed-table image and loads it into the inactive bank of each named cluster. -/
  | tableLoad (q : Fin 1024) (p : Packet)
  /-- TABLE_BANK_SWITCH (R220): A cluster whose inactive bank has no bound bunches copies, overwrites and activates that bank. -/
  | tableBankSwitch (r : CluRef)
  /-- HATCH_JOB_START (R249): The hatch queue starts a job in issue order, with up to four in flight. -/
  | hatchJobStart (r : CluRef)
  /-- HATCH_JOB_COMPLETE (R248): A hatch job's last segment is visible, and it arrives on its tally 3 CORE cycles later. -/
  | hatchJobComplete (r : CluRef) (k : Fin 4)
  /-- SCRUB_SLOT (R256): In each scrub slot the die's scrubber reads the next bay's row and rewrites it if a byte was corrected. -/
  | scrubSlot (t : Fin 4) (die : Fin 2)
  /-- CELLAR_HOLD_TIMEOUT (R265): An access held by a cellar reset for 10 ms fails with RESOURCE_LOST. -/
  | cellarHoldTimeout (id : Nat)
  /-- CLEAR_BAY (R243): Command that clears the valid bits of a range of rows in a set of bays. -/
  | clearBay (q : Fin 1024) (p : Packet)
  /-- CELLAR_SPLIT_COMMIT (R233): The memory manager empties the pantry and applies a new split of private and pantry granules. -/
  | cellarSplitCommit (t : Fin 4)
  /-- PANTRY_LOOKUP (R278): A request reaches its home pantry half and is served as a read or write hit or miss. -/
  | pantryLookup (id : Nat)
  /-- PANTRY_FILL_COMPLETE (R280): A pending fill returns from HBM, merges with earlier writes and is delivered to its requesters. -/
  | pantryFillComplete (t : Fin 4) (half : Fin 2) (line : Nat)
  /-- PIN (R285): Command that pins the lines of a local HBM range in their home pantries. -/
  | pin (q : Fin 1024) (p : Packet)
  /-- UNPIN (R287): Command that unpins a range and trims or splits the pin records. -/
  | unpin (q : Fin 1024) (p : Packet)
  /-- DISCARD (R296): Command that drops the contents of a bay or local HBM range without write-back. -/
  | discard (q : Fin 1024) (p : Packet)
  /-- LARDER_PRESSURE (R288): At the end of each pressure window the unpinned miss rate is measured and may raise pressure or demote a pin record. -/
  | larderPressure (t : Fin 4)
  /-- TOWER_HOLD_TIMEOUT (R300): An access held at the package bridges for a tower in TOWER reset fails with RESOURCE_LOST after 10 ms. -/
  | towerHoldTimeout (id : Nat)
  /-- PANTRY_POLICY_COMMIT (R301): The memory manager applies PANTRY_POLICY, invalidating ways that change role and re-pinning their lines. -/
  | pantryPolicyCommit (t : Fin 4)
  /-- HBM_ACCESS (R308): A controller serves an HBM access, with read-merge-write for a partly covered unit. -/
  | hbmAccess (t : Fin 4) (a : HbmOp)
  /-- HBM_REFRESH (R313): A due per-bank refresh is issued ahead of every arbitration level. -/
  | hbmRefresh (t : Fin 4) (stack : Fin 8) (pc : Fin 64) (bank : Nat)
  /-- WRITE_QUEUE_DRAIN (R315): A pseudo-channel's write queue reaches 48 entries and drains a burst of up to 16 writes. -/
  | writeQueueDrain (t : Fin 4) (stack : Fin 8) (pc : Fin 64)
  /-- PATROL_READ (R309): The patrol scrubber reads the granule at its pointer and rewrites corrected or uncorrectable units. -/
  | patrolRead (t : Fin 4) (stack : Fin 8) (pc : Fin 64)
  /-- HBM_TEMP_READ (R302): Each stack's temperature is read once per ms and its refresh interval is adjusted. -/
  | hbmTempRead (t : Fin 4) (temps : List Nat)
  /-- REGULATION_WINDOW (R312): At each regulation window boundary every class count restarts and every demotion ends. -/
  | regulationWindow (t : Fin 4)
  /-- FLIT_RECEIVE (R323): A port receives a flit, checks it and takes its acks, credits and slots. -/
  | flitReceive (l : PortRef) (flit : List Byte) (fecBad : Bool)
  /-- FLIT_TRANSMIT (R324): A port sends its next flit, DATA, CTRL or IDLE, with its ack and credit totals. -/
  | flitTransmit (l : PortRef)
  /-- NAK (R327): A received NAK makes the sender resend from the named flit onward. -/
  | nak (l : PortRef) (seq : BitVec 8)
  /-- NAK_REPEAT (R327): The receiver repeats its NAK every 256 flit times until the expected seq arrives. -/
  | nakRepeat (l : PortRef)
  /-- PORT_RETRAIN (R329): A flit sent 8 times without acknowledgement, or a bad lane measurement, makes the port retrain its PCS. -/
  | portRetrain (l : PortRef)
  /-- PORT_DOWN (R340): A port goes down, and every unanswered request sent through it completes with FAULT_LINK. -/
  | portDown (l : PortRef)
  /-- PORT_QUALIFY (R345): At the end of a qualification window a port qualifies at full or half width, or goes down. -/
  | portQualify (l : PortRef) (badLanes : BitVec 8) (uncorr : Bool)
  /-- LANE_MONITOR_WINDOW (R346): Each 1 s window of an up port checks every lane's error ratio and may trigger a retrain. -/
  | laneMonitorWindow (l : PortRef) (badLanes : BitVec 8) (uncorr berExp : Nat)
  /-- RD (R338): Link request that reads memory at the destination and is answered with RDR. -/
  | rd (l : PortRef) (p : LinkPkt)
  /-- WR (R338): Link request that writes memory at the destination and is answered with ACK. -/
  | wr (l : PortRef) (p : LinkPkt)
  /-- WRM (R338): Link request that writes a 128-byte line under a byte mask. -/
  | wrm (l : PortRef) (p : LinkPkt)
  /-- AMO (R338): Link request that performs an atomic at the destination and is answered with AMR. -/
  | amo (l : PortRef) (p : LinkPkt)
  /-- RDR (R340): Read response that completes an outstanding remote read at its source. -/
  | rdr (l : PortRef) (p : LinkPkt)
  /-- ACK (R340): Acknowledgement that completes an outstanding remote write or signal at its source. -/
  | ack (l : PortRef) (p : LinkPkt)
  /-- AMR (R340): Atomic response that returns the old value to the source. -/
  | amr (l : PortRef) (p : LinkPkt)
  /-- CMP (R369): Response that carries a remote command packet's 32-byte completion. -/
  | cmp (l : PortRef) (p : LinkPkt)
  /-- MNR (R419): Maintenance response that carries discovery or firmware-transfer data. -/
  | mnr (l : PortRef) (p : LinkPkt)
  /-- CMD (R360): Link packet that delivers 1-16 command packets to a target queue with master 2. -/
  | cmd (l : PortRef) (p : LinkPkt)
  /-- DBF (R350): Link packet that rings a queue's doorbell in the target module. -/
  | dbf (l : PortRef) (p : LinkPkt)
  /-- TSIG (R341): Link packet that applies ARRIVE k to a named tally. -/
  | tsig (l : PortRef) (p : LinkPkt)
  /-- CFL (R342): Compressed-flow packet that the destination expands and writes. -/
  | cfl (l : PortRef) (p : LinkPkt)
  /-- HRD (R352): Host-memory read request performed by the bridging module. -/
  | hrd (l : PortRef) (p : LinkPkt)
  /-- HWR (R352): Host-memory posted write performed by the bridging module. -/
  | hwr (l : PortRef) (p : LinkPkt)
  /-- HIRQ (R352): Request for the bridging module to send an MSI-X message. -/
  | hirq (l : PortRef) (p : LinkPkt)
  /-- MNT (R419): Maintenance request for neighbour discovery or firmware transfer. -/
  | mnt (l : PortRef) (p : LinkPkt)
  /-- REQUEST_TIMEOUT (R340): A remote request unanswered after req_timeout_ms completes with FAULT_LINK. -/
  | requestTimeout (id : Nat)
  /-- PORT_INFO (R344): Every 100 µs a port sends PORT_INFO, and a received PORT_INFO updates neighbour and stamp-root knowledge. -/
  | portInfo (l : PortRef) (recv : Option PortInfoBody)
  /-- SYNC_REQ (R344): Every 1 ms a child sends SYNC_REQ and the parent answers with SYNC_RSP. -/
  | syncReq (l : PortRef) (recv : Option SyncStamp)
  /-- SYNC_RSP (R344): A child receives SYNC_RSP, estimates its offset from the parent and steers its rate. -/
  | syncRsp (l : PortRef) (t1 t2 t3 t4 : SyncStamp)
  /-- LINK_CONFIG_COMMIT (R347): The link manager applies LINK_CONFIG, which may assign the module ID. -/
  | linkConfigCommit
  /-- BAR0_DOORBELL (R350): A host write to a BAR0 slot rings the local QDB or is forwarded as DBF. -/
  | bar0Doorbell (slot : Fin 64) (q : Fin 1024) (tail : W32)
  /-- BAR2_ACCESS (R351): A host access to a BAR2 slice is split into RD or WR packets to the slot's module. -/
  | bar2Access (slot : Fin 64) (off : Nat) (a : Bar2Op)
  /-- DOORBELL (R356): A new tail is written to QDB, or the doorbell is dropped and counted. -/
  | doorbell (q : Fin 1024) (tail : W32)
  /-- CHEAD_WRITE (R357): The master writes chead to free completion-ring entries. -/
  | cheadWrite (q : Fin 1024) (v : W32)
  /-- PACKET_FETCH (R359): A dispatcher fetches the next packet of a queue and checks it. -/
  | packetFetch (q : Fin 1024)
  /-- PACKET_START (R362): Dispatchers choose among ready queues and start a packet that fits the tower budget. -/
  | packetStart (q : Fin 1024)
  /-- COMPLETION_WRITE (R357): The dispatcher writes a completion entry and raises the MSI-X vector if asked. -/
  | completionWrite (q : Fin 1024)
  /-- PACKET_DEADLINE (R363): A packet's deadline passes; an unstarted packet completes with TIMEOUT, and a running one stops. -/
  | packetDeadline (q : Fin 1024) (id : Nat)
  /-- DISPATCH_TICK (R375): Each dispatch tick resolves conflicting orders and commits records owned by the dispatchers. -/
  | dispatchTick
  /-- CLASS7_ACCEPT (R376): A class-7 packet at the head of its queue is accepted when its tower is below class7_queue_limit. -/
  | class7Accept (q : Fin 1024)
  /-- CLASS7_START (R377): An accepted class-7 packet starts once the reserve covers its estimate. -/
  | class7Start (q : Fin 1024)
  /-- PREEMPT (R379): At a slice end the dispatchers preempt lower-class work to free resources for an accepted class-7 packet. -/
  | preempt (r : CluRef)
  /-- NOP_COMMAND (R359): Command that completes at once. -/
  | nopCommand (q : Fin 1024) (p : Packet)
  /-- FENCE_COMMAND (R365): Command that flushes the shelf caches of its scope and waits for earlier packets, optionally as a guard epoch. -/
  | fenceCommand (q : Fin 1024) (p : Packet)
  /-- COPY (R366): Command that moves, transposes, decodes, converts or sends compressed data. -/
  | copy (q : Fin 1024) (p : Packet)
  /-- FILL (R366): Command that fills rows with a pattern or a quantised value. -/
  | fill (q : Fin 1024) (p : Packet)
  /-- MATRIX (R367): Command that runs tile descriptors on a cluster's array as an MXD would. -/
  | matrix (q : Fin 1024) (p : Packet)
  /-- TALLY_SET (R156): Command that applies a SET to a tally from the command path. -/
  | tallySet (q : Fin 1024) (p : Packet)
  /-- TALLY_WAIT (R156): Command that completes when a tally's phase or count condition holds. -/
  | tallyWait (q : Fin 1024) (p : Packet)
  /-- TALLY_SIGNAL (R341): Command that applies ARRIVE to a local tally or sends a TSIG. -/
  | tallySignal (q : Fin 1024) (p : Packet)
  /-- CONFIG (R372): Command that clamps and stages a configuration record for its owner. -/
  | configCmd (q : Fin 1024) (p : Packet)
  /-- QUERY (R370): Command that writes the module reply or the active values of a record. -/
  | query (q : Fin 1024) (p : Packet)
  /-- FORMAT_POLICY (R131): Command that applies GUARD_POLICY to a range of layer tags. -/
  | formatPolicy (q : Fin 1024) (p : Packet)
  /-- GUARD_POLICY_COMMIT (R132): The health manager commits GUARD_POLICY, resetting bad_run or cancelling pending escalation as required. -/
  | guardPolicyCommit
  /-- ARRAY_POWER_COMMIT (R118): The array commits ARRAY_POWER at its next job or stall-run boundary. -/
  | arrayPowerCommit (r : CluRef)
  /-- POWER_BUDGET (R391): Command that clamps and sets the module and tower power budgets. -/
  | powerBudget (q : Fin 1024) (p : Packet)
  /-- POWER_QUERY (R417): Command that writes the power report. -/
  | powerQuery (q : Fin 1024) (p : Packet)
  /-- DOMAIN_STATE_ON (R405): DOMAIN_STATE action that wakes a cluster or cellar-array domain. -/
  | domainStateOn (q : Fin 1024) (p : Packet)
  /-- DOMAIN_STATE_OFF (R404): DOMAIN_STATE action that switches a domain off with retention. -/
  | domainStateOff (q : Fin 1024) (p : Packet)
  /-- DOMAIN_STATE_CAP (R407): DOMAIN_STATE action that sets a current cap for a domain. -/
  | domainStateCap (q : Fin 1024) (p : Packet)
  /-- CLUSTER_RESET (R430): RESET scope that resets one cluster's engines, queues, tallies and shelf cache. -/
  | clusterReset (q : Fin 1024) (p : Packet)
  /-- ATTIC_RESET (R430): RESET scope that resets every cluster of a tower, then runs soft repair and waves. -/
  | atticReset (q : Fin 1024) (p : Packet)
  /-- CELLAR_U_RESET (R263): RESET scope that resets the upper cellar's arrays and valid bits. -/
  | cellarUReset (q : Fin 1024) (p : Packet)
  /-- CELLAR_L_RESET (R264): RESET scope that resets the lower cellar's arrays and valid bits. -/
  | cellarLReset (q : Fin 1024) (p : Packet)
  /-- TOWER_RESET (R430): RESET scope that resets all three dies, spine and control cores of a tower. -/
  | towerReset (q : Fin 1024) (p : Packet)
  /-- MODULE_WARM (R430): RESET scope that reruns phases 2-8 of bring-up for every tower. -/
  | moduleWarm (q : Fin 1024) (p : Packet)
  /-- TOWER_RESET_TIMEOUT (R433): A tower that has not ended its TOWER reset within 10 s is fenced off. -/
  | towerResetTimeout (t : Fin 4)
  /-- SNAPSHOT (R381): Command that packs a queue's sequence context into an image. -/
  | snapshot (q : Fin 1024) (p : Packet)
  /-- RESTORE (R382): Command that checks an image and unpacks it into a queue's context. -/
  | restore (q : Fin 1024) (p : Packet)
  /-- CVU_SET (R445): Command that programs a check-value context. -/
  | cvuSet (q : Fin 1024) (p : Packet)
  /-- CVU_GET (R446): Command that returns a context's values and last result. -/
  | cvuGet (q : Fin 1024) (p : Packet)
  /-- SCRUB_CTL (R359): Command that starts a new lap, pauses or resumes a cellar or HBM scrubber. -/
  | scrubCtl (q : Fin 1024) (p : Packet)
  /-- INJECT (R261): Command that arms a cellar or shelf flip mask. -/
  | inject (q : Fin 1024) (p : Packet)
  /-- TELEMETRY (R141): Command that writes guard or power records, optionally clearing them. -/
  | telemetry (q : Fin 1024) (p : Packet)
  /-- LOG_READ (R464): Command that writes event-log entries from a sequence number onward. -/
  | logRead (q : Fin 1024) (p : Packet)
  /-- LINK_CTL (R334): Command that loads a route or directory entry or retrains a port. -/
  | linkCtl (q : Fin 1024) (p : Packet)
  /-- REMOTE (R369): Command that sends embedded packets to another module's queue. -/
  | remote (q : Fin 1024) (p : Packet)
  /-- GRANT_REQUEST (R393): Work asks the storekeeper for a grant, which is granted or queued within 2 µs. -/
  | grantRequest (t : Fin 4) (g : GrantReq)
  /-- GRANT_FROM_QUEUE (R393): The storekeeper grants a queued request once it fits. -/
  | grantFromQueue (t : Fin 4)
  /-- BUDGET_WINDOW_END (R390): At each 1 ms budget window end the storekeeper reports currents and updates the derate factor. -/
  | budgetWindowEnd (t : Fin 4) (m : WindowMeas)
  /-- BUDGET_GUARD (R389): A tower's measured energy reaches its window allowance early, so duty ceilings drop to 1/16 and new grants queue. -/
  | budgetGuard (t : Fin 4) (energyUj : Nat)
  /-- POWER_POLICY_COMMIT (R416): The storekeeper applies POWER_POLICY at its next 1 µs boundary. -/
  | powerPolicyCommit (t : Fin 4)
  /-- WAKE_WAVE (R399): At each 40 µs period a tower starts up to wake_wave pending cluster wakes. -/
  | wakeWave (t : Fin 4)
  /-- WAKE_WAIT_EXPIRE (R397): A wake or ramp-up waiting on a busy neighbour for 50 µs proceeds at half slope. -/
  | wakeWaitExpire (r : CluRef)
  /-- PHASE_LOST (R408): A regulator phase is lost, lowering a cap, losing a cluster or fencing the tower. -/
  | phaseLost (t : Fin 4) (domain : Nat)
  /-- CURRENT_LIMIT (R415): A cluster exceeds its limit for 2 µs, and its regulator holds the current and caps the duty at 8/16. -/
  | currentLimit (r : CluRef)
  /-- SUPPLY_SAG (R409): The input falls below 10.8 V, and every grant and effective budget is halved. -/
  | supplySag (mv : Nat)
  /-- SAG_EXIT (R409): The input has held 11.0 V for 10 ms; the sag ends, is logged and grants return. -/
  | sagExit
  /-- ORDERED_STOP (R410): The input stays below 9.6 V for 20 ms; the module performs the ordered stop. -/
  | orderedStop
  /-- THERMAL_SENSE (R385): Thermal sensors are read every 10 µs. -/
  | thermalSense (t : Fin 4) (m : ThermalMeas)
  /-- THROTTLE_STEP (R411): Every 100 µs a tower's thermal limit falls or rises by its step. -/
  | throttleStep (t : Fin 4)
  /-- THERMAL_HALVING (R412): A die reaches T_L, and every grant in its domains is halved. -/
  | thermalHalving (t : Fin 4) (die : Fin 4)
  /-- THERMAL_HALVING_END (R412): The die falls below T_L − 2 °C, and new grants are allowed again. -/
  | thermalHalvingEnd (t : Fin 4) (die : Fin 4)
  /-- THERMAL_TRIP (R413): A temperature at or above trip for 100 µs switches the rails off and latches SB_THERMTRIP_N. -/
  | thermalTrip (t : Fin 4) (die : Fin 4)
  /-- THERMAL_SENSOR_SUSPECT (R414): An estimate exceeding the upper-cellar reading by 6 °C for 20 ms declares the sensors suspect. -/
  | thermalSensorSuspect (t : Fin 4) (region : Fin 16)
  /-- FIRMWARE_FETCH (R419): The trust block fetches the package from the strapped source, verifies it and loads it. -/
  | firmwareFetch (src : Fin 3) (pkg : List Byte)
  /-- FW_SOURCE_FAILED (R420): A source delivers no valid package within 30 s, and the next source is tried or bring-up stops. -/
  | fwSourceFailed (src : Fin 3)
  /-- STAGING_LENGTH_WRITE (R419): In the host source phase, the host writes the package length to BAR0 offset 0. -/
  | stagingLengthWrite (len : Nat)
  /-- PLL_LOCK_TIMEOUT (R421): A tower PLL not locked within 10 ms of phase 3 is fenced off. -/
  | pllLockTimeout (t : Fin 4)
  /-- TRAINING_COMPLETE (R422): Every HBM controller has trained, and phase 5 starts. -/
  | trainingComplete (failed : List (Nat × Nat × Nat))
  /-- MEMORY_TEST (R423): The full or quick memory test runs over shelves, bays and HBM. -/
  | memoryTest (f : TestFindings)
  /-- SOFT_REPAIR (R425): Spare rows, spare clusters and HBM repairs are assigned, and the inventory record is compared. -/
  | softRepair
  /-- CLUSTER_SELF_TEST (R426): A woken cluster's 5 ms logic self-test completes, passing or losing the cluster. -/
  | clusterSelfTest (t : Fin 4) (row : Fin 8) (col : Fin 17) (pass : Bool)
  /-- READY (R427): Phase 8 ends and the module reports READY. -/
  | ready
  /-- CE_TREND_WINDOW (R437): At each hour of stamp time the corrected-error count is compared with ce_threshold. -/
  | ceTrendWindow
  /-- FIRMWARE_UPDATE (R454): A PLDM firmware update verifies a package, then writes it to SPI NOR and ends with FIRMWARE_STAGED. -/
  | firmwareUpdate (pkg : List Byte)
  /-- GET_VERSION (R459): SPDM request for the supported versions. -/
  | getVersion (msg : List Byte)
  /-- GET_CAPABILITIES (R459): SPDM request for the responder's capabilities. -/
  | getCapabilities (msg : List Byte)
  /-- NEGOTIATE_ALGORITHMS (R459): SPDM request that negotiates algorithms. -/
  | negotiateAlgorithms (msg : List Byte)
  /-- GET_DIGESTS (R459): SPDM request for certificate chain digests. -/
  | getDigests (msg : List Byte)
  /-- GET_CERTIFICATE (R459): SPDM request for the identity certificate chain. -/
  | getCertificate (slot : Nat) (off len : Nat)
  /-- CHALLENGE (R459): SPDM request for a signed challenge response. -/
  | challenge (slot : Nat) (nonce : List Byte)
  /-- GET_MEASUREMENTS (R459): SPDM request for signed measurement slot digests. -/
  | getMeasurements (index : BitVec 8) (sign : Bool) (nonce : List Byte)
  /-- DYNAMIC_ADDRESS_ASSIGN (R460): The management block accepts an I3C dynamic address by SETDASA or ENTDAA. -/
  | dynamicAddressAssign (addr : BitVec 7)
  /-- MCTP_CONTROL (R460): An MCTP control message to the management block. -/
  | mctpControl (msg : List Byte)
  /-- PLDM_BASE_DISCOVERY (R461): A PLDM Type 0 base discovery request. -/
  | pldmBaseDiscovery (msg : List Byte)
  /-- PLDM_SENSOR_READ (R461): A PLDM Type 2 request that reads numeric or state sensors. -/
  | pldmSensorRead (sensor : Nat)
  /-- POLL_FOR_PLATFORM_EVENT_MESSAGE (R461): A PLDM poll that delivers one event-log entry and advances the acknowledged number. -/
  | pollForPlatformEventMessage
  /-- VENDOR_COMMAND_MESSAGE (R462): A vendor message that writes command packets to the management queue and returns their completions. -/
  | vendorCommandMessage (msg : List Byte)
  /-- VENDOR_MEMORY_READ (R462): A vendor message that reads up to 1,024 bytes at a module address. -/
  | vendorMemoryRead (msg : List Byte)
  /-- VENDOR_MEMORY_WRITE (R462): A vendor message that writes up to 1,024 bytes at a module address. -/
  | vendorMemoryWrite (msg : List Byte)
  /-- MGT_LOG_ACK_WRITE (R465): A write of MGT_LOG.acked advances the acknowledged sequence number. -/
  | mgtLogAckWrite (v : W32)
  /-- TALLY_REGISTER_WRITE (R180): A write to CLU_TALLY_VAL acts as a SET, and a write to auto changes only the auto bit. -/
  | tallyRegisterWrite (r : CluRef) (n : Fin 128) (a : TallyWrite)
  /-- CEL_FLIPMASK_WRITE (R261): A write arms an error for the next row write into a bay. -/
  | celFlipmaskWrite (t : Fin 4) (die : Fin 2) (bay : Fin 136) (v : W64)
  /-- SHF_FLIPMASK_WRITE (R262): A write arms an error for the next write of a shelf byte. -/
  | shfFlipmaskWrite (r : CluRef) (v : W64)
  /-- PAN_DEAD_LOG_READ (R298): A read removes the oldest dead-read entry and latches its stamp. -/
  | panDeadLogRead (t : Fin 4)
  /-- PWR_VMIN_READ (R387): A read returns the minimum voltage, restarts tracking and latches its stamp. -/
  | pwrVminRead (t : Fin 4) (domain : Nat)
  /-- READ_CLEAR_REGISTER_READ (R10): A read of an RC field returns its value and clears it. -/
  | readClearRegisterRead (rq : Nat) (addr size : Nat)
  /-- ARR_COMMIT_WRITE (R119): A write of ARR_COMMIT requests activation of the array's staged values. -/
  | arrCommitWrite (r : CluRef) (v : W32)
  /-- CEL_COMMIT_WRITE (R267): A write of CEL_COMMIT commits both cellar dies' staged values. -/
  | celCommitWrite (t : Fin 4) (v : W32)
  /-- PAN_COMMIT_WRITE (R301): A write of PAN_COMMIT requests activation of the staged pantry policy. -/
  | panCommitWrite (t : Fin 4) (v : W32)
  /-- HBM_COMMIT_WRITE (R318): A write of HBM_COMMIT stages regulation values for the next window. -/
  | hbmCommitWrite (t : Fin 4) (v : W32)
  /-- LNK_COMMIT_WRITE (R347): A write of LNK_COMMIT requests activation of the staged link values. -/
  | lnkCommitWrite (t : Fin 4) (v : W32)
  /-- CMD_COMMIT_WRITE (R11): A write of CMD_COMMIT requests activation of staged queue and dispatch values. -/
  | cmdCommitWrite (t : Fin 4) (v : W32)
  /-- PWR_COMMIT_WRITE (R416): A write of PWR_COMMIT requests activation of the staged power policy. -/
  | pwrCommitWrite (t : Fin 4) (v : W32)
  /-- CVU_COMMIT_WRITE (R446): A write of CVU_COMMIT requests each context to apply staged values at its next boundary. -/
  | cvuCommitWrite (u : CvuRef) (v : W32)
  /-- REGISTER_WRITE (R8): A write to a register without its own behaviour, following the access codes of RW, RO, W1C, WS and reserved fields. -/
  | registerWrite (rq : Nat) (addr size : Nat) (v : W64)
  /-- RESET_END (R368): A CLUSTER, ATTIC, CELLAR or TOWER reset finishes; held accesses proceed, diagonal traffic returns to its default path, pins are restored and the RESET completes. -/
  | resetEnd (scope : Nat) (t : Fin 4) (c : Fin 128)
  /-- PLL_LOCK (R421): A tower PLL locks in phase 3 of bring-up, ending the clocks phase and starting training. -/
  | pllLock (t : Fin 4)
  /-- LINK_TRAINING_COMPLETE (R422): A Falnas port finishes training or retraining and begins its qualification window, with replay resuming by NAK exchange. -/
  | linkTrainingComplete (l : PortRef)
  /-- PCIE_LINK_UP (R348): The bridge pair completes PCIe training, after PCIE_PERST_N release or after its tower's spine returns, and link_up is set. -/
  | pcieLinkUp (rate width : Nat)
  /-- PCIE_LINK_DOWN (R352): The PCIe link goes down from the host side, after which bridge requests are answered with FAULT_LINK. -/
  | pcieLinkDown
  /-- DOMAIN_WAKE_COMPLETE (R405): A waking cluster's voltage has returned and it can take work, so its state moves from waking to on and DOMAIN_STATE completes. -/
  | domainWakeComplete (r : CluRef)
  /-- ISLAND_FAILOVER (R22): T1's always-on island takes over when T0's island stops answering. -/
  | islandFailover
  /-- INPUT_LOSS (R34): The 12 V input falls below 7.0 V; the always-on island stops and the event log is lost. -/
  | inputLoss
  /-- LOW_HALF_READ (R13): A 32-bit read of the low half of a 64-bit RO or RC register latches the high half for that requester. -/
  | lowHalfRead (rq : Nat) (addr : Nat)
  deriving DecidableEq, Repr

end Sys2Proof
end

