-- ==== Sys2Proof/Decode.lean ====
section
/-! DEFINITION. The decoder of the block. The table of commands (spec/opcode_table.json) gives no row any bits: a command is
an operation or an event with its operands, not a word. So no word spells a command. -/

namespace Sys2Proof

/-- The command that a word spells by the table's bits: no row of the table gives bits, so none. -/
def decodeTableWord (_nbits _w : Nat) : Option Instr := none

end Sys2Proof
end

