-- ==== Sys2Proof/Machine/Bits.lean ====
section
/-! DEFINITION. Bit-field, byte-order and sign helpers (R7: bit 0 is the least significant, multi-byte values are stored
little-endian, a range [hi:lo] includes both ends). -/

namespace Sys2Proof.Machine

/-- Bits [hi:lo] of a number. -/
def bitsOf (w hi lo : Nat) : Nat := w / 2 ^ lo % 2 ^ (hi + 1 - lo)

/-- Bits [hi:lo] of a 64-bit word. -/
def fld (w : W64) (hi lo : Nat) : Nat := bitsOf w.toNat hi lo

/-- One bit of a 64-bit word. -/
def bit (w : W64) (i : Nat) : Bool := w.getLsbD i

/-- A 64-bit word with bits [hi:lo] replaced by the low bits of `v`. -/
def setFld (w : W64) (hi lo v : Nat) : W64 :=
  let m : W64 := BitVec.ofNat 64 ((2 ^ (hi + 1 - lo) - 1) * 2 ^ lo)
  (w &&& ~~~m) ||| (BitVec.ofNat 64 (v % 2 ^ (hi + 1 - lo) * 2 ^ lo))

/-- The value of little-endian bytes. -/
def leNat : List Byte → Nat
  | [] => 0
  | b :: bs => b.toNat + 256 * leNat bs

/-- The `n` little-endian bytes of a number. -/
def leBytes : Nat → Nat → List Byte
  | 0, _ => []
  | n + 1, v => BitVec.ofNat 8 (v % 256) :: leBytes n (v / 256)

/-- The signed value of the low `n` bits of a number. -/
def signedOf (n v : Nat) : Int := if v % 2 ^ n < 2 ^ (n - 1) then (v % 2 ^ n : Nat) else (v % 2 ^ n : Nat) - (2 ^ n : Nat)

/-- A two's-complement code of `n` bits. -/
def codeOf (n : Nat) (i : Int) : Nat := (i % (2 ^ n : Nat)).toNat

/-- `x` clamped into [lo, hi]. -/
def clampN (lo hi x : Nat) : Nat := max lo (min hi x)

/-- Ceiling division. -/
def cdiv (a b : Nat) : Nat := (a + b - 1) / b

/-- Set bits of a number among its low `n` bits. -/
def popN : Nat → Nat → Nat
  | 0, _ => 0
  | n + 1, v => v % 2 + popN n (v / 2)

/-- Leading zeros of a number of `n` bits. -/
def clzN (n v : Nat) : Nat := if v % 2 ^ n = 0 then n else n - 1 - Nat.log2 (v % 2 ^ n)

/-- The low `n` bits reversed. -/
def revN : Nat → Nat → Nat
  | 0, _ => 0
  | n + 1, v => (v % 2) * 2 ^ n + revN n (v / 2)

/-- Lanes 0 to 63 whose bit of a mask is set, in ascending order. -/
def lanesOf (m : BitVec 64) : List Nat := (List.range 64).filter fun i => m.getLsbD i

/-- A mask from the lanes it holds. -/
def maskOf (l : List Nat) : BitVec 64 := l.foldl (fun m i => m ||| (1#64 <<< i)) 0#64

/-- The 64-bit words of a byte list, the last one padded with zeros. -/
def wordsOf : Nat → List Byte → List W64
  | 0, _ => []
  | n + 1, bs => BitVec.ofNat 64 (leNat (bs.take 8)) :: wordsOf n (bs.drop 8)

/-- The bytes of 64-bit words. -/
def bytesOf (ws : List W64) : List Byte := ws.flatMap fun w => leBytes 8 w.toNat

/-- The n-th word of a descriptor or packet; words that are not there read as zero. -/
def wordAt (ws : List W64) (i : Nat) : W64 := ws.getD i 0#64

/-- Bytes [off, off + n) of a packet or descriptor as a number (parameter bytes are counted from the first byte). -/
def pbytes (ws : List W64) (off n : Nat) : Nat := leNat (((bytesOf ws).drop off).take n)

end Sys2Proof.Machine
end

