-- ==== Sys2Proof/Machine/Num.lean ====
section
/-! DEFINITION. The floating-point formats (R47-R52), exact values over ℚ, rounding (R69), float-to-float and
integer conversions (R191), and F32 arithmetic (R188). -/

namespace Sys2Proof.Machine

/-- The value of a floating-point code: NaN, an infinity, or a finite number with the sign a zero needs. -/
inductive FVal where
  | nan
  | inf (neg : Bool)
  | fin (neg : Bool) (q : ℚ)
  deriving DecidableEq, Repr

/-- A floating-point layout (Table 02-2): exponent and mantissa bits, bias, largest finite value, and whether it has
infinities. -/
structure FFmt where
  eb : Nat
  mb : Nat
  bias : Int
  maxFin : ℚ
  hasInf : Bool
  canon : Nat
  deriving DecidableEq, Repr

/-- 2 to an integer power, exactly. -/
def pow2 (e : Int) : ℚ := if 0 ≤ e then ((2 ^ e.toNat : Nat) : ℚ) else 1 / ((2 ^ (-e).toNat : Nat) : ℚ)

def fmtF32 : FFmt := ⟨8, 23, 127, pow2 128 - pow2 104, true, 0x7FC00000⟩
def fmtBF16 : FFmt := ⟨8, 7, 127, pow2 128 - pow2 120, true, 0x7FC0⟩
def fmtF16 : FFmt := ⟨5, 10, 15, 65504, true, 0x7E00⟩
def fmtE4M3 : FFmt := ⟨4, 3, 7, 448, false, 0x7F⟩
def fmtE5M2 : FFmt := ⟨5, 2, 15, 57344, true, 0x7E⟩
/-- IEEE 754 binary64, used for guard sums and the normalisation unit (R123, R225). -/
def fmtF64 : FFmt := ⟨11, 52, 1023, pow2 1024 - pow2 971, true, 0x7FF8000000000000⟩

/-- The layout of a float format code 0x0 to 0x4 (R47). -/
def fmtOf : Nat → Option FFmt
  | 0 => some fmtF32
  | 1 => some fmtBF16
  | 2 => some fmtF16
  | 3 => some fmtE4M3
  | 4 => some fmtE5M2
  | _ => none

/-- Bits of a float code. -/
def FFmt.width (f : FFmt) : Nat := 1 + f.eb + f.mb

/-- The value of a code (R48, R49); subnormals at their full value (R50). -/
def FFmt.decode (f : FFmt) (c : Nat) : FVal :=
  let neg := decide (bitsOf c (f.eb + f.mb) (f.eb + f.mb) = 1)
  let e := bitsOf c (f.eb + f.mb - 1) f.mb
  let m := c % 2 ^ f.mb
  let top := 2 ^ f.eb - 1
  let sgn (q : ℚ) : ℚ := if neg then -q else q
  if e = top ∧ f.hasInf then (if m = 0 then .inf neg else .nan)
  else if e = top ∧ m = 2 ^ f.mb - 1 ∧ !f.hasInf then .nan
  else if e = 0 then .fin neg (sgn ((m : ℚ) * pow2 (1 - f.bias - f.mb)))
  else .fin neg (sgn (((2 ^ f.mb + m : Nat) : ℚ) * pow2 ((e : Int) - f.bias - f.mb)))

/-- ⌊log₂ q⌋ of a positive rational. -/
def ilog2 (q : ℚ) : Int :=
  let e : Int := (Nat.log2 q.num.natAbs : Int) - (Nat.log2 q.den : Int)
  if pow2 e ≤ q then e else e - 1

/-- Round half to even of a non-negative rational. -/
def rneNat (q : ℚ) : Nat :=
  let n := (q.num / q.den).toNat
  let r := q - n
  if r < 1 / 2 then n else if 1 / 2 < r then n + 1 else if n % 2 = 0 then n else n + 1

/-- The grid step of a format at magnitude `a` > 0, with the binades continued without limit (R69). -/
def FFmt.step (f : FFmt) (a : ℚ) : ℚ := pow2 (max (ilog2 a) (1 - f.bias) - f.mb)

/-- How a result is rounded: to nearest even (R69), or stochastically by a 16-bit draw u (R70). -/
inductive Rnd where
  | rne
  | sr (u : Nat)
  deriving DecidableEq, Repr

/-- A magnitude rounded to a whole multiple of a step; under stochastic rounding the neighbours are taken in order of the
signed value, so `neg` swaps them (R70). -/
def roundMag (r : Rnd) (neg : Bool) (a step : ℚ) : ℚ :=
  match r with
  | .rne => (rneNat (a / step) : ℚ) * step
  | .sr u =>
    let k := ((a / step).num / (a / step).den).toNat
    let fr := a / step - k
    if fr = 0 then k * step
    else if neg then (if u < ((1 - fr) * 65536).floor.toNat then k * step else (k + 1) * step)
    else (if u < (fr * 65536).floor.toNat then (k + 1) * step else k * step)

/-- A finite value's code; `q` lies on the format's grid and within its largest finite value. -/
def FFmt.encodeFin (f : FFmt) (neg : Bool) (a : ℚ) : Nat :=
  let s := if neg then 2 ^ (f.eb + f.mb) else 0
  if a = 0 then s
  else
    let e := max (ilog2 a) (1 - f.bias)
    let m := (a / pow2 (e - f.mb)).floor.toNat
    if m < 2 ^ f.mb then s + m else s + ((e + f.bias).toNat * 2 ^ f.mb + (m - 2 ^ f.mb))

/-- A conversion into a format: the code and whether it was an overflow counted as a clip (Table 02-3). -/
def FFmt.round (f : FFmt) (r : Rnd) (v : FVal) : Nat × Bool :=
  let s (neg : Bool) : Nat := if neg then 2 ^ (f.eb + f.mb) else 0
  let infCode := (2 ^ f.eb - 1) * 2 ^ f.mb
  let sat (neg : Bool) : Nat := f.encodeFin neg f.maxFin
  match v with
  | .nan => (f.canon, false)
  | .inf neg => if f.hasInf then (s neg + infCode, false) else (sat neg, true)
  | .fin neg q =>
    if q = 0 then (s neg, false)
    else
      let a := |q|
      let b := roundMag r neg a (f.step a)
      if f.maxFin < b then (if f.mb = 3 ∨ f.mb = 2 then (sat neg, true) else (s neg + infCode, false))
      else (f.encodeFin neg b, false)

/-! ## F32 arithmetic (R188) -/

/-- The value of an F32 word. -/
def f32 (w : W32) : FVal := fmtF32.decode w.toNat

/-- A value rounded to an F32 word. -/
def toF32 (v : FVal) : W32 := BitVec.ofNat 32 (fmtF32.round .rne v).1

/-- Negation and absolute value as the source modifiers apply them (Table 06-3). -/
def FVal.neg : FVal → FVal
  | .nan => .nan
  | .inf n => .inf (!n)
  | .fin n q => .fin (!n) (-q)
def FVal.abs : FVal → FVal
  | .nan => .nan
  | .inf _ => .inf false
  | .fin _ q => .fin false |q|

/-- The exact sum; a sum of opposite finite values that is zero is +0, and of two zeros of one sign that zero. -/
def FVal.add : FVal → FVal → FVal
  | .nan, _ => .nan
  | _, .nan => .nan
  | .inf a, .inf b => if a = b then .inf a else .nan
  | .inf a, .fin _ _ => .inf a
  | .fin _ _, .inf b => .inf b
  | .fin a p, .fin b q =>
    if p + q = 0 then .fin (if p = 0 ∧ q = 0 then a && b else false) 0 else .fin (decide (p + q < 0)) (p + q)

/-- The exact product; ∞ × 0 is NaN. -/
def FVal.mul : FVal → FVal → FVal
  | .nan, _ => .nan
  | _, .nan => .nan
  | .inf a, .inf b => .inf (a != b)
  | .inf a, .fin b q => if q = 0 then .nan else .inf (a != b)
  | .fin a p, .inf b => if p = 0 then .nan else .inf (a != b)
  | .fin a p, .fin b q => .fin (a != b) (p * q)

/-- Exact a·b + c, to be rounded once. -/
def FVal.fma (a b c : FVal) : FVal := (a.mul b).add c

/-- The order of two values that are not NaN, as numbers. -/
def FVal.lt : FVal → FVal → Bool
  | .nan, _ => false
  | _, .nan => false
  | .inf a, .inf b => a && !b
  | .inf a, .fin _ _ => a
  | .fin _ _, .inf b => !b
  | .fin _ p, .fin _ q => decide (p < q)

/-- Numeric equality, zeros of both signs equal. -/
def FVal.eqv : FVal → FVal → Bool
  | .inf a, .inf b => a = b
  | .fin _ p, .fin _ q => decide (p = q)
  | _, _ => false

def FVal.isNan : FVal → Bool
  | .nan => true
  | _ => false

/-- The sign of a value; NaN has none. -/
def FVal.sign : FVal → Bool
  | .nan => false
  | .inf n => n
  | .fin n _ => n

/-- The finite number of a value, zero for the others. -/
def FVal.toQ : FVal → ℚ
  | .fin _ q => q
  | _ => 0

/-- F32 minimum and maximum (R188): one NaN gives the other operand, two the canonical NaN; −0 orders below +0. -/
def fminmax (wantMax : Bool) (a b : W32) : W32 :=
  match f32 a, f32 b with
  | .nan, .nan => 0x7FC00000#32
  | .nan, _ => b
  | _, .nan => a
  | x, y =>
    let aLess := x.lt y || (x.eqv y && x.sign && !y.sign)
    if aLess != wantMax then a else b

/-- An F32 value from a rational. -/
def ofQ (q : ℚ) : FVal := .fin (decide (q < 0)) q

/-- Rounding modes of FRND and of float-to-integer CVT (Table 06-4): nearest even, toward zero, −∞, +∞. -/
def roundInt (mode : Nat) (q : ℚ) : Int :=
  match mode with
  | 0 => if q < 0 then -(rneNat (-q) : Int) else rneNat q
  | 1 => if q < 0 then q.ceil else q.floor
  | 2 => q.floor
  | _ => q.ceil

/-- FRND: an F32 value rounded to an integral value, keeping its sign when it is zero (R187). -/
def frnd (mode : Nat) (a : W32) : W32 :=
  match f32 a with
  | .fin neg q =>
    let i := roundInt mode q
    toF32 (.fin (if i = 0 then neg else decide (i < 0)) i)
  | v => toF32 v

/-- The limits of the integer types of CVT (Table 06-6): S32, U32, S16, U16, S8, U8. -/
def intLimits : Nat → Option (Int × Int × Nat)
  | 0 => some (-2147483648, 2147483647, 32)
  | 1 => some (0, 4294967295, 32)
  | 2 => some (-32768, 32767, 16)
  | 3 => some (0, 65535, 16)
  | 4 => some (-128, 127, 8)
  | 5 => some (0, 255, 8)
  | _ => none

/-- Saturation into an integer type; the result fills 32 bits, sign-extended for signed types and zero-extended for
unsigned ones (R191). -/
def satInt (ty : Nat) (i : Int) : W32 :=
  match intLimits ty with
  | some (lo, hi, _) => BitVec.ofInt 32 (max lo (min hi i))
  | none => 0#32

/-- The integer that a CVT source of a type holds, read from the low bits of a register (R191). -/
def readInt (ty : Nat) (a : W32) : Int :=
  match intLimits ty with
  | some (lo, _, n) => if lo < 0 then signedOf n a.toNat else ((a.toNat % 2 ^ n : Nat) : Int)
  | none => 0

end Sys2Proof.Machine
end

