-- ==== Sys2Proof/Machine/Store.lean ====
section
/-! DEFINITION. Sparse stores: lists of (key, value) pairs in one canonical form, keys strictly rising and no entry equal to
what an unlisted key reads as, so that equal stores are equal data. -/

namespace Sys2Proof.Machine

/-- A sparse store. -/
abbrev SMap (α : Type) := List (Nat × α)

/-- What a key reads as; `d` is what an unlisted key reads as. -/
def SMap.get {α : Type} (d : α) : SMap α → Nat → α
  | [], _ => d
  | (k, v) :: m, i => if i = k then v else SMap.get d m i

/-- An entry put before the first greater key. -/
def SMap.insert {α : Type} : SMap α → Nat → α → SMap α
  | [], i, v => [(i, v)]
  | (k, w) :: m, i, v => if i < k then (i, v) :: (k, w) :: m else (k, w) :: SMap.insert m i v

/-- A write, keeping the canonical form: the key's entry leaves, and a value that is not the default takes its place. -/
def SMap.put {α : Type} [DecidableEq α] (d : α) (m : SMap α) (i : Nat) (v : α) : SMap α :=
  if v = d then m.filter fun e => e.1 != i else SMap.insert (m.filter fun e => e.1 != i) i v

/-- Every key of a store lies above `b`. -/
def SMap.above {α : Type} (b : Nat) : SMap α → Bool
  | [] => true
  | (k, _) :: m => decide (b < k) && SMap.above b m

/-- The canonical form: keys strictly rising, no entry that reads as the default of its key. -/
def SMap.wf {α : Type} [DecidableEq α] (d : Nat → α) : SMap α → Bool
  | [] => true
  | (k, v) :: m => decide (v ≠ d k) && SMap.above k m && SMap.wf d m

/-- Keep only the entries whose key passes a test (a reset of some keys, for instance). -/
def SMap.keep {α : Type} (f : Nat → Bool) (m : SMap α) : SMap α := m.filter fun e => f e.1

end Sys2Proof.Machine
end

