-- ==== Sys2Proof/Machine/Block.lean ====
section
/-! DEFINITION. The block-scaled formats F4, Q4, Q2, T and Q8 (R53-R74): codes, scales, sprouts, the lane LFSRs,
quantisation on the fly and decoding. -/

namespace Sys2Proof.Machine

/-! ## Format facts (Table 02-1) -/

/-- Element width in bits; T is 8 bits for five elements and has no entry here. -/
def elemBits : Nat → Nat
  | 0 => 32
  | 1 => 16
  | 2 => 16
  | 3 => 8
  | 4 => 8
  | 5 => 8
  | 6 => 4
  | 7 => 4
  | 8 => 2
  | _ => 0

/-- Block length B. -/
def blockLen : Nat → Nat
  | 6 => 32
  | 7 => 16
  | 8 => 16
  | 9 => 80
  | _ => 1

/-- Bytes of one block in the element plane (R54). -/
def blockBytes : Nat → Nat
  | 6 => 16
  | 7 => 8
  | 8 => 4
  | 9 => 16
  | f => elemBits f / 8

/-- The block-scaled formats, F4, Q4, Q2 and T. -/
def isBlockFmt (f : Nat) : Bool := 6 ≤ f && f ≤ 9
/-- Float formats, codes 0x0 to 0x4. -/
def isFloatFmt (f : Nat) : Bool := f ≤ 4
/-- The formats that can hold sprouts (R65). -/
def hasSprouts (f : Nat) : Bool := f = 6 || f = 7

/-- Bytes that a row of n elements occupies in the element plane, rounded up to whole blocks (R102). -/
def rowBytes (f n : Nat) : Nat := if isBlockFmt f then cdiv n (blockLen f) * blockBytes f else n * (elemBits f / 8)

/-- A tensor scale is valid when positive, finite and normal (R56). -/
def validScale (w : W32) : Bool :=
  let e := bitsOf w.toNat 30 23
  !w.getLsbD 31 && 1 ≤ e && e ≤ 254

/-! ## Lane LFSRs (R70, R71) -/

/-- One step of a lane's LFSR. -/
def lfsrStep (s : W32) : W32 := (s >>> 1) ^^^ (if s.getLsbD 0 then 0x80200003#32 else 0#32)

/-- A seed with zero replaced (R71). -/
def lfsrSeed (s : W32) : W32 := if s = 0#32 then 1#32 else s

/-- The reset or commit value of lane j for a seed: seed + j × 0x0101_0101. -/
def lfsrLane (seed : W32) (j : Nat) : W32 := lfsrSeed (seed + BitVec.ofNat 32 (j * 0x01010101))

/-- The state of lane j; unlisted lanes hold their reset value. -/
def laneGet (m : SMap W32) (j : Nat) : W32 := SMap.get (lfsrLane 1#32 j) m j
/-- A lane's state written. -/
def lanePut (m : SMap W32) (j : Nat) (v : W32) : SMap W32 := SMap.put (lfsrLane 1#32 j) m j v

/-- One draw of lane j: the lane advances and its bits [31:16] are the draw. -/
def laneDraw (m : SMap W32) (j : Nat) : Nat × SMap W32 :=
  let s := lfsrStep (laneGet m j)
  (bitsOf s.toNat 31 16, lanePut m j s)

/-! ## Codes -/

/-- The value of a scale code: E8M0 for F4, E4M3 for the others (R57, R59). -/
def scaleVal (f c : Nat) : FVal :=
  if f = 6 then (if c = 255 then .nan else .fin false (pow2 ((c : Int) - 127))) else fmtE4M3.decode c

/-- The magnitude of an F4 code (Table 02-4). -/
def f4Mag (c : Nat) : ℚ :=
  match c % 8 with
  | 0 => 0
  | 1 => 1 / 2
  | 2 => 1
  | 3 => 3 / 2
  | 4 => 2
  | 5 => 3
  | 6 => 4
  | _ => 6

/-- The code value of an element code (Tables 02-4 and 02-5, R61, R62, R64); T codes are digits 0 to 2. -/
def codeVal (f c : Nat) : ℚ :=
  match f with
  | 5 => signedOf 8 c
  | 6 => if 8 ≤ c then -f4Mag c else f4Mag c
  | 7 => signedOf 4 c
  | 8 => (c : ℚ) - 3 / 2
  | 9 => (c : ℚ) - 1
  | _ => 0

/-- Trit i of a T byte as a digit 0 to 2 (R64). -/
def tritOf (b i : Nat) : Nat := b / 3 ^ i % 3

/-- Pack element codes of one block into its bytes (R58, R63, R64). -/
def packBlock (f : Nat) (codes : List Nat) : List Byte :=
  (List.range (blockBytes f)).map fun i =>
    let g (k : Nat) : Nat := codes.getD k 0
    BitVec.ofNat 8 <|
      match f with
      | 6 => g (2 * i) + 16 * g (2 * i + 1)
      | 7 => g (2 * i) + 16 * g (2 * i + 1)
      | 8 => g (4 * i) + 4 * g (4 * i + 1) + 16 * g (4 * i + 2) + 64 * g (4 * i + 3)
      | 9 => g (5 * i) + 3 * g (5 * i + 1) + 9 * g (5 * i + 2) + 27 * g (5 * i + 3) + 81 * g (5 * i + 4)
      | _ => g i

/-- The zero code that padding holds (R54): 0 in F4 and Q4, trit 0 in T, 0b10 in Q2. -/
def zeroCode : Nat → Nat
  | 8 => 2
  | 9 => 1
  | _ => 0

/-! ## Quantisation on the fly (R69, R72, R73) -/

/-- The largest code value of an element format (Table 02-7; R61 for Q8). -/
def maxCode : Nat → ℚ
  | 5 => 127
  | 6 => 6
  | 7 => 7
  | 8 => 3 / 2
  | _ => 1

/-- A magnitude rounded to a whole step, ties toward zero. -/
def rtzTie (a : ℚ) : ℚ :=
  let n := a.floor.toNat
  if a - n ≤ 1 / 2 then n else n + 1

/-- A signed quotient rounded on an element format's continued grid (R69, R70). -/
def roundElem (f : Nat) (r : Rnd) (neg : Bool) (a : ℚ) : ℚ :=
  let v : ℚ :=
    match f, r with
    | 6, _ => if a = 0 then 0 else roundMag r neg a (pow2 (max (ilog2 a) 0 - 1))
    | 8, .rne =>
      let y := (if neg then -a else a) + 3 / 2
      let n : Int := if y < 0 then -(rneNat (-y) : Int) else rneNat y
      let w : ℚ := (n : ℚ) - 3 / 2
      if neg then -w else w
    | 8, .sr u =>
      let y := (if neg then -a else a) + 3 / 2
      let n := y.floor
      let fr := y - n
      let w : ℚ := (if fr ≠ 0 ∧ u < (fr * 65536).floor.toNat then (n : ℚ) + 1 else n) - 3 / 2
      if neg then -w else w
    | 9, .rne => rtzTie a
    | _, _ => roundMag r neg a 1
  -- a tie between the largest code value and the next point goes to the largest code value
  let L := maxCode f
  let next : ℚ := if f = 6 then 8 else L + 1
  match r with
  | .rne => if a = (L + next) / 2 then L else v
  | _ => v

/-- The element code for a value on the grid and within the largest code. -/
def codeFor (f : Nat) (neg : Bool) (v : ℚ) : Nat :=
  let s : ℚ := if neg then -v else v
  match f with
  | 6 =>
    let m := (List.range 8).findIdx fun c => f4Mag c = v
    if neg then m + 8 else m
  | 8 => (s + 3 / 2).floor.toNat
  | 9 => (s + 1).floor.toNat
  | 5 => codeOf 8 s.floor
  | _ => codeOf 4 s.floor

/-- RU into E4M3 (Table 02-7): the least code whose value is not below v, limited to 448. -/
def ruE4M3 (v : ℚ) : Nat :=
  if v = 0 then 0
  else
    let st := fmtE4M3.step v
    let w : ℚ := ((v / st).ceil.toNat : ℚ) * st
    if 448 < w then 0x7E else fmtE4M3.encodeFin false w

/-- The F4 scale code (Table 02-7): X = 2^⌈log₂(v/6)⌉ limited to 2⁻¹²⁷…2¹²⁷. -/
def scaleF4 (v : ℚ) : Nat :=
  if v = 0 then 0
  else
    let e := ilog2 (v / 6)
    let k := if pow2 e = v / 6 then e else e + 1
    ((max (-127) (min 127 k)) + 127).toNat

/-- Magnitudes that order blocks: a finite one or +∞. -/
def magLt : FVal → FVal → Bool
  | a, b => a.abs.lt b.abs

/-- What quantising one block gives. -/
structure QBlk where
  scale : Nat
  codes : List Nat
  stream : List Nat
  clips : Nat
  sprouts : Nat
  nans : Nat
  energy : ℚ
  noise : ℚ
  lanes : SMap W32
  deriving DecidableEq, Repr

/-- The index of the largest magnitude outside `skip`, the lower index first on ties. -/
def topIdx (x : List FVal) (skip : List Nat) : Nat :=
  (List.range x.length).foldl (fun best i =>
    if skip.contains i then best
    else if best = x.length then i
    else if magLt (x.getD best .nan) (x.getD i .nan) then i else best) x.length

/-- |a| > tau·|b|, with +∞ the largest (R72). -/
def exceeds (tau : ℚ) (a b : FVal) : Bool :=
  match a.abs, b.abs with
  | .inf _, .inf _ => false
  | .inf _, _ => true
  | .fin _ p, .fin _ q => decide (tau * q < p)
  | _, _ => false

/-- The sprouts R72 chooses in one block. -/
def chooseSprouts (tau : ℚ) (x : List FVal) : List Nat :=
  let m1 := topIdx x []
  let m2 := topIdx x [m1]
  let m3 := topIdx x [m1, m2]
  let g (i : Nat) := x.getD i (.fin false 0)
  (if exceeds tau (g m1) (g m3) then [m1] else []) ++ (if exceeds tau (g m2) (g m3) then [m2] else [])

/-- A draw for one written element: rounding to nearest even, or the lane's draw (R71). -/
def drawFor (stoch : Bool) (lanes : SMap W32) (lane : Nat) : Rnd × SMap W32 :=
  if stoch then (let (u, l) := laneDraw lanes lane; (.sr u, l)) else (.rne, lanes)

/-- One non-sprout element: its code, its stored value in units of scale × T_s, and whether it is a clip (R72, R73). -/
def quantElem (f : Nat) (spOn : Bool) (r : Rnd) (x : FVal) (unit : ℚ) : Nat × ℚ × Bool :=
  let L := maxCode f
  match x with
  | .nan => (zeroCode f, 0, true)
  | .inf neg => (codeFor f neg L, if neg then -L else L, true)
  | .fin neg q =>
    let v := roundElem f r neg (|q| / unit)
    let clip := decide (L < v ∨ v < -L)
    let w := if L < v then L else if v < -L then -L else v
    let c := if f = 6 ∧ w = 0 then (if neg && !spOn then 8 else 0) else codeFor f neg w
    (c, if neg then -w else w, clip)

/-- Quantise one block (R72). `x` holds `n` elements from column `col`; the rest of the block is padding. `allow` is
false for a block whose sprouts would reach beyond the stream's capacity (R208). -/
def quantBlock (f : Nat) (mx spOn allow stoch : Bool) (tau ts : ℚ) (col : Nat) (x : List FVal) (lanes0 : SMap W32) : QBlk :=
  let B := blockLen f
  let n := x.length
  let xs := x ++ List.replicate (B - n) (.fin false 0)
  let T : ℚ := if f = 6 && mx then 1 else ts
  let adv (l : SMap W32) : SMap W32 :=
    if stoch then (List.range n).foldl (fun l i => (laneDraw l ((col + i) % 64)).2) l else l
  if x.any FVal.isNan then
    { scale := if f = 6 then 255 else 0x7F, codes := List.replicate B (zeroCode f), stream := [], clips := n, sprouts := 0,
      nans := (x.filter FVal.isNan).length, energy := 0, noise := 0, lanes := adv lanes0 }
  else
    let sp := if spOn && allow && hasSprouts f then chooseSprouts tau xs else []
    let big := xs.getD (topIdx xs sp) (.fin false 0)
    let sc : Nat :=
      match big.abs with
      | .fin _ a => if f = 6 then scaleF4 (a / T) else ruE4M3 (a / T / maxCode f)
      | _ => if f = 6 then 254 else 0x7E
    let sv : ℚ := (scaleVal f sc).toQ
    let marker := 8
    let step (acc : QBlk) (i : Nat) : QBlk :=
      let xi := x.getD i (.fin false 0)
      let (r, l) := drawFor stoch acc.lanes ((col + i) % 64)
      let fin := match xi with | .fin _ _ => true | _ => false
      if sp.contains i then
        let q : FVal := match xi with | .fin s v => .fin s (v / T) | v => v
        let (c, clip) := fmtE4M3.round r q
        let st : ℚ := (fmtE4M3.decode c).toQ * T
        { acc with codes := acc.codes ++ [marker], stream := acc.stream ++ [c], sprouts := acc.sprouts + 1
                   clips := acc.clips + (if clip then 1 else 0), lanes := l
                   energy := acc.energy + (if fin then xi.toQ * xi.toQ else 0)
                   noise := acc.noise + (if fin then (xi.toQ - st) * (xi.toQ - st) else 0) }
      else
        let (c, v, clip) := quantElem f spOn r xi (sv * T)
        let st : ℚ := v * sv * T
        { acc with codes := acc.codes ++ [c], clips := acc.clips + (if clip then 1 else 0), lanes := l
                   energy := acc.energy + (if fin then xi.toQ * xi.toQ else 0)
                   noise := acc.noise + (if fin then (xi.toQ - st) * (xi.toQ - st) else 0) }
    let init : QBlk := ⟨sc, [], [], 0, 0, 0, 0, 0, lanes0⟩
    let out := (List.range n).foldl step init
    { out with codes := out.codes ++ List.replicate (B - n) (zeroCode f) }

/-- Quantise one Q8 element (R61, R69, R73): code, stored integer, clip. -/
def quantQ8 (r : Rnd) (x : FVal) (ts : ℚ) : Nat × ℚ × Bool := quantElem 5 false r x ts

/-! ## Decoding (R55, R57, R62-R68) -/

/-- How an element enters arithmetic (chapter 3): a float element, a grid element or a sprout. -/
inductive ElemKind where
  | float | grid | sprout
  deriving DecidableEq, Repr

/-- A decoded element: x, the block scale b (1 where none applies), h, and what it counts as. -/
structure Elem where
  kind : ElemKind
  x : FVal
  b : FVal
  h : ℚ
  invalid : Bool
  clipByte : Nat                    -- a T byte of 243-255, plus 1; counted once per byte
  uncorr : Bool
  deriving DecidableEq, Repr

/-- A stored tensor seen through readers of its planes; a reader answers none for an uncorrectable byte. `blocks` is P, the
block positions of a row (R54). -/
structure Plane where
  fmt : Nat
  sprout : Bool
  esc : Bool                        -- read as F8E4M3 bytes (R138, R139)
  blocks : Nat
  stride : Nat
  firstBlock : Nat
  strEnd : Nat
  elem : Int → Option Nat           -- element-plane byte
  scale : Nat → Option Nat          -- scale byte
  index : Nat → Option Nat          -- segment index entry
  stream : Nat → Option Nat         -- byte of the sprout plane

/-- Element code k of the block that starts at an element-plane offset; T codes are digits, 243-255 gives none inside. -/
def Plane.codeAt (p : Plane) (off : Int) (k : Nat) : Option Nat :=
  match p.fmt with
  | 6 => (p.elem (off + (k / 2 : Nat))).map fun b => b / 16 ^ (k % 2) % 16
  | 7 => (p.elem (off + (k / 2 : Nat))).map fun b => b / 16 ^ (k % 2) % 16
  | 8 => (p.elem (off + (k / 4 : Nat))).map fun b => b / 4 ^ (k % 4) % 4
  | 9 => (p.elem (off + (k / 5 : Nat))).map fun b => if 243 ≤ b then 3 else tritOf b (k % 5)
  | _ => p.elem (off + k)

/-- Markers of the block with a block number, at most two (R65); none when a byte of the block is uncorrectable. -/
def Plane.markers (p : Plane) (blk : Nat) : Option Nat :=
  let off : Int := ((blk : Int) - p.firstBlock) * blockBytes p.fmt
  let cs := (List.range (blockLen p.fmt)).map (p.codeAt off)
  if cs.any Option.isNone then none else some (min 2 ((cs.filter fun c => c = some 8).length))

/-- Valid markers of the segment's blocks before `blk` (R67). -/
def Plane.countBefore (p : Plane) (blk : Nat) : Option Nat :=
  (List.range (blk % 256)).foldl (fun acc i =>
    match acc, p.markers (blk / 256 * 256 + i) with
    | some a, some m => some (a + m)
    | _, _ => none) (some 0)

/-- The sprout for the k-th valid marker of a block: its byte's value, or what R67 and R68 give. -/
def Plane.sproutAt (p : Plane) (blk k : Nat) (b : FVal) : Elem :=
  match p.index (blk / 256), p.countBefore blk with
  | some e, some n =>
    let o := e + n + k
    if p.strEnd ≤ o then
      ⟨.grid, if b = .nan then .nan else .fin false 0, b, 1, true, 0, false⟩
    else
      match p.stream o with
      | some c => ⟨.sprout, fmtE4M3.decode c, .fin false 1, 1, false, 0, false⟩
      | none => ⟨.sprout, .nan, .fin false 1, 1, false, 0, true⟩
  | _, _ => ⟨.sprout, .nan, .fin false 1, 1, false, 0, true⟩

/-- Element (i, j) of a stored tensor (R55, R57, R62, R64-R68, R91); uncorrectable bytes give NaN (R108, R206). -/
def Plane.at (p : Plane) (i j : Nat) : Elem :=
  let nanU : Elem := ⟨.grid, .nan, .fin false 1, 1, false, 0, true⟩
  if p.esc then
    match p.elem ((i * p.stride + j : Nat) : Int) with
    | some c => ⟨.sprout, fmtE4M3.decode c, .fin false 1, 1, false, 0, false⟩
    | none => nanU
  else if p.fmt = 5 then
    match p.elem ((i * p.stride + j : Nat) : Int) with
    | some c => ⟨.grid, ofQ (codeVal 5 c), .fin false 1, 1, false, 0, false⟩
    | none => nanU
  else if isBlockFmt p.fmt then
    let bi := j / blockLen p.fmt
    let k := j % blockLen p.fmt
    let off : Int := ((i * p.stride + bi * blockBytes p.fmt : Nat) : Int)
    let blk := p.firstBlock + i * p.blocks + bi
    match p.scale (i * p.blocks + bi) with
    | none => nanU
    | some sc =>
      let b := scaleVal p.fmt sc
      match p.codeAt off k with
      | none => nanU
      | some c =>
        let zero (inv : Bool) (clip : Nat) : Elem :=
          ⟨.grid, if b = .nan then .nan else .fin false 0, b, 1, inv, clip, false⟩
        if p.fmt = 9 ∧ c = 3 then zero true (j / 5 + 1)
        else if hasSprouts p.fmt ∧ c = 8 then
          if p.sprout then
            let before := ((List.range k).filter fun t => p.codeAt off t = some 8).length
            if 2 ≤ before then zero true 0 else p.sproutAt blk before b
          else if p.fmt = 7 then zero true 0
          else ⟨.grid, if b = .nan then .nan else .fin true 0, b, 1 / 2, false, 0, false⟩
        else
          let h : ℚ := if p.fmt = 6 ∨ p.fmt = 8 then 1 / 2 else 1
          ⟨.grid, if b = .nan then .nan else ofQ (codeVal p.fmt c / h), b, h, false, 0, false⟩
  else
    let n := elemBits p.fmt / 8
    let bs := (List.range n).map fun t => p.elem ((i * p.stride + j * n + t : Nat) : Int)
    if bs.any Option.isNone then { nanU with kind := .float }
    else
      match fmtOf p.fmt with
      | some f => ⟨.float, f.decode (leNat (bs.map fun b => BitVec.ofNat 8 (b.getD 0))), .fin false 1, 1, false, 0, false⟩
      | none => nanU

/-- The exact value of an element under a tensor scale (R55). -/
def Elem.value (e : Elem) (ts : ℚ) : FVal :=
  match e.kind with
  | .float => e.x
  | _ => ((e.x.mul e.b).mul (.fin false e.h)).mul (.fin false ts)

end Sys2Proof.Machine
end

