-- ==== Sys2Proof/Config.lean ====
section
/-! DEFINITION. What an implementation fixes and the free values: constants with no body, so that no statement can rest on
a value the specification leaves open. -/

namespace Sys2Proof.Config

/-- A free value: the n-th value the machine draws where the specification promises none (DESIGN CHOICE, log entry 2). -/
opaque freeNat : Nat → Nat

/-- A free choice between two allowed outcomes: the n-th one drawn (R30, R83, R107 and the like; DESIGN CHOICE, log entry 2). -/
opaque freeBool : Nat → Bool

/-- A free 64-bit value: the n-th one drawn. -/
opaque freeWord : Nat → W64

/-- Coefficients of the default seed tables (slot 0-6, entry 0-255): c0 and c1 as binary64 codes, c2 and c3 as F32 codes.
R212 and R216 fix a few of them; the rest are not in the specification (DESIGN CHOICE, log entry 4). -/
opaque seedC0 : Nat → Nat → W64
opaque seedC1 : Nat → Nat → W64
opaque seedC2 : Nat → Nat → W32
opaque seedC3 : Nat → Nat → W32
/-- content_id of the default table of a slot (SFU_TBL_ID reset value). -/
opaque seedId : Nat → W64

/-- 10·log₁₀ of a positive ratio as an F32 code; R124 gives the function and not its rounding (DESIGN CHOICE, log entry 7). -/
opaque sqnrDb : ℚ → W32

/-- EXPU of R225 for a finite argument: the specification gives its path and no bit-exact result (DESIGN CHOICE, log entry 42). -/
opaque expu : ℚ → W32

/-- SHA-384 over a list of bytes, which R451-R458 name by its standard and do not define (DESIGN CHOICE, log entry 5). -/
opaque sha384 : List Byte → BitVec 384
/-- ECDSA P-384 verification of a 48-byte message digest under a public key (key, digest, signature). -/
opaque ecdsaVerify : List Byte → BitVec 384 → List Byte → Bool
/-- LMS verification (R452 step 4): key, message, signature. -/
opaque lmsVerify : List Byte → List Byte → List Byte → Bool
/-- The digests of the two public keys held in the trust-block ROM (R452 step 2). -/
opaque romEcdsaDigest : BitVec 384
opaque romLmsDigest : BitVec 384
/-- The digest of the trust-block ROM (Table 15-5, slot 0). -/
opaque romDigest : BitVec 384
/-- The identity seed that a PUF helper record unwraps to on this package, if it does (R455): tower, record bytes. -/
opaque pufUnwrap : Nat → List Byte → Option (BitVec 384)
/-- The public key (X then Y) of the identity key that R456 derives from a seed. -/
opaque identityKey : BitVec 384 → List Byte
/-- The ECDSA signature by the identity key of a seed over a message (R459). -/
opaque identitySign : BitVec 384 → List Byte → List Byte
/-- Qorain's enterprise number (MGT_ID reset value, R460). -/
opaque enterprise : W32
/-- A standard's own answer to a management request whose body the specification leaves to SPDM, MCTP or PLDM. -/
opaque standardReply : Nat → List Byte → List Byte

end Sys2Proof.Config
end

