-- ==== Sys2Proof/Machine/Ecc.lean ====
section
/-! DEFINITION. The byte code of cellar and shelf (R234-R236), the HBM unit code (R305, R306) and the check-value
computation (R443, R444, R323). -/

namespace Sys2Proof.Machine

/-! ## The byte code -/

/-- Parity of a number's low 8 bits. -/
def par8 (v : Nat) : Nat := popN 8 v % 2

/-- The five check bits of a data byte (R234): each is the parity of the data bits that name it. -/
def byteCheck (d : Nat) : Nat :=
  par8 (d &&& 0x5B) + 2 * par8 (d &&& 0xAD) + 4 * par8 (d &&& 0x36) + 8 * par8 (d &&& 0xC7) + 16 * par8 (d &&& 0xF8)

/-- The 13-bit code word of a byte. -/
def byteCode (b : Byte) : BitVec 13 := BitVec.ofNat 13 (b.toNat + 256 * byteCheck b.toNat)

/-- The code word of a poisoned byte: correct check bits XOR 0b00011 (R236). -/
def poisonCode (b : Byte) : BitVec 13 := BitVec.ofNat 13 (b.toNat + 256 * (byteCheck b.toNat ^^^ 3))

/-- The syndrome of a stored code word (R235). -/
def byteSyn (w : BitVec 13) : Nat := (w.toNat / 256) ^^^ byteCheck (w.toNat % 256)

/-- The columns of the data bits (Table 08-1). -/
def byteCols : List Nat := [0x0B, 0x0D, 0x0E, 0x13, 0x15, 0x16, 0x19, 0x1A]

/-- What reading a byte gives: the byte, whether it was corrected, whether it is uncorrectable (Table 08-2). -/
structure ByteRead where
  val : Byte
  corrected : Bool
  bad : Bool
  deriving DecidableEq, Repr

/-- Decode a code word (Table 08-2). -/
def byteRead (w : BitVec 13) : ByteRead :=
  let s := byteSyn w
  let d := BitVec.ofNat 8 w.toNat
  if s = 0 then ⟨d, false, false⟩
  else if [1, 2, 4, 8, 16].contains s then ⟨d, true, false⟩
  else if byteCols.contains s then ⟨d ^^^ BitVec.ofNat 8 (2 ^ byteCols.findIdx (· = s)), true, false⟩
  else ⟨d, false, true⟩

/-- A byte with its poison mark as units pass it on: bit 8 marks an uncorrectable byte (R236). -/
def ByteRead.marked (r : ByteRead) : BitVec 9 := BitVec.ofNat 9 (r.val.toNat + if r.bad then 256 else 0)

/-- The code word that stores a marked byte. -/
def markedCode (v : BitVec 9) : BitVec 13 :=
  let b := BitVec.ofNat 8 v.toNat
  if v.getLsbD 8 then poisonCode b else byteCode b

/-- A marked byte without poison, its data, and its mark. -/
def clean (b : Byte) : BitVec 9 := BitVec.ofNat 9 b.toNat
def dataOf (v : BitVec 9) : Byte := BitVec.ofNat 8 v.toNat
def isBad (v : BitVec 9) : Bool := v.getLsbD 8

/-! ## The HBM unit code -/

/-- Position p_i of data bit i: the (i+1)-th positive integer that is not a power of two (R305). -/
def hbmPos (i : Nat) : Nat :=
  -- i + 1 plus the powers of two up to the result
  let rec go (fuel p : Nat) : Nat :=
    match fuel with
    | 0 => p
    | f + 1 =>
      let q := i + 1 + (Nat.log2 p + 1)
      if q = p then p else go f q
  go 6 (i + 3)

/-- Check bits 0 to 8 of a unit: the XOR of the positions of its set data bits (R305). -/
def hbmCheck9 (d : BitVec 256) : Nat :=
  (List.range 256).foldl (fun s i => if d.getLsbD i then s ^^^ hbmPos i else s) 0

/-- The ten check bits of a unit; bit 9 is the parity of all data bits and check bits 0 to 8. -/
def hbmCheck (d : BitVec 256) : BitVec 10 :=
  let c := hbmCheck9 d
  BitVec.ofNat 10 (c + 512 * ((popN 256 d.toNat + popN 9 c) % 2))

/-- What reading a unit gives. -/
structure UnitRead where
  data : BitVec 256
  corrected : Bool
  bad : Bool
  syn : Nat
  parity : Nat
  deriving DecidableEq, Repr

/-- Decode a unit (Table 10-2). -/
def unitRead (data : BitVec 256) (check : BitVec 10) : UnitRead :=
  let s := (check.toNat % 512) ^^^ hbmCheck9 data
  let e := (popN 256 data.toNat + popN 10 check.toNat) % 2
  if s = 0 then ⟨data, e = 1, false, s, e⟩
  else if e = 0 then ⟨data, false, true, s, e⟩
  else if s = 2 ^ Nat.log2 s then ⟨data, true, false, s, e⟩
  else
    match (List.range 256).find? fun i => hbmPos i = s with
    | some i => ⟨data ^^^ (1#256 <<< i), true, false, s, e⟩
    | none => ⟨data, false, true, s, e⟩

/-! ## Check values (R443, R444) -/

/-- The parameters of a check-value computation. -/
structure CrcPar where
  w : Nat
  poly : Nat
  refin : Bool
  refout : Bool
  xorout : Nat
  deriving DecidableEq, Repr

/-- One bit of R443's loop. -/
def crcBit (c : CrcPar) (reg b : Nat) : Nat :=
  let top := (bitsOf reg (c.w - 1) (c.w - 1)) ^^^ b
  let r := reg * 2 % 2 ^ c.w
  if top = 1 then r ^^^ (c.poly % 2 ^ c.w) else r

/-- One byte taken. -/
def crcByte (c : CrcPar) (reg : Nat) (b : Byte) : Nat :=
  let v := if c.refin then revN 8 b.toNat else b.toNat
  (List.range 8).foldl (fun r i => crcBit c r (bitsOf v (7 - i) (7 - i))) reg

/-- Bytes taken in order from a running value. -/
def crcRun (c : CrcPar) (reg : Nat) (bs : List Byte) : Nat := bs.foldl (crcByte c) reg

/-- The result at a close. -/
def crcResult (c : CrcPar) (reg : Nat) : Nat :=
  ((if c.refout then revN c.w reg else reg) ^^^ c.xorout) % 2 ^ c.w

/-- The four fixed algorithms of compatibility mode (Table 15-2). -/
def crcCompat : Nat → CrcPar
  | 0 => ⟨32, 0x04C11DB7, true, true, 0xFFFFFFFF⟩
  | 1 => ⟨32, 0x1EDC6F41, true, true, 0xFFFFFFFF⟩
  | 2 => ⟨64, 0x42F0E1EBA9EA3693, true, true, 0xFFFFFFFFFFFFFFFF⟩
  | _ => ⟨16, 0x1021, false, false, 0⟩

/-- CRC-32C of the flits and records (R323, R428). -/
def crc32c (bs : List Byte) : Nat := crcResult (crcCompat 1) (crcRun (crcCompat 1) 0xFFFFFFFF bs)

/-- CRC-64/XZ of the SNAPSHOT image (Table 12-10). -/
def crc64xz (bs : List Byte) : Nat := crcResult (crcCompat 2) (crcRun (crcCompat 2) 0xFFFFFFFFFFFFFFFF bs)

end Sys2Proof.Machine
end

