-- ==== Sys2Proof/Machine/RegMap.lean ====
section
/-! DEFINITION. The register maps of spec/: every register with its block, offset, strides, width and fields, written out
from the maps of spec/01 to spec/15 (columns Bits, Field, Access, Reset) and the block offsets of Table 09-2. -/

namespace Sys2Proof.Machine

/-- The access codes of Table 00-4; `rsv` is a reserved field (R12). -/
inductive Acc where
  | ro | rw | w1c | ws | rc | rsv
  deriving DecidableEq, Repr

/-- The block kinds of Table 09-2: a cluster's block, a cellar die's block, a tower's block, a check-value unit. -/
inductive Blk where
  | clu | cel | tow | cvu
  deriving DecidableEq, Repr

/-- One field of a register map: bits [hi:lo], access, value after a reset, and whether the Reset column is "—" (R14). -/
structure FieldDef where
  hi : Nat
  lo : Nat
  acc : Acc
  reset : Nat
  keep : Bool
  deriving DecidableEq, Repr

/-- The registers of the module, one name per register map. -/
inductive RegName where
  | cluId
  | hltClkStatus
  | hltStamp
  | hltStampSync
  | arrStatus
  | arrPower
  | arrCommit
  | arrLfsrSeed
  | arrFreezeCause
  | arrFreezeCnt
  | arrFillerCnt
  | arrMacCnt
  | arrErr
  | hltPgSummary
  | hltPgEpoch
  | teStatus
  | teFault
  | teFaultAddr
  | teIssueCnt
  | teBankStall
  | teLaunch
  | teTallyWin
  | teBarTimeout
  | teBarState
  | cluTallyVal
  | cluTallyCtl
  | sfuBank
  | sfuTblId
  | sfuDomainCnt
  | nrmStatus
  | nrmRowCnt
  | nrmErr
  | celStatus
  | celScrubCtl
  | celScrubLap
  | celErrCnt
  | celErrLog
  | celSplit
  | celCommit
  | celSpare
  | celFlipmask
  | shfFlipmask
  | shfErrCnt
  | cluHatchStatus
  | cluHatchSpans
  | cluHatchErr
  | panStatus
  | panPolicy
  | panCommit
  | panLarder
  | panPressure
  | panErr
  | panDeadCtl
  | panDeadLog
  | panDeadStamp
  | panHcnt
  | cluGlobalErr
  | hbmRegBudget
  | hbmRegCtl
  | hbmCommit
  | hbmStatus
  | hbmChanFail
  | hbmErrCnt
  | hbmErrLog
  | hbmRmwCnt
  | hbmPatrolLap
  | hbmDlMiss
  | hbmClsCnt
  | panClsCnt
  | lnkPortStatus
  | lnkErrCnt
  | lnkCfg
  | lnkCommit
  | lnkHostBridge
  | lnkRoute
  | brgStatus
  | brgDir
  | cmdQring
  | cmdQcring
  | cmdQcfg
  | cmdQptr
  | cmdQdb
  | cmdQcptr
  | cmdQctx
  | cmdQstat
  | cmdDispatch
  | cmdCommit
  | cmdArb
  | cmdC7
  | pwrStatus
  | pwrSupply
  | pwrPolicy
  | pwrCommit
  | pwrBudget
  | pwrDomCur
  | pwrVmin
  | pwrVminStamp
  | pwrDomCtl
  | thmStatus
  | hltState
  | hltTriggers
  | hltBoot
  | hltCe
  | hltFence
  | hltReset
  | cvuCtl
  | cvuPoly
  | cvuRun
  | cvuXorout
  | cvuExpect
  | cvuLimit
  | cvuResult
  | cvuStatus
  | cvuCommit
  | trsStatus
  | trsRelease
  | trsFpr
  | trsMeas
  | mgtStatus
  | mgtLog
  | mgtId
  deriving DecidableEq, Repr

/-- A register map: block kind and base (Table 09-2), width in bits, offset, and up to two index strides with their
counts. -/
structure RegDef where
  blk : Blk
  base : Nat
  width : Nat
  off : Nat
  s1 : Nat
  n1 : Nat
  s2 : Nat
  n2 : Nat
  deriving DecidableEq, Repr

/-- Where each register lies. -/
def RegName.place : RegName → RegDef
  | .cluId => ⟨.clu, 0x0, 32, 0x0, 0x0, 1, 0x0, 1⟩
  | .hltClkStatus => ⟨.tow, 0x18000000, 32, 0x110, 0x0, 1, 0x0, 1⟩
  | .hltStamp => ⟨.tow, 0x18000000, 64, 0x100, 0x0, 1, 0x0, 1⟩
  | .hltStampSync => ⟨.tow, 0x18000000, 32, 0x108, 0x0, 1, 0x0, 1⟩
  | .arrStatus => ⟨.clu, 0x10000, 32, 0x0, 0x0, 1, 0x0, 1⟩
  | .arrPower => ⟨.clu, 0x10000, 64, 0x8, 0x0, 1, 0x0, 1⟩
  | .arrCommit => ⟨.clu, 0x10000, 32, 0x10, 0x0, 1, 0x0, 1⟩
  | .arrLfsrSeed => ⟨.clu, 0x10000, 32, 0x18, 0x0, 1, 0x0, 1⟩
  | .arrFreezeCause => ⟨.clu, 0x10000, 32, 0x20, 0x0, 1, 0x0, 1⟩
  | .arrFreezeCnt => ⟨.clu, 0x10000, 64, 0x28, 0x0, 1, 0x0, 1⟩
  | .arrFillerCnt => ⟨.clu, 0x10000, 64, 0x30, 0x0, 1, 0x0, 1⟩
  | .arrMacCnt => ⟨.clu, 0x10000, 64, 0x38, 0x0, 1, 0x0, 1⟩
  | .arrErr => ⟨.clu, 0x10000, 64, 0x40, 0x0, 1, 0x0, 1⟩
  | .hltPgSummary => ⟨.tow, 0x18000000, 64, 0x200, 0x0, 1, 0x0, 1⟩
  | .hltPgEpoch => ⟨.tow, 0x18000000, 32, 0x208, 0x0, 1, 0x0, 1⟩
  | .teStatus => ⟨.clu, 0x20000, 32, 0x0, 0x400, 4, 0x0, 1⟩
  | .teFault => ⟨.clu, 0x20000, 64, 0x8, 0x400, 4, 0x0, 1⟩
  | .teFaultAddr => ⟨.clu, 0x20000, 64, 0x10, 0x400, 4, 0x0, 1⟩
  | .teIssueCnt => ⟨.clu, 0x20000, 64, 0x18, 0x400, 4, 0x0, 1⟩
  | .teBankStall => ⟨.clu, 0x20000, 64, 0x20, 0x400, 4, 0x0, 1⟩
  | .teLaunch => ⟨.clu, 0x20000, 64, 0x1000, 0x0, 1, 0x0, 1⟩
  | .teTallyWin => ⟨.clu, 0x20000, 32, 0x1008, 0x0, 1, 0x0, 1⟩
  | .teBarTimeout => ⟨.clu, 0x20000, 32, 0x1010, 0x0, 1, 0x0, 1⟩
  | .teBarState => ⟨.clu, 0x20000, 32, 0x1018, 0x0, 1, 0x0, 1⟩
  | .cluTallyVal => ⟨.clu, 0x0, 64, 0x2000, 0x10, 128, 0x0, 1⟩
  | .cluTallyCtl => ⟨.clu, 0x0, 32, 0x2008, 0x10, 128, 0x0, 1⟩
  | .sfuBank => ⟨.clu, 0x30000, 32, 0x0, 0x0, 1, 0x0, 1⟩
  | .sfuTblId => ⟨.clu, 0x30000, 64, 0x100, 0x40, 2, 0x8, 7⟩
  | .sfuDomainCnt => ⟨.clu, 0x30000, 64, 0x200, 0x8, 4, 0x0, 1⟩
  | .nrmStatus => ⟨.clu, 0x40000, 32, 0x0, 0x0, 1, 0x0, 1⟩
  | .nrmRowCnt => ⟨.clu, 0x40000, 64, 0x8, 0x0, 1, 0x0, 1⟩
  | .nrmErr => ⟨.clu, 0x40000, 64, 0x10, 0x0, 1, 0x0, 1⟩
  | .celStatus => ⟨.cel, 0x10000000, 32, 0x0, 0x0, 1, 0x0, 1⟩
  | .celScrubCtl => ⟨.cel, 0x10000000, 32, 0x8, 0x0, 1, 0x0, 1⟩
  | .celScrubLap => ⟨.cel, 0x10000000, 64, 0x10, 0x0, 1, 0x0, 1⟩
  | .celErrCnt => ⟨.cel, 0x10000000, 64, 0x18, 0x0, 1, 0x0, 1⟩
  | .celErrLog => ⟨.cel, 0x10000000, 64, 0x20, 0x0, 1, 0x0, 1⟩
  | .celSplit => ⟨.cel, 0x10000000, 32, 0x40, 0x0, 1, 0x0, 1⟩
  | .celCommit => ⟨.cel, 0x10000000, 32, 0x48, 0x0, 1, 0x0, 1⟩
  | .celSpare => ⟨.cel, 0x10000000, 32, 0x1000, 0x10, 136, 0x0, 1⟩
  | .celFlipmask => ⟨.cel, 0x10000000, 64, 0x1008, 0x10, 136, 0x0, 1⟩
  | .shfFlipmask => ⟨.clu, 0x50000, 64, 0x0, 0x0, 1, 0x0, 1⟩
  | .shfErrCnt => ⟨.clu, 0x50000, 64, 0x8, 0x0, 1, 0x0, 1⟩
  | .cluHatchStatus => ⟨.clu, 0x0, 32, 0x100, 0x0, 1, 0x0, 1⟩
  | .cluHatchSpans => ⟨.clu, 0x0, 64, 0x108, 0x0, 1, 0x0, 1⟩
  | .cluHatchErr => ⟨.clu, 0x0, 64, 0x110, 0x0, 1, 0x0, 1⟩
  | .panStatus => ⟨.tow, 0x11000000, 32, 0x0, 0x0, 1, 0x0, 1⟩
  | .panPolicy => ⟨.tow, 0x11000000, 64, 0x8, 0x0, 1, 0x0, 1⟩
  | .panCommit => ⟨.tow, 0x11000000, 32, 0x10, 0x0, 1, 0x0, 1⟩
  | .panLarder => ⟨.tow, 0x11000000, 64, 0x20, 0x0, 1, 0x0, 1⟩
  | .panPressure => ⟨.tow, 0x11000000, 64, 0x28, 0x0, 1, 0x0, 1⟩
  | .panErr => ⟨.tow, 0x11000000, 64, 0x30, 0x0, 1, 0x0, 1⟩
  | .panDeadCtl => ⟨.tow, 0x11000000, 32, 0x38, 0x0, 1, 0x0, 1⟩
  | .panDeadLog => ⟨.tow, 0x11000000, 64, 0x40, 0x0, 1, 0x0, 1⟩
  | .panDeadStamp => ⟨.tow, 0x11000000, 64, 0x48, 0x0, 1, 0x0, 1⟩
  | .panHcnt => ⟨.tow, 0x11000000, 64, 0x100, 0x40, 2, 0x8, 7⟩
  | .cluGlobalErr => ⟨.clu, 0x0, 64, 0x118, 0x0, 1, 0x0, 1⟩
  | .hbmRegBudget => ⟨.tow, 0x12000000, 64, 0x0, 0x0, 1, 0x0, 1⟩
  | .hbmRegCtl => ⟨.tow, 0x12000000, 32, 0x8, 0x0, 1, 0x0, 1⟩
  | .hbmCommit => ⟨.tow, 0x12000000, 32, 0x10, 0x0, 1, 0x0, 1⟩
  | .hbmStatus => ⟨.tow, 0x12000000, 32, 0x1000, 0x100, 8, 0x0, 1⟩
  | .hbmChanFail => ⟨.tow, 0x12000000, 32, 0x1008, 0x100, 8, 0x0, 1⟩
  | .hbmErrCnt => ⟨.tow, 0x12000000, 64, 0x1010, 0x100, 8, 0x0, 1⟩
  | .hbmErrLog => ⟨.tow, 0x12000000, 64, 0x1018, 0x100, 8, 0x0, 1⟩
  | .hbmRmwCnt => ⟨.tow, 0x12000000, 64, 0x1020, 0x100, 8, 0x0, 1⟩
  | .hbmPatrolLap => ⟨.tow, 0x12000000, 64, 0x1028, 0x100, 8, 0x0, 1⟩
  | .hbmDlMiss => ⟨.tow, 0x12000000, 64, 0x1030, 0x100, 8, 0x0, 1⟩
  | .hbmClsCnt => ⟨.tow, 0x12000000, 64, 0x1040, 0x100, 8, 0x8, 8⟩
  | .panClsCnt => ⟨.tow, 0x11000000, 64, 0x200, 0x40, 2, 0x8, 8⟩
  | .lnkPortStatus => ⟨.tow, 0x13000000, 32, 0x0, 0x100, 8, 0x0, 1⟩
  | .lnkErrCnt => ⟨.tow, 0x13000000, 64, 0x8, 0x100, 8, 0x0, 1⟩
  | .lnkCfg => ⟨.tow, 0x13000000, 64, 0x1000, 0x0, 1, 0x0, 1⟩
  | .lnkCommit => ⟨.tow, 0x13000000, 32, 0x1008, 0x0, 1, 0x0, 1⟩
  | .lnkHostBridge => ⟨.tow, 0x13000000, 32, 0x1010, 0x0, 1, 0x0, 1⟩
  | .lnkRoute => ⟨.tow, 0x13000000, 32, 0x20000, 0x4, 4096, 0x0, 1⟩
  | .brgStatus => ⟨.tow, 0x14000000, 32, 0x0, 0x0, 1, 0x0, 1⟩
  | .brgDir => ⟨.tow, 0x14000000, 64, 0x1000, 0x8, 64, 0x0, 1⟩
  | .cmdQring => ⟨.tow, 0x17000000, 64, 0x0, 0x40, 256, 0x0, 1⟩
  | .cmdQcring => ⟨.tow, 0x17000000, 64, 0x8, 0x40, 256, 0x0, 1⟩
  | .cmdQcfg => ⟨.tow, 0x17000000, 32, 0x10, 0x40, 256, 0x0, 1⟩
  | .cmdQptr => ⟨.tow, 0x17000000, 64, 0x18, 0x40, 256, 0x0, 1⟩
  | .cmdQdb => ⟨.tow, 0x17000000, 64, 0x20, 0x40, 256, 0x0, 1⟩
  | .cmdQcptr => ⟨.tow, 0x17000000, 64, 0x28, 0x40, 256, 0x0, 1⟩
  | .cmdQctx => ⟨.tow, 0x17000000, 64, 0x30, 0x40, 256, 0x0, 1⟩
  | .cmdQstat => ⟨.tow, 0x17000000, 32, 0x38, 0x40, 256, 0x0, 1⟩
  | .cmdDispatch => ⟨.tow, 0x17000000, 64, 0x4000, 0x0, 1, 0x0, 1⟩
  | .cmdCommit => ⟨.tow, 0x17000000, 32, 0x4008, 0x0, 1, 0x0, 1⟩
  | .cmdArb => ⟨.tow, 0x17000000, 64, 0x4010, 0x0, 1, 0x0, 1⟩
  | .cmdC7 => ⟨.tow, 0x17000000, 32, 0x4018, 0x0, 1, 0x0, 1⟩
  | .pwrStatus => ⟨.tow, 0x15000000, 64, 0x0, 0x0, 1, 0x0, 1⟩
  | .pwrSupply => ⟨.tow, 0x15000000, 64, 0x8, 0x0, 1, 0x0, 1⟩
  | .pwrPolicy => ⟨.tow, 0x15000000, 64, 0x10, 0x0, 1, 0x0, 1⟩
  | .pwrCommit => ⟨.tow, 0x15000000, 32, 0x18, 0x0, 1, 0x0, 1⟩
  | .pwrBudget => ⟨.tow, 0x15000000, 32, 0x20, 0x0, 1, 0x0, 1⟩
  | .pwrDomCur => ⟨.tow, 0x15000000, 64, 0x10000, 0x20, 824, 0x0, 1⟩
  | .pwrVmin => ⟨.tow, 0x15000000, 32, 0x10008, 0x20, 824, 0x0, 1⟩
  | .pwrVminStamp => ⟨.tow, 0x15000000, 64, 0x10010, 0x20, 824, 0x0, 1⟩
  | .pwrDomCtl => ⟨.tow, 0x15000000, 32, 0x10018, 0x20, 824, 0x0, 1⟩
  | .thmStatus => ⟨.tow, 0x16000000, 64, 0x0, 0x0, 1, 0x0, 1⟩
  | .hltState => ⟨.tow, 0x18000000, 32, 0x0, 0x0, 1, 0x0, 1⟩
  | .hltTriggers => ⟨.tow, 0x18000000, 32, 0x8, 0x0, 1, 0x0, 1⟩
  | .hltBoot => ⟨.tow, 0x18000000, 64, 0x10, 0x0, 1, 0x0, 1⟩
  | .hltCe => ⟨.tow, 0x18000000, 64, 0x18, 0x0, 1, 0x0, 1⟩
  | .hltFence => ⟨.tow, 0x18000000, 64, 0x20, 0x0, 1, 0x0, 1⟩
  | .hltReset => ⟨.tow, 0x18000000, 32, 0x28, 0x0, 1, 0x0, 1⟩
  | .cvuCtl => ⟨.cvu, 0x0, 64, 0x0, 0x40, 8, 0x0, 1⟩
  | .cvuPoly => ⟨.cvu, 0x0, 64, 0x8, 0x40, 8, 0x0, 1⟩
  | .cvuRun => ⟨.cvu, 0x0, 64, 0x10, 0x40, 8, 0x0, 1⟩
  | .cvuXorout => ⟨.cvu, 0x0, 64, 0x18, 0x40, 8, 0x0, 1⟩
  | .cvuExpect => ⟨.cvu, 0x0, 64, 0x20, 0x40, 8, 0x0, 1⟩
  | .cvuLimit => ⟨.cvu, 0x0, 64, 0x28, 0x40, 8, 0x0, 1⟩
  | .cvuResult => ⟨.cvu, 0x0, 64, 0x30, 0x40, 8, 0x0, 1⟩
  | .cvuStatus => ⟨.cvu, 0x0, 64, 0x38, 0x40, 8, 0x0, 1⟩
  | .cvuCommit => ⟨.cvu, 0x0, 32, 0x200, 0x0, 1, 0x0, 1⟩
  | .trsStatus => ⟨.tow, 0x1A000000, 64, 0x0, 0x0, 1, 0x0, 1⟩
  | .trsRelease => ⟨.tow, 0x1A000000, 64, 0x8, 0x0, 1, 0x0, 1⟩
  | .trsFpr => ⟨.tow, 0x1A000000, 64, 0x10, 0x8, 2, 0x0, 1⟩
  | .trsMeas => ⟨.tow, 0x1A000000, 64, 0x100, 0x40, 16, 0x8, 6⟩
  | .mgtStatus => ⟨.tow, 0x19000000, 32, 0x0, 0x0, 1, 0x0, 1⟩
  | .mgtLog => ⟨.tow, 0x19000000, 64, 0x8, 0x0, 1, 0x0, 1⟩
  | .mgtId => ⟨.tow, 0x19000000, 32, 0x10, 0x0, 1, 0x0, 1⟩

/-- The fields of each register, high bits first, reserved fields included. -/
def RegName.fields : RegName → List FieldDef
  | .cluId => [⟨31, 24, .rsv, 0x0, false⟩, ⟨23, 22, .ro, 0x0, false⟩, ⟨21, 21, .ro, 0x0, false⟩, ⟨20, 20, .ro, 0x0, false⟩, ⟨19, 15, .ro, 0x0, false⟩, ⟨14, 12, .ro, 0x0, false⟩, ⟨11, 7, .rsv, 0x0, false⟩, ⟨6, 0, .ro, 0x0, false⟩]
  | .hltClkStatus => [⟨31, 4, .rsv, 0x0, false⟩, ⟨3, 3, .w1c, 0x0, false⟩, ⟨2, 2, .ro, 0x0, false⟩, ⟨1, 1, .ro, 0x0, false⟩, ⟨0, 0, .ro, 0x0, false⟩]
  | .hltStamp => [⟨63, 0, .ro, 0x0, false⟩]
  | .hltStampSync => [⟨31, 31, .ro, 0x0, false⟩, ⟨30, 30, .ro, 0x0, false⟩, ⟨29, 21, .rsv, 0x0, false⟩, ⟨20, 16, .ro, 0x0, false⟩, ⟨15, 0, .ro, 0x0, false⟩]
  | .arrStatus => [⟨31, 25, .rsv, 0x0, false⟩, ⟨24, 20, .ro, 0x0, false⟩, ⟨19, 14, .ro, 0x0, false⟩, ⟨13, 11, .ro, 0x0, false⟩, ⟨10, 9, .ro, 0x0, false⟩, ⟨8, 6, .ro, 0x0, false⟩, ⟨5, 0, .rsv, 0x0, false⟩]
  | .arrPower => [⟨63, 48, .ro, 0x4000, false⟩, ⟨47, 32, .rsv, 0x0, false⟩, ⟨31, 16, .ws, 0x4000, false⟩, ⟨15, 11, .rsv, 0x0, false⟩, ⟨10, 0, .ws, 0x40, false⟩]
  | .arrCommit => [⟨31, 2, .rsv, 0x0, false⟩, ⟨1, 1, .ro, 0x0, false⟩, ⟨0, 0, .rw, 0x0, false⟩]
  | .arrLfsrSeed => [⟨31, 0, .ws, 0x1, false⟩]
  | .arrFreezeCause => [⟨31, 5, .rsv, 0x0, false⟩, ⟨4, 4, .w1c, 0x0, false⟩, ⟨3, 3, .w1c, 0x0, false⟩, ⟨2, 2, .w1c, 0x0, false⟩, ⟨1, 1, .w1c, 0x0, false⟩, ⟨0, 0, .w1c, 0x0, false⟩]
  | .arrFreezeCnt => [⟨63, 0, .rc, 0x0, false⟩]
  | .arrFillerCnt => [⟨63, 0, .rc, 0x0, false⟩]
  | .arrMacCnt => [⟨63, 0, .rc, 0x0, false⟩]
  | .arrErr => [⟨63, 63, .w1c, 0x0, false⟩, ⟨62, 60, .ro, 0x0, false⟩, ⟨59, 20, .rsv, 0x0, false⟩, ⟨19, 0, .ro, 0x0, false⟩]
  | .hltPgSummary => [⟨63, 61, .rsv, 0x0, false⟩, ⟨60, 48, .ro, 0x0, false⟩, ⟨47, 45, .rsv, 0x0, false⟩, ⟨44, 32, .ro, 0x0, false⟩, ⟨31, 29, .rsv, 0x0, false⟩, ⟨28, 16, .ro, 0x0, false⟩, ⟨15, 2, .rsv, 0x0, false⟩, ⟨1, 1, .w1c, 0x0, false⟩, ⟨0, 0, .w1c, 0x0, false⟩]
  | .hltPgEpoch => [⟨31, 0, .ro, 0x0, false⟩]
  | .teStatus => [⟨31, 21, .rsv, 0x0, false⟩, ⟨20, 16, .ro, 0x0, false⟩, ⟨15, 0, .ro, 0x0, false⟩]
  | .teFault => [⟨63, 63, .w1c, 0x0, false⟩, ⟨62, 62, .w1c, 0x0, false⟩, ⟨61, 54, .ro, 0x0, false⟩, ⟨53, 50, .ro, 0x0, false⟩, ⟨49, 44, .ro, 0x0, false⟩, ⟨43, 32, .rsv, 0x0, false⟩, ⟨31, 0, .ro, 0x0, false⟩]
  | .teFaultAddr => [⟨63, 0, .ro, 0x0, false⟩]
  | .teIssueCnt => [⟨63, 0, .rc, 0x0, false⟩]
  | .teBankStall => [⟨63, 0, .rc, 0x0, false⟩]
  | .teLaunch => [⟨63, 48, .rsv, 0x0, false⟩, ⟨47, 40, .ro, 0x0, false⟩, ⟨39, 26, .ro, 0x0, false⟩, ⟨25, 23, .ro, 0x0, false⟩, ⟨22, 16, .ro, 0x0, false⟩, ⟨15, 14, .rsv, 0x0, false⟩, ⟨13, 8, .ro, 0x0, false⟩, ⟨7, 0, .rsv, 0x0, false⟩]
  | .teTallyWin => [⟨31, 16, .rsv, 0x0, false⟩, ⟨15, 8, .ro, 0x0, false⟩, ⟨7, 7, .rsv, 0x0, false⟩, ⟨6, 0, .ro, 0x0, false⟩]
  | .teBarTimeout => [⟨31, 16, .rsv, 0x0, false⟩, ⟨15, 0, .ro, 0x494, false⟩]
  | .teBarState => [⟨31, 16, .rsv, 0x0, false⟩, ⟨15, 0, .ro, 0x0, false⟩]
  | .cluTallyVal => [⟨63, 32, .rw, 0x0, false⟩, ⟨31, 0, .rw, 0x0, false⟩]
  | .cluTallyCtl => [⟨31, 4, .rsv, 0x0, false⟩, ⟨3, 3, .w1c, 0x0, false⟩, ⟨2, 2, .ro, 0x0, false⟩, ⟨1, 1, .rw, 0x0, false⟩, ⟨0, 0, .ro, 0x0, false⟩]
  | .sfuBank => [⟨31, 18, .rsv, 0x0, false⟩, ⟨17, 17, .ro, 0x0, false⟩, ⟨16, 16, .ro, 0x0, false⟩, ⟨15, 8, .ro, 0x0, false⟩, ⟨7, 0, .ro, 0x0, false⟩]
  | .sfuTblId => [⟨63, 0, .ro, 0x0, false⟩]
  | .sfuDomainCnt => [⟨63, 0, .rc, 0x0, false⟩]
  | .nrmStatus => [⟨31, 6, .rsv, 0x0, false⟩, ⟨5, 5, .ro, 0x0, false⟩, ⟨4, 0, .ro, 0x0, false⟩]
  | .nrmRowCnt => [⟨63, 0, .rc, 0x0, false⟩]
  | .nrmErr => [⟨63, 63, .w1c, 0x0, false⟩, ⟨62, 60, .ro, 0x0, false⟩, ⟨59, 20, .rsv, 0x0, false⟩, ⟨19, 0, .ro, 0x0, false⟩]
  | .celStatus => [⟨31, 20, .rsv, 0x0, false⟩, ⟨19, 19, .ro, 0x0, false⟩, ⟨18, 18, .w1c, 0x0, false⟩, ⟨17, 17, .w1c, 0x0, false⟩, ⟨16, 16, .w1c, 0x0, false⟩, ⟨15, 13, .rsv, 0x0, false⟩, ⟨12, 8, .ro, 0x0, false⟩, ⟨7, 0, .rsv, 0x0, false⟩]
  | .celScrubCtl => [⟨31, 16, .ws, 0x3E8, false⟩, ⟨15, 5, .rsv, 0x0, false⟩, ⟨4, 4, .ws, 0x1, false⟩, ⟨3, 0, .ws, 0x6, false⟩]
  | .celScrubLap => [⟨63, 32, .ro, 0x0, false⟩, ⟨31, 0, .ro, 0x0, false⟩]
  | .celErrCnt => [⟨63, 32, .rc, 0x0, false⟩, ⟨31, 0, .rc, 0x0, false⟩]
  | .celErrLog => [⟨63, 63, .w1c, 0x0, false⟩, ⟨62, 61, .ro, 0x0, false⟩, ⟨60, 45, .rsv, 0x0, false⟩, ⟨44, 37, .ro, 0x0, false⟩, ⟨36, 22, .ro, 0x0, false⟩, ⟨21, 13, .ro, 0x0, false⟩, ⟨12, 8, .ro, 0x0, false⟩, ⟨7, 0, .rsv, 0x0, false⟩]
  | .celSplit => [⟨31, 4, .rsv, 0x0, false⟩, ⟨3, 0, .ws, 0x4, false⟩]
  | .celCommit => [⟨31, 2, .rsv, 0x0, false⟩, ⟨1, 1, .ro, 0x0, false⟩, ⟨0, 0, .rw, 0x0, false⟩]
  | .celSpare => [⟨31, 26, .rsv, 0x0, false⟩, ⟨25, 16, .ro, 0x0, true⟩, ⟨15, 10, .rsv, 0x0, false⟩, ⟨9, 0, .ro, 0x0, true⟩]
  | .celFlipmask => [⟨63, 63, .rw, 0x0, false⟩, ⟨62, 58, .rsv, 0x0, false⟩, ⟨57, 49, .rw, 0x0, false⟩, ⟨48, 45, .rsv, 0x0, false⟩, ⟨44, 32, .rw, 0x0, false⟩, ⟨31, 26, .rsv, 0x0, false⟩, ⟨25, 17, .rw, 0x0, false⟩, ⟨16, 13, .rsv, 0x0, false⟩, ⟨12, 0, .rw, 0x0, false⟩]
  | .shfFlipmask => [⟨63, 63, .rw, 0x0, false⟩, ⟨62, 52, .rsv, 0x0, false⟩, ⟨51, 32, .rw, 0x0, false⟩, ⟨31, 13, .rsv, 0x0, false⟩, ⟨12, 0, .rw, 0x0, false⟩]
  | .shfErrCnt => [⟨63, 32, .rc, 0x0, false⟩, ⟨31, 0, .rc, 0x0, false⟩]
  | .cluHatchStatus => [⟨31, 12, .rsv, 0x0, false⟩, ⟨11, 9, .ro, 0x0, false⟩, ⟨8, 3, .ro, 0x0, false⟩, ⟨2, 2, .ro, 0x0, false⟩, ⟨1, 0, .rsv, 0x0, false⟩]
  | .cluHatchSpans => [⟨63, 32, .rc, 0x0, false⟩, ⟨31, 0, .rc, 0x0, false⟩]
  | .cluHatchErr => [⟨63, 63, .w1c, 0x0, false⟩, ⟨62, 60, .ro, 0x0, false⟩, ⟨59, 52, .rsv, 0x0, false⟩, ⟨51, 20, .ro, 0x0, false⟩, ⟨19, 0, .ro, 0x0, false⟩]
  | .panStatus => [⟨31, 21, .rsv, 0x0, false⟩, ⟨20, 16, .ro, 0x10, false⟩, ⟨15, 12, .ro, 0x8, false⟩, ⟨11, 9, .ro, 0x2, false⟩, ⟨8, 8, .ro, 0x0, false⟩, ⟨7, 7, .ro, 0x0, false⟩, ⟨6, 6, .ro, 0x0, false⟩, ⟨5, 5, .ro, 0x0, false⟩, ⟨4, 0, .rsv, 0x0, false⟩]
  | .panPolicy => [⟨63, 56, .ws, 0x3, false⟩, ⟨55, 55, .ws, 0x0, false⟩, ⟨54, 48, .ws, 0x4, false⟩, ⟨47, 38, .ws, 0xFA, false⟩, ⟨37, 21, .ws, 0x3E8, false⟩, ⟨20, 20, .ws, 0x0, false⟩, ⟨19, 16, .ws, 0x8, false⟩, ⟨15, 13, .ws, 0x2, false⟩, ⟨12, 0, .rsv, 0x0, false⟩]
  | .panCommit => [⟨31, 2, .rsv, 0x0, false⟩, ⟨1, 1, .ro, 0x0, false⟩, ⟨0, 0, .rw, 0x0, false⟩]
  | .panLarder => [⟨63, 53, .rsv, 0x0, false⟩, ⟨52, 42, .ro, 0x0, false⟩, ⟨41, 0, .ro, 0x0, false⟩]
  | .panPressure => [⟨63, 48, .rc, 0x0, false⟩, ⟨47, 32, .rc, 0x0, false⟩, ⟨31, 10, .rsv, 0x0, false⟩, ⟨9, 0, .ro, 0x0, false⟩]
  | .panErr => [⟨63, 63, .w1c, 0x0, false⟩, ⟨62, 61, .ro, 0x0, false⟩, ⟨60, 41, .rsv, 0x0, false⟩, ⟨40, 0, .ro, 0x0, false⟩]
  | .panDeadCtl => [⟨31, 16, .rc, 0x0, false⟩, ⟨15, 7, .rsv, 0x0, false⟩, ⟨6, 0, .ro, 0x0, false⟩]
  | .panDeadLog => [⟨63, 63, .rc, 0x0, false⟩, ⟨62, 60, .rsv, 0x0, false⟩, ⟨59, 50, .ro, 0x0, false⟩, ⟨49, 41, .rsv, 0x0, false⟩, ⟨40, 0, .ro, 0x0, false⟩]
  | .panDeadStamp => [⟨63, 0, .ro, 0x0, false⟩]
  | .panHcnt => [⟨63, 0, .rc, 0x0, false⟩]
  | .cluGlobalErr => [⟨63, 63, .w1c, 0x0, false⟩, ⟨62, 60, .ro, 0x0, false⟩, ⟨59, 56, .ro, 0x0, false⟩, ⟨55, 0, .ro, 0x0, false⟩]
  | .hbmRegBudget => [⟨63, 56, .ws, 0x40, false⟩, ⟨55, 48, .ws, 0x20, false⟩, ⟨47, 40, .ws, 0x80, false⟩, ⟨39, 32, .ws, 0x80, false⟩, ⟨31, 24, .ws, 0x80, false⟩, ⟨23, 16, .ws, 0x80, false⟩, ⟨15, 8, .ws, 0x80, false⟩, ⟨7, 0, .ws, 0x8, false⟩]
  | .hbmRegCtl => [⟨31, 28, .ws, 0x6, false⟩, ⟨27, 16, .ws, 0x40, false⟩, ⟨15, 0, .ws, 0x78, false⟩]
  | .hbmCommit => [⟨31, 2, .rsv, 0x0, false⟩, ⟨1, 1, .ro, 0x0, false⟩, ⟨0, 0, .rw, 0x0, false⟩]
  | .hbmStatus => [⟨31, 24, .ro, 0x0, false⟩, ⟨23, 23, .ro, 0x0, false⟩, ⟨22, 22, .w1c, 0x0, false⟩, ⟨21, 21, .ro, 0x0, false⟩, ⟨20, 15, .ro, 0x0, true⟩, ⟨14, 1, .rsv, 0x0, false⟩, ⟨0, 0, .ro, 0x0, false⟩]
  | .hbmChanFail => [⟨31, 0, .ro, 0x0, true⟩]
  | .hbmErrCnt => [⟨63, 48, .rc, 0x0, false⟩, ⟨47, 40, .rc, 0x0, false⟩, ⟨39, 24, .rc, 0x0, false⟩, ⟨23, 0, .rc, 0x0, false⟩]
  | .hbmErrLog => [⟨63, 63, .w1c, 0x0, false⟩, ⟨62, 61, .ro, 0x0, false⟩, ⟨60, 55, .ro, 0x0, false⟩, ⟨54, 33, .ro, 0x0, false⟩, ⟨32, 30, .ro, 0x0, false⟩, ⟨29, 21, .ro, 0x0, false⟩, ⟨20, 20, .ro, 0x0, false⟩, ⟨19, 0, .rsv, 0x0, false⟩]
  | .hbmRmwCnt => [⟨63, 0, .rc, 0x0, false⟩]
  | .hbmPatrolLap => [⟨63, 32, .ro, 0x0, false⟩, ⟨31, 0, .ro, 0x0, false⟩]
  | .hbmDlMiss => [⟨63, 32, .rc, 0x0, false⟩, ⟨31, 0, .rc, 0x0, false⟩]
  | .hbmClsCnt => [⟨63, 48, .rc, 0x0, false⟩, ⟨47, 0, .rc, 0x0, false⟩]
  | .panClsCnt => [⟨63, 48, .rc, 0x0, false⟩, ⟨47, 0, .rc, 0x0, false⟩]
  | .lnkPortStatus => [⟨31, 24, .ro, 0x0, false⟩, ⟨23, 16, .ro, 0x0, false⟩, ⟨15, 14, .rsv, 0x0, false⟩, ⟨13, 10, .ro, 0x0, false⟩, ⟨9, 6, .ro, 0x0, false⟩, ⟨5, 5, .w1c, 0x0, false⟩, ⟨4, 4, .ro, 0x0, false⟩, ⟨3, 3, .rsv, 0x0, false⟩, ⟨2, 0, .ro, 0x0, false⟩]
  | .lnkErrCnt => [⟨63, 48, .rc, 0x0, false⟩, ⟨47, 32, .rc, 0x0, false⟩, ⟨31, 16, .rc, 0x0, false⟩, ⟨15, 0, .rc, 0x0, false⟩]
  | .lnkCfg => [⟨63, 63, .ro, 0x0, false⟩, ⟨62, 60, .rsv, 0x0, false⟩, ⟨59, 48, .ws, 0x0, false⟩, ⟨47, 40, .rsv, 0x0, false⟩, ⟨39, 36, .ws, 0x3, false⟩, ⟨35, 32, .rsv, 0x0, false⟩, ⟨31, 18, .ws, 0x64, false⟩, ⟨17, 17, .ws, 0x0, false⟩, ⟨16, 8, .rsv, 0x0, false⟩, ⟨7, 0, .ws, 0xFF, false⟩]
  | .lnkCommit => [⟨31, 2, .rsv, 0x0, false⟩, ⟨1, 1, .ro, 0x0, false⟩, ⟨0, 0, .rw, 0x0, false⟩]
  | .lnkHostBridge => [⟨31, 31, .ws, 0x1, false⟩, ⟨30, 12, .rsv, 0x0, false⟩, ⟨11, 0, .ws, 0x0, false⟩]
  | .lnkRoute => [⟨31, 31, .ro, 0x0, false⟩, ⟨30, 26, .rsv, 0x0, false⟩, ⟨25, 24, .ro, 0x0, false⟩, ⟨23, 18, .ro, 0x0, false⟩, ⟨17, 12, .ro, 0x0, false⟩, ⟨11, 6, .ro, 0x0, false⟩, ⟨5, 0, .ro, 0x0, false⟩]
  | .brgStatus => [⟨31, 22, .rw, 0x0, false⟩, ⟨21, 12, .rsv, 0x0, false⟩, ⟨11, 11, .w1c, 0x0, false⟩, ⟨10, 8, .ro, 0x0, false⟩, ⟨7, 5, .ro, 0x0, false⟩, ⟨4, 4, .ro, 0x0, false⟩, ⟨3, 3, .ro, 0x0, false⟩, ⟨2, 1, .rsv, 0x0, false⟩, ⟨0, 0, .ro, 0x0, false⟩]
  | .brgDir => [⟨63, 63, .ro, 0x0, false⟩, ⟨62, 60, .rsv, 0x0, false⟩, ⟨59, 48, .ro, 0x0, false⟩, ⟨47, 26, .ro, 0x0, false⟩, ⟨25, 0, .rsv, 0x0, false⟩]
  | .cmdQring => [⟨63, 6, .ws, 0x0, false⟩, ⟨5, 0, .rsv, 0x0, false⟩]
  | .cmdQcring => [⟨63, 5, .ws, 0x0, false⟩, ⟨4, 0, .rsv, 0x0, false⟩]
  | .cmdQcfg => [⟨31, 31, .ws, 0x0, false⟩, ⟨30, 30, .ws, 0x0, false⟩, ⟨29, 28, .ws, 0x0, false⟩, ⟨27, 25, .ws, 0x0, false⟩, ⟨24, 20, .ws, 0x4, false⟩, ⟨19, 15, .ws, 0x4, false⟩, ⟨14, 11, .rsv, 0x0, false⟩, ⟨10, 0, .ws, 0x0, false⟩]
  | .cmdQptr => [⟨63, 32, .ro, 0x0, false⟩, ⟨31, 0, .ro, 0x0, false⟩]
  | .cmdQdb => [⟨63, 32, .rsv, 0x0, false⟩, ⟨31, 0, .rw, 0x0, false⟩]
  | .cmdQcptr => [⟨63, 32, .ro, 0x0, false⟩, ⟨31, 0, .rw, 0x0, false⟩]
  | .cmdQctx => [⟨63, 6, .ws, 0x0, false⟩, ⟨5, 0, .rsv, 0x0, false⟩]
  | .cmdQstat => [⟨31, 24, .rc, 0x0, false⟩, ⟨23, 16, .rc, 0x0, false⟩, ⟨15, 15, .ro, 0x0, false⟩, ⟨14, 14, .ro, 0x0, false⟩, ⟨13, 8, .rsv, 0x0, false⟩, ⟨7, 0, .ro, 0x0, false⟩]
  | .cmdDispatch => [⟨63, 44, .rsv, 0x0, false⟩, ⟨43, 27, .ws, 0x3E8, false⟩, ⟨26, 17, .ws, 0x14, false⟩, ⟨16, 10, .ws, 0x8, false⟩, ⟨9, 0, .ws, 0x32, false⟩]
  | .cmdCommit => [⟨31, 2, .rsv, 0x0, false⟩, ⟨1, 1, .ro, 0x0, false⟩, ⟨0, 0, .rw, 0x0, false⟩]
  | .cmdArb => [⟨63, 32, .rc, 0x0, false⟩, ⟨31, 0, .rc, 0x0, false⟩]
  | .cmdC7 => [⟨31, 16, .rc, 0x0, false⟩, ⟨15, 7, .rsv, 0x0, false⟩, ⟨6, 0, .ro, 0x0, false⟩]
  | .pwrStatus => [⟨63, 48, .ro, 0x0, false⟩, ⟨47, 32, .ro, 0x0, false⟩, ⟨31, 20, .ro, 0x0, false⟩, ⟨19, 16, .rsv, 0x0, false⟩, ⟨15, 15, .ro, 0x0, false⟩, ⟨14, 14, .ro, 0x0, false⟩, ⟨13, 13, .ro, 0x0, false⟩, ⟨12, 12, .ro, 0x0, false⟩, ⟨11, 8, .rsv, 0x0, false⟩, ⟨7, 7, .w1c, 0x0, false⟩, ⟨6, 6, .w1c, 0x0, false⟩, ⟨5, 5, .w1c, 0x0, false⟩, ⟨4, 4, .w1c, 0x0, false⟩, ⟨3, 0, .rsv, 0x0, false⟩]
  | .pwrSupply => [⟨63, 48, .rc, 0x0, false⟩, ⟨47, 32, .rc, 0xFFFF, false⟩, ⟨31, 16, .ro, 0x0, false⟩, ⟨15, 0, .ro, 0x0, false⟩]
  | .pwrPolicy => [⟨63, 58, .rsv, 0x0, false⟩, ⟨57, 48, .ws, 0x96, false⟩, ⟨47, 41, .ws, 0xA, false⟩, ⟨40, 24, .ws, 0x400, false⟩, ⟨23, 16, .ws, 0x10, false⟩, ⟨15, 11, .ws, 0x10, false⟩, ⟨10, 7, .ws, 0x5, false⟩, ⟨6, 0, .rsv, 0x0, false⟩]
  | .pwrCommit => [⟨31, 2, .rsv, 0x0, false⟩, ⟨1, 1, .ro, 0x0, false⟩, ⟨0, 0, .rw, 0x0, false⟩]
  | .pwrBudget => [⟨31, 16, .ro, 0x0, false⟩, ⟨15, 0, .ro, 0x0, false⟩]
  | .pwrDomCur => [⟨63, 48, .ro, 0x0, false⟩, ⟨47, 32, .ro, 0x0, false⟩, ⟨31, 0, .ro, 0x0, false⟩]
  | .pwrVmin => [⟨31, 16, .rsv, 0x0, false⟩, ⟨15, 0, .rc, 0xFFFF, false⟩]
  | .pwrVminStamp => [⟨63, 0, .ro, 0x0, false⟩]
  | .pwrDomCtl => [⟨31, 29, .ro, 0x0, false⟩, ⟨28, 25, .ro, 0x0, true⟩, ⟨24, 21, .ro, 0x0, true⟩, ⟨20, 16, .rsv, 0x0, false⟩, ⟨15, 0, .ro, 0x0, false⟩]
  | .thmStatus => [⟨63, 56, .ro, 0x0, false⟩, ⟨55, 48, .ro, 0x0, false⟩, ⟨47, 40, .ro, 0x0, false⟩, ⟨39, 32, .ro, 0x0, false⟩, ⟨31, 24, .ro, 0x0, false⟩, ⟨23, 16, .ro, 0x0, false⟩, ⟨15, 8, .rsv, 0x0, false⟩, ⟨7, 7, .ro, 0x0, false⟩, ⟨6, 6, .ro, 0x0, false⟩, ⟨5, 5, .ro, 0x0, false⟩, ⟨4, 4, .w1c, 0x0, false⟩, ⟨3, 0, .rsv, 0x0, false⟩]
  | .hltState => [⟨31, 28, .rsv, 0x0, false⟩, ⟨27, 24, .ro, 0x0, false⟩, ⟨23, 22, .ro, 0x0, false⟩, ⟨21, 20, .rsv, 0x0, false⟩, ⟨19, 16, .ro, 0x0, false⟩, ⟨15, 9, .rsv, 0x0, false⟩, ⟨8, 8, .ro, 0x0, false⟩, ⟨7, 6, .ro, 0x0, false⟩, ⟨5, 4, .ro, 0x0, false⟩, ⟨3, 3, .w1c, 0x0, false⟩, ⟨2, 2, .rsv, 0x0, false⟩, ⟨1, 0, .ro, 0x0, false⟩]
  | .hltTriggers => [⟨31, 31, .w1c, 0x0, false⟩, ⟨30, 14, .rsv, 0x0, false⟩, ⟨13, 0, .ro, 0x0, false⟩]
  | .hltBoot => [⟨63, 32, .ro, 0x0, false⟩, ⟨31, 0, .ro, 0x0, false⟩]
  | .hltCe => [⟨63, 56, .ro, 0x0, false⟩, ⟨55, 32, .rsv, 0x0, false⟩, ⟨31, 0, .ro, 0x0, false⟩]
  | .hltFence => [⟨63, 48, .rc, 0x0, false⟩, ⟨47, 16, .rsv, 0x0, false⟩, ⟨15, 0, .ro, 0x0, false⟩]
  | .hltReset => [⟨31, 20, .rsv, 0x0, false⟩, ⟨19, 16, .ro, 0x0, false⟩, ⟨15, 12, .ro, 0x0, false⟩, ⟨11, 8, .ro, 0x0, false⟩, ⟨7, 4, .ro, 0x0, false⟩, ⟨3, 0, .rsv, 0x0, false⟩]
  | .cvuCtl => [⟨63, 57, .ws, 0x0, false⟩, ⟨56, 50, .ws, 0x0, false⟩, ⟨49, 49, .ws, 0x0, false⟩, ⟨48, 48, .ws, 0x0, false⟩, ⟨47, 47, .ws, 0x0, false⟩, ⟨46, 45, .ws, 0x0, false⟩, ⟨44, 44, .ws, 0x0, false⟩, ⟨43, 43, .ws, 0x0, false⟩, ⟨42, 36, .ws, 0x20, false⟩, ⟨35, 32, .rsv, 0x0, false⟩, ⟨31, 30, .ws, 0x0, false⟩, ⟨29, 27, .ws, 0x0, false⟩, ⟨26, 26, .ws, 0x0, false⟩, ⟨25, 14, .ws, 0x0, false⟩, ⟨13, 7, .rsv, 0x0, false⟩, ⟨6, 0, .ws, 0x0, false⟩]
  | .cvuPoly => [⟨63, 0, .ws, 0x0, false⟩]
  | .cvuRun => [⟨63, 0, .ws, 0xFFFFFFFFFFFFFFFF, false⟩]
  | .cvuXorout => [⟨63, 0, .ws, 0x0, false⟩]
  | .cvuExpect => [⟨63, 0, .ws, 0x0, false⟩]
  | .cvuLimit => [⟨63, 0, .ws, 0x0, false⟩]
  | .cvuResult => [⟨63, 0, .ro, 0x0, false⟩]
  | .cvuStatus => [⟨63, 63, .w1c, 0x0, false⟩, ⟨62, 62, .ro, 0x0, false⟩, ⟨61, 61, .ro, 0x0, false⟩, ⟨60, 56, .rsv, 0x0, false⟩, ⟨55, 40, .rc, 0x0, false⟩, ⟨39, 0, .ro, 0x0, false⟩]
  | .cvuCommit => [⟨31, 2, .rsv, 0x0, false⟩, ⟨1, 1, .ro, 0x0, false⟩, ⟨0, 0, .rw, 0x0, false⟩]
  | .trsStatus => [⟨63, 32, .ro, 0x0, false⟩, ⟨31, 16, .rsv, 0x0, false⟩, ⟨15, 15, .ro, 0x0, false⟩, ⟨14, 13, .ro, 0x0, false⟩, ⟨12, 12, .ro, 0x0, false⟩, ⟨11, 5, .rsv, 0x0, false⟩, ⟨4, 0, .ro, 0x0, false⟩]
  | .trsRelease => [⟨63, 0, .ro, 0x0, false⟩]
  | .trsFpr => [⟨63, 0, .ro, 0x0, false⟩]
  | .trsMeas => [⟨63, 0, .ro, 0x0, false⟩]
  | .mgtStatus => [⟨31, 31, .ro, 0x0, false⟩, ⟨30, 30, .ro, 0x0, false⟩, ⟨29, 23, .ro, 0x0, false⟩, ⟨22, 16, .ro, 0x0, false⟩, ⟨15, 8, .ro, 0x0, false⟩, ⟨7, 0, .rsv, 0x0, false⟩]
  | .mgtLog => [⟨63, 32, .ro, 0x0, false⟩, ⟨31, 0, .rw, 0x0, false⟩]
  | .mgtId => [⟨31, 0, .ro, 0x0, false⟩]

/-- Every register name, in the order of the chapters. -/
def RegName.all : List RegName :=
  List.flatten [
  [.cluId, .hltClkStatus, .hltStamp, .hltStampSync, .arrStatus, .arrPower, .arrCommit, .arrLfsrSeed, .arrFreezeCause, .arrFreezeCnt, .arrFillerCnt, .arrMacCnt],
  [.arrErr, .hltPgSummary, .hltPgEpoch, .teStatus, .teFault, .teFaultAddr, .teIssueCnt, .teBankStall, .teLaunch, .teTallyWin, .teBarTimeout, .teBarState],
  [.cluTallyVal, .cluTallyCtl, .sfuBank, .sfuTblId, .sfuDomainCnt, .nrmStatus, .nrmRowCnt, .nrmErr, .celStatus, .celScrubCtl, .celScrubLap, .celErrCnt],
  [.celErrLog, .celSplit, .celCommit, .celSpare, .celFlipmask, .shfFlipmask, .shfErrCnt, .cluHatchStatus, .cluHatchSpans, .cluHatchErr, .panStatus, .panPolicy],
  [.panCommit, .panLarder, .panPressure, .panErr, .panDeadCtl, .panDeadLog, .panDeadStamp, .panHcnt, .cluGlobalErr, .hbmRegBudget, .hbmRegCtl, .hbmCommit],
  [.hbmStatus, .hbmChanFail, .hbmErrCnt, .hbmErrLog, .hbmRmwCnt, .hbmPatrolLap, .hbmDlMiss, .hbmClsCnt, .panClsCnt, .lnkPortStatus, .lnkErrCnt, .lnkCfg],
  [.lnkCommit, .lnkHostBridge, .lnkRoute, .brgStatus, .brgDir, .cmdQring, .cmdQcring, .cmdQcfg, .cmdQptr, .cmdQdb, .cmdQcptr, .cmdQctx],
  [.cmdQstat, .cmdDispatch, .cmdCommit, .cmdArb, .cmdC7, .pwrStatus, .pwrSupply, .pwrPolicy, .pwrCommit, .pwrBudget, .pwrDomCur, .pwrVmin],
  [.pwrVminStamp, .pwrDomCtl, .thmStatus, .hltState, .hltTriggers, .hltBoot, .hltCe, .hltFence, .hltReset, .cvuCtl, .cvuPoly, .cvuRun],
  [.cvuXorout, .cvuExpect, .cvuLimit, .cvuResult, .cvuStatus, .cvuCommit, .trsStatus, .trsRelease, .trsFpr, .trsMeas, .mgtStatus, .mgtLog],
  [.mgtId]]

/-- A named field of a register: bits [hi:lo]. -/
structure Fld where
  reg : RegName
  hi : Nat
  lo : Nat
  deriving DecidableEq, Repr

/-- CLU_ID.tower -/
def cluIdTower : Fld := ⟨.cluId, 23, 22⟩
/-- CLU_ID.spare -/
def cluIdSpare : Fld := ⟨.cluId, 21, 21⟩
/-- CLU_ID.half -/
def cluIdHalf : Fld := ⟨.cluId, 20, 20⟩
/-- CLU_ID.column -/
def cluIdColumn : Fld := ⟨.cluId, 19, 15⟩
/-- CLU_ID.row -/
def cluIdRow : Fld := ⟨.cluId, 14, 12⟩
/-- CLU_ID.logical -/
def cluIdLogical : Fld := ⟨.cluId, 6, 0⟩
/-- HLT_CLK_STATUS.holdover_seen -/
def hltClkStatusHoldoverSeen : Fld := ⟨.hltClkStatus, 3, 3⟩
/-- HLT_CLK_STATUS.holdover -/
def hltClkStatusHoldover : Fld := ⟨.hltClkStatus, 2, 2⟩
/-- HLT_CLK_STATUS.ref_present -/
def hltClkStatusRefPresent : Fld := ⟨.hltClkStatus, 1, 1⟩
/-- HLT_CLK_STATUS.pll_lock -/
def hltClkStatusPllLock : Fld := ⟨.hltClkStatus, 0, 0⟩
/-- HLT_STAMP.stamp -/
def hltStampStamp : Fld := ⟨.hltStamp, 63, 0⟩
/-- HLT_STAMP_SYNC.synced -/
def hltStampSyncSynced : Fld := ⟨.hltStampSync, 31, 31⟩
/-- HLT_STAMP_SYNC.root -/
def hltStampSyncRoot : Fld := ⟨.hltStampSync, 30, 30⟩
/-- HLT_STAMP_SYNC.parent_port -/
def hltStampSyncParentPort : Fld := ⟨.hltStampSync, 20, 16⟩
/-- HLT_STAMP_SYNC.offset_ns -/
def hltStampSyncOffsetNs : Fld := ⟨.hltStampSync, 15, 0⟩
/-- ARR_STATUS.duty -/
def arrStatusDuty : Fld := ⟨.arrStatus, 24, 20⟩
/-- ARR_STATUS.jobs -/
def arrStatusJobs : Fld := ⟨.arrStatus, 19, 14⟩
/-- ARR_STATUS.bins_log2 -/
def arrStatusBinsLog2 : Fld := ⟨.arrStatus, 13, 11⟩
/-- ARR_STATUS.shape -/
def arrStatusShape : Fld := ⟨.arrStatus, 10, 9⟩
/-- ARR_STATUS.state -/
def arrStatusState : Fld := ⟨.arrStatus, 8, 6⟩
/-- ARR_POWER.ramp_min -/
def arrPowerRampMin : Fld := ⟨.arrPower, 63, 48⟩
/-- ARR_POWER.ramp_cycles -/
def arrPowerRampCycles : Fld := ⟨.arrPower, 31, 16⟩
/-- ARR_POWER.filler_window -/
def arrPowerFillerWindow : Fld := ⟨.arrPower, 10, 0⟩
/-- ARR_COMMIT.pending -/
def arrCommitPending : Fld := ⟨.arrCommit, 1, 1⟩
/-- ARR_COMMIT.commit -/
def arrCommitCommit : Fld := ⟨.arrCommit, 0, 0⟩
/-- ARR_LFSR_SEED.seed -/
def arrLfsrSeedSeed : Fld := ⟨.arrLfsrSeed, 31, 0⟩
/-- ARR_FREEZE_CAUSE.bank_busy -/
def arrFreezeCauseBankBusy : Fld := ⟨.arrFreezeCause, 4, 4⟩
/-- ARR_FREEZE_CAUSE.drain_full -/
def arrFreezeCauseDrainFull : Fld := ⟨.arrFreezeCause, 3, 3⟩
/-- ARR_FREEZE_CAUSE.cin_empty -/
def arrFreezeCauseCinEmpty : Fld := ⟨.arrFreezeCause, 2, 2⟩
/-- ARR_FREEZE_CAUSE.b_empty -/
def arrFreezeCauseBEmpty : Fld := ⟨.arrFreezeCause, 1, 1⟩
/-- ARR_FREEZE_CAUSE.a_empty -/
def arrFreezeCauseAEmpty : Fld := ⟨.arrFreezeCause, 0, 0⟩
/-- ARR_FREEZE_CNT.count -/
def arrFreezeCntCount : Fld := ⟨.arrFreezeCnt, 63, 0⟩
/-- ARR_FILLER_CNT.count -/
def arrFillerCntCount : Fld := ⟨.arrFillerCnt, 63, 0⟩
/-- ARR_MAC_CNT.count -/
def arrMacCntCount : Fld := ⟨.arrMacCnt, 63, 0⟩
/-- ARR_ERR.valid -/
def arrErrValid : Fld := ⟨.arrErr, 63, 63⟩
/-- ARR_ERR.cause -/
def arrErrCause : Fld := ⟨.arrErr, 62, 60⟩
/-- ARR_ERR.descriptor -/
def arrErrDescriptor : Fld := ⟨.arrErr, 19, 0⟩
/-- HLT_PG_SUMMARY.escalated -/
def hltPgSummaryEscalated : Fld := ⟨.hltPgSummary, 60, 48⟩
/-- HLT_PG_SUMMARY.pending -/
def hltPgSummaryPending : Fld := ⟨.hltPgSummary, 44, 32⟩
/-- HLT_PG_SUMMARY.overflow_tags -/
def hltPgSummaryOverflowTags : Fld := ⟨.hltPgSummary, 28, 16⟩
/-- HLT_PG_SUMMARY.epoch_change -/
def hltPgSummaryEpochChange : Fld := ⟨.hltPgSummary, 1, 1⟩
/-- HLT_PG_SUMMARY.overflow_event -/
def hltPgSummaryOverflowEvent : Fld := ⟨.hltPgSummary, 0, 0⟩
/-- HLT_PG_EPOCH.epoch -/
def hltPgEpochEpoch : Fld := ⟨.hltPgEpoch, 31, 0⟩
/-- TE_STATUS.resident -/
def teStatusResident : Fld := ⟨.teStatus, 20, 16⟩
/-- TE_STATUS.slots -/
def teStatusSlots : Fld := ⟨.teStatus, 15, 0⟩
/-- TE_FAULT.valid -/
def teFaultValid : Fld := ⟨.teFault, 63, 63⟩
/-- TE_FAULT.more -/
def teFaultMore : Fld := ⟨.teFault, 62, 62⟩
/-- TE_FAULT.code -/
def teFaultCode : Fld := ⟨.teFault, 61, 54⟩
/-- TE_FAULT.slot -/
def teFaultSlot : Fld := ⟨.teFault, 53, 50⟩
/-- TE_FAULT.lane -/
def teFaultLane : Fld := ⟨.teFault, 49, 44⟩
/-- TE_FAULT.pc -/
def teFaultPc : Fld := ⟨.teFault, 31, 0⟩
/-- TE_FAULT_ADDR.address -/
def teFaultAddrAddress : Fld := ⟨.teFaultAddr, 63, 0⟩
/-- TE_ISSUE_CNT.count -/
def teIssueCntCount : Fld := ⟨.teIssueCnt, 63, 0⟩
/-- TE_BANK_STALL.count -/
def teBankStallCount : Fld := ⟨.teBankStall, 63, 0⟩
/-- TE_LAUNCH.spill_depth -/
def teLaunchSpillDepth : Fld := ⟨.teLaunch, 47, 40⟩
/-- TE_LAUNCH.spill_base -/
def teLaunchSpillBase : Fld := ⟨.teLaunch, 39, 26⟩
/-- TE_LAUNCH.cache_size -/
def teLaunchCacheSize : Fld := ⟨.teLaunch, 25, 23⟩
/-- TE_LAUNCH.team -/
def teLaunchTeam : Fld := ⟨.teLaunch, 22, 16⟩
/-- TE_LAUNCH.alloc -/
def teLaunchAlloc : Fld := ⟨.teLaunch, 13, 8⟩
/-- TE_TALLY_WIN.count -/
def teTallyWinCount : Fld := ⟨.teTallyWin, 15, 8⟩
/-- TE_TALLY_WIN.base -/
def teTallyWinBase : Fld := ⟨.teTallyWin, 6, 0⟩
/-- TE_BAR_TIMEOUT.timeout -/
def teBarTimeoutTimeout : Fld := ⟨.teBarTimeout, 15, 0⟩
/-- TE_BAR_STATE.busy -/
def teBarStateBusy : Fld := ⟨.teBarState, 15, 0⟩
/-- CLU_TALLY_VAL.target -/
def cluTallyValTarget : Fld := ⟨.cluTallyVal, 63, 32⟩
/-- CLU_TALLY_VAL.count -/
def cluTallyValCount : Fld := ⟨.cluTallyVal, 31, 0⟩
/-- CLU_TALLY_CTL.sat -/
def cluTallyCtlSat : Fld := ⟨.cluTallyCtl, 3, 3⟩
/-- CLU_TALLY_CTL.done -/
def cluTallyCtlDone : Fld := ⟨.cluTallyCtl, 2, 2⟩
/-- CLU_TALLY_CTL.auto -/
def cluTallyCtlAuto : Fld := ⟨.cluTallyCtl, 1, 1⟩
/-- CLU_TALLY_CTL.phase -/
def cluTallyCtlPhase : Fld := ⟨.cluTallyCtl, 0, 0⟩
/-- SFU_BANK.load_busy -/
def sfuBankLoadBusy : Fld := ⟨.sfuBank, 17, 17⟩
/-- SFU_BANK.active -/
def sfuBankActive : Fld := ⟨.sfuBank, 16, 16⟩
/-- SFU_BANK.users1 -/
def sfuBankUsers1 : Fld := ⟨.sfuBank, 15, 8⟩
/-- SFU_BANK.users0 -/
def sfuBankUsers0 : Fld := ⟨.sfuBank, 7, 0⟩
/-- SFU_TBL_ID.content_id -/
def sfuTblIdContentId : Fld := ⟨.sfuTblId, 63, 0⟩
/-- SFU_DOMAIN_CNT.count -/
def sfuDomainCntCount : Fld := ⟨.sfuDomainCnt, 63, 0⟩
/-- NRM_STATUS.busy -/
def nrmStatusBusy : Fld := ⟨.nrmStatus, 5, 5⟩
/-- NRM_STATUS.jobs -/
def nrmStatusJobs : Fld := ⟨.nrmStatus, 4, 0⟩
/-- NRM_ROW_CNT.count -/
def nrmRowCntCount : Fld := ⟨.nrmRowCnt, 63, 0⟩
/-- NRM_ERR.valid -/
def nrmErrValid : Fld := ⟨.nrmErr, 63, 63⟩
/-- NRM_ERR.cause -/
def nrmErrCause : Fld := ⟨.nrmErr, 62, 60⟩
/-- NRM_ERR.descriptor -/
def nrmErrDescriptor : Fld := ⟨.nrmErr, 19, 0⟩
/-- CEL_STATUS.in_reset -/
def celStatusInReset : Fld := ⟨.celStatus, 19, 19⟩
/-- CEL_STATUS.lap_slow -/
def celStatusLapSlow : Fld := ⟨.celStatus, 18, 18⟩
/-- CEL_STATUS.spare_high -/
def celStatusSpareHigh : Fld := ⟨.celStatus, 17, 17⟩
/-- CEL_STATUS.spare_out -/
def celStatusSpareOut : Fld := ⟨.celStatus, 16, 16⟩
/-- CEL_STATUS.repair_q -/
def celStatusRepairQ : Fld := ⟨.celStatus, 12, 8⟩
/-- CEL_SCRUB_CTL.lap_limit -/
def celScrubCtlLapLimit : Fld := ⟨.celScrubCtl, 31, 16⟩
/-- CEL_SCRUB_CTL.enable -/
def celScrubCtlEnable : Fld := ⟨.celScrubCtl, 4, 4⟩
/-- CEL_SCRUB_CTL.rate_log2 -/
def celScrubCtlRateLog2 : Fld := ⟨.celScrubCtl, 3, 0⟩
/-- CEL_SCRUB_LAP.laps -/
def celScrubLapLaps : Fld := ⟨.celScrubLap, 63, 32⟩
/-- CEL_SCRUB_LAP.lap_time -/
def celScrubLapLapTime : Fld := ⟨.celScrubLap, 31, 0⟩
/-- CEL_ERR_CNT.uncorrectable -/
def celErrCntUncorrectable : Fld := ⟨.celErrCnt, 63, 32⟩
/-- CEL_ERR_CNT.corrected -/
def celErrCntCorrected : Fld := ⟨.celErrCnt, 31, 0⟩
/-- CEL_ERR_LOG.valid -/
def celErrLogValid : Fld := ⟨.celErrLog, 63, 63⟩
/-- CEL_ERR_LOG.source -/
def celErrLogSource : Fld := ⟨.celErrLog, 62, 61⟩
/-- CEL_ERR_LOG.bay -/
def celErrLogBay : Fld := ⟨.celErrLog, 44, 37⟩
/-- CEL_ERR_LOG.row -/
def celErrLogRow : Fld := ⟨.celErrLog, 36, 22⟩
/-- CEL_ERR_LOG.byte -/
def celErrLogByte : Fld := ⟨.celErrLog, 21, 13⟩
/-- CEL_ERR_LOG.syndrome -/
def celErrLogSyndrome : Fld := ⟨.celErrLog, 12, 8⟩
/-- CEL_SPLIT.private -/
def celSplitPrivate : Fld := ⟨.celSplit, 3, 0⟩
/-- CEL_COMMIT.pending -/
def celCommitPending : Fld := ⟨.celCommit, 1, 1⟩
/-- CEL_COMMIT.commit -/
def celCommitCommit : Fld := ⟨.celCommit, 0, 0⟩
/-- CEL_SPARE.bad -/
def celSpareBad : Fld := ⟨.celSpare, 25, 16⟩
/-- CEL_SPARE.used -/
def celSpareUsed : Fld := ⟨.celSpare, 9, 0⟩
/-- CEL_FLIPMASK.arm -/
def celFlipmaskArm : Fld := ⟨.celFlipmask, 63, 63⟩
/-- CEL_FLIPMASK.byte_b -/
def celFlipmaskByteB : Fld := ⟨.celFlipmask, 57, 49⟩
/-- CEL_FLIPMASK.pattern_b -/
def celFlipmaskPatternB : Fld := ⟨.celFlipmask, 44, 32⟩
/-- CEL_FLIPMASK.byte_a -/
def celFlipmaskByteA : Fld := ⟨.celFlipmask, 25, 17⟩
/-- CEL_FLIPMASK.pattern_a -/
def celFlipmaskPatternA : Fld := ⟨.celFlipmask, 12, 0⟩
/-- SHF_FLIPMASK.arm -/
def shfFlipmaskArm : Fld := ⟨.shfFlipmask, 63, 63⟩
/-- SHF_FLIPMASK.offset -/
def shfFlipmaskOffset : Fld := ⟨.shfFlipmask, 51, 32⟩
/-- SHF_FLIPMASK.pattern -/
def shfFlipmaskPattern : Fld := ⟨.shfFlipmask, 12, 0⟩
/-- SHF_ERR_CNT.uncorrectable -/
def shfErrCntUncorrectable : Fld := ⟨.shfErrCnt, 63, 32⟩
/-- SHF_ERR_CNT.corrected -/
def shfErrCntCorrected : Fld := ⟨.shfErrCnt, 31, 0⟩
/-- CLU_HATCH_STATUS.in_flight -/
def cluHatchStatusInFlight : Fld := ⟨.cluHatchStatus, 11, 9⟩
/-- CLU_HATCH_STATUS.jobs -/
def cluHatchStatusJobs : Fld := ⟨.cluHatchStatus, 8, 3⟩
/-- CLU_HATCH_STATUS.held -/
def cluHatchStatusHeld : Fld := ⟨.cluHatchStatus, 2, 2⟩
/-- CLU_HATCH_SPANS.put -/
def cluHatchSpansPut : Fld := ⟨.cluHatchSpans, 63, 32⟩
/-- CLU_HATCH_SPANS.fetch -/
def cluHatchSpansFetch : Fld := ⟨.cluHatchSpans, 31, 0⟩
/-- CLU_HATCH_ERR.valid -/
def cluHatchErrValid : Fld := ⟨.cluHatchErr, 63, 63⟩
/-- CLU_HATCH_ERR.cause -/
def cluHatchErrCause : Fld := ⟨.cluHatchErr, 62, 60⟩
/-- CLU_HATCH_ERR.detail -/
def cluHatchErrDetail : Fld := ⟨.cluHatchErr, 51, 20⟩
/-- CLU_HATCH_ERR.descriptor -/
def cluHatchErrDescriptor : Fld := ⟨.cluHatchErr, 19, 0⟩
/-- PAN_STATUS.granules -/
def panStatusGranules : Fld := ⟨.panStatus, 20, 16⟩
/-- PAN_STATUS.quota -/
def panStatusQuota : Fld := ⟨.panStatus, 15, 12⟩
/-- PAN_STATUS.far_ways -/
def panStatusFarWays : Fld := ⟨.panStatus, 11, 9⟩
/-- PAN_STATUS.dead_log -/
def panStatusDeadLog : Fld := ⟨.panStatus, 8, 8⟩
/-- PAN_STATUS.pressure -/
def panStatusPressure : Fld := ⟨.panStatus, 7, 7⟩
/-- PAN_STATUS.commit_busy -/
def panStatusCommitBusy : Fld := ⟨.panStatus, 6, 6⟩
/-- PAN_STATUS.repin -/
def panStatusRepin : Fld := ⟨.panStatus, 5, 5⟩
/-- PAN_POLICY.bypass_classes -/
def panPolicyBypassClasses : Fld := ⟨.panPolicy, 63, 56⟩
/-- PAN_POLICY.dead_log -/
def panPolicyDeadLog : Fld := ⟨.panPolicy, 55, 55⟩
/-- PAN_POLICY.pressure_windows -/
def panPolicyPressureWindows : Fld := ⟨.panPolicy, 54, 48⟩
/-- PAN_POLICY.pressure_ceiling -/
def panPolicyPressureCeiling : Fld := ⟨.panPolicy, 47, 38⟩
/-- PAN_POLICY.pressure_window_us -/
def panPolicyPressureWindowUs : Fld := ⟨.panPolicy, 37, 21⟩
/-- PAN_POLICY.pressure_action -/
def panPolicyPressureAction : Fld := ⟨.panPolicy, 20, 20⟩
/-- PAN_POLICY.larder_quota -/
def panPolicyLarderQuota : Fld := ⟨.panPolicy, 19, 16⟩
/-- PAN_POLICY.far_ways -/
def panPolicyFarWays : Fld := ⟨.panPolicy, 15, 13⟩
/-- PAN_COMMIT.pending -/
def panCommitPending : Fld := ⟨.panCommit, 1, 1⟩
/-- PAN_COMMIT.commit -/
def panCommitCommit : Fld := ⟨.panCommit, 0, 0⟩
/-- PAN_LARDER.records -/
def panLarderRecords : Fld := ⟨.panLarder, 52, 42⟩
/-- PAN_LARDER.lines -/
def panLarderLines : Fld := ⟨.panLarder, 41, 0⟩
/-- PAN_PRESSURE.demotions -/
def panPressureDemotions : Fld := ⟨.panPressure, 63, 48⟩
/-- PAN_PRESSURE.events -/
def panPressureEvents : Fld := ⟨.panPressure, 47, 32⟩
/-- PAN_PRESSURE.last_rate -/
def panPressureLastRate : Fld := ⟨.panPressure, 9, 0⟩
/-- PAN_ERR.valid -/
def panErrValid : Fld := ⟨.panErr, 63, 63⟩
/-- PAN_ERR.cause -/
def panErrCause : Fld := ⟨.panErr, 62, 61⟩
/-- PAN_ERR.address -/
def panErrAddress : Fld := ⟨.panErr, 40, 0⟩
/-- PAN_DEAD_CTL.lost -/
def panDeadCtlLost : Fld := ⟨.panDeadCtl, 31, 16⟩
/-- PAN_DEAD_CTL.unread -/
def panDeadCtlUnread : Fld := ⟨.panDeadCtl, 6, 0⟩
/-- PAN_DEAD_LOG.valid -/
def panDeadLogValid : Fld := ⟨.panDeadLog, 63, 63⟩
/-- PAN_DEAD_LOG.requester -/
def panDeadLogRequester : Fld := ⟨.panDeadLog, 59, 50⟩
/-- PAN_DEAD_LOG.line -/
def panDeadLogLine : Fld := ⟨.panDeadLog, 40, 0⟩
/-- PAN_DEAD_STAMP.stamp -/
def panDeadStampStamp : Fld := ⟨.panDeadStamp, 63, 0⟩
/-- PAN_HCNT.count -/
def panHcntCount : Fld := ⟨.panHcnt, 63, 0⟩
/-- CLU_GLOBAL_ERR.valid -/
def cluGlobalErrValid : Fld := ⟨.cluGlobalErr, 63, 63⟩
/-- CLU_GLOBAL_ERR.cause -/
def cluGlobalErrCause : Fld := ⟨.cluGlobalErr, 62, 60⟩
/-- CLU_GLOBAL_ERR.te -/
def cluGlobalErrTe : Fld := ⟨.cluGlobalErr, 59, 56⟩
/-- CLU_GLOBAL_ERR.address -/
def cluGlobalErrAddress : Fld := ⟨.cluGlobalErr, 55, 0⟩
/-- HBM_REG_BUDGET.budget_7 -/
def hbmRegBudgetBudget7 : Fld := ⟨.hbmRegBudget, 63, 56⟩
/-- HBM_REG_BUDGET.budget_6 -/
def hbmRegBudgetBudget6 : Fld := ⟨.hbmRegBudget, 55, 48⟩
/-- HBM_REG_BUDGET.budget_5 -/
def hbmRegBudgetBudget5 : Fld := ⟨.hbmRegBudget, 47, 40⟩
/-- HBM_REG_BUDGET.budget_4 -/
def hbmRegBudgetBudget4 : Fld := ⟨.hbmRegBudget, 39, 32⟩
/-- HBM_REG_BUDGET.budget_3 -/
def hbmRegBudgetBudget3 : Fld := ⟨.hbmRegBudget, 31, 24⟩
/-- HBM_REG_BUDGET.budget_2 -/
def hbmRegBudgetBudget2 : Fld := ⟨.hbmRegBudget, 23, 16⟩
/-- HBM_REG_BUDGET.budget_1 -/
def hbmRegBudgetBudget1 : Fld := ⟨.hbmRegBudget, 15, 8⟩
/-- HBM_REG_BUDGET.budget_0 -/
def hbmRegBudgetBudget0 : Fld := ⟨.hbmRegBudget, 7, 0⟩
/-- HBM_REG_CTL.patrol_log2 -/
def hbmRegCtlPatrolLog2 : Fld := ⟨.hbmRegCtl, 31, 28⟩
/-- HBM_REG_CTL.horizon -/
def hbmRegCtlHorizon : Fld := ⟨.hbmRegCtl, 27, 16⟩
/-- HBM_REG_CTL.lap_limit_s -/
def hbmRegCtlLapLimitS : Fld := ⟨.hbmRegCtl, 15, 0⟩
/-- HBM_COMMIT.pending -/
def hbmCommitPending : Fld := ⟨.hbmCommit, 1, 1⟩
/-- HBM_COMMIT.commit -/
def hbmCommitCommit : Fld := ⟨.hbmCommit, 0, 0⟩
/-- HBM_STATUS.temp -/
def hbmStatusTemp : Fld := ⟨.hbmStatus, 31, 24⟩
/-- HBM_STATUS.hot -/
def hbmStatusHot : Fld := ⟨.hbmStatus, 23, 23⟩
/-- HBM_STATUS.patrol_slow -/
def hbmStatusPatrolSlow : Fld := ⟨.hbmStatus, 22, 22⟩
/-- HBM_STATUS.self_refresh -/
def hbmStatusSelfRefresh : Fld := ⟨.hbmStatus, 21, 21⟩
/-- HBM_STATUS.failed -/
def hbmStatusFailed : Fld := ⟨.hbmStatus, 20, 15⟩
/-- HBM_STATUS.trained -/
def hbmStatusTrained : Fld := ⟨.hbmStatus, 0, 0⟩
/-- HBM_CHAN_FAIL.channels -/
def hbmChanFailChannels : Fld := ⟨.hbmChanFail, 31, 0⟩
/-- HBM_ERR_CNT.ondie -/
def hbmErrCntOndie : Fld := ⟨.hbmErrCnt, 63, 48⟩
/-- HBM_ERR_CNT.dropped -/
def hbmErrCntDropped : Fld := ⟨.hbmErrCnt, 47, 40⟩
/-- HBM_ERR_CNT.uncorrectable -/
def hbmErrCntUncorrectable : Fld := ⟨.hbmErrCnt, 39, 24⟩
/-- HBM_ERR_CNT.corrected -/
def hbmErrCntCorrected : Fld := ⟨.hbmErrCnt, 23, 0⟩
/-- HBM_ERR_LOG.valid -/
def hbmErrLogValid : Fld := ⟨.hbmErrLog, 63, 63⟩
/-- HBM_ERR_LOG.source -/
def hbmErrLogSource : Fld := ⟨.hbmErrLog, 62, 61⟩
/-- HBM_ERR_LOG.pchan -/
def hbmErrLogPchan : Fld := ⟨.hbmErrLog, 60, 55⟩
/-- HBM_ERR_LOG.granule -/
def hbmErrLogGranule : Fld := ⟨.hbmErrLog, 54, 33⟩
/-- HBM_ERR_LOG.unit -/
def hbmErrLogUnit : Fld := ⟨.hbmErrLog, 32, 30⟩
/-- HBM_ERR_LOG.syndrome -/
def hbmErrLogSyndrome : Fld := ⟨.hbmErrLog, 29, 21⟩
/-- HBM_ERR_LOG.parity -/
def hbmErrLogParity : Fld := ⟨.hbmErrLog, 20, 20⟩
/-- HBM_RMW_CNT.count -/
def hbmRmwCntCount : Fld := ⟨.hbmRmwCnt, 63, 0⟩
/-- HBM_PATROL_LAP.laps -/
def hbmPatrolLapLaps : Fld := ⟨.hbmPatrolLap, 63, 32⟩
/-- HBM_PATROL_LAP.lap_ms -/
def hbmPatrolLapLapMs : Fld := ⟨.hbmPatrolLap, 31, 0⟩
/-- HBM_DL_MISS.urgent -/
def hbmDlMissUrgent : Fld := ⟨.hbmDlMiss, 63, 32⟩
/-- HBM_DL_MISS.late -/
def hbmDlMissLate : Fld := ⟨.hbmDlMiss, 31, 0⟩
/-- HBM_CLS_CNT.demoted -/
def hbmClsCntDemoted : Fld := ⟨.hbmClsCnt, 63, 48⟩
/-- HBM_CLS_CNT.bytes -/
def hbmClsCntBytes : Fld := ⟨.hbmClsCnt, 47, 0⟩
/-- PAN_CLS_CNT.demoted -/
def panClsCntDemoted : Fld := ⟨.panClsCnt, 63, 48⟩
/-- PAN_CLS_CNT.bytes -/
def panClsCntBytes : Fld := ⟨.panClsCnt, 47, 0⟩
/-- LNK_PORT_STATUS.ber_exp -/
def lnkPortStatusBerExp : Fld := ⟨.lnkPortStatus, 31, 24⟩
/-- LNK_PORT_STATUS.bad_lanes -/
def lnkPortStatusBadLanes : Fld := ⟨.lnkPortStatus, 23, 16⟩
/-- LNK_PORT_STATUS.retrains -/
def lnkPortStatusRetrains : Fld := ⟨.lnkPortStatus, 13, 10⟩
/-- LNK_PORT_STATUS.credit_wait -/
def lnkPortStatusCreditWait : Fld := ⟨.lnkPortStatus, 9, 6⟩
/-- LNK_PORT_STATUS.event -/
def lnkPortStatusEvent : Fld := ⟨.lnkPortStatus, 5, 5⟩
/-- LNK_PORT_STATUS.half -/
def lnkPortStatusHalf : Fld := ⟨.lnkPortStatus, 4, 4⟩
/-- LNK_PORT_STATUS.state -/
def lnkPortStatusState : Fld := ⟨.lnkPortStatus, 2, 0⟩
/-- LNK_ERR_CNT.dropped -/
def lnkErrCntDropped : Fld := ⟨.lnkErrCnt, 63, 48⟩
/-- LNK_ERR_CNT.fec_uncorr -/
def lnkErrCntFecUncorr : Fld := ⟨.lnkErrCnt, 47, 32⟩
/-- LNK_ERR_CNT.replays -/
def lnkErrCntReplays : Fld := ⟨.lnkErrCnt, 31, 16⟩
/-- LNK_ERR_CNT.bad_flits -/
def lnkErrCntBadFlits : Fld := ⟨.lnkErrCnt, 15, 0⟩
/-- LNK_CFG.assigned -/
def lnkCfgAssigned : Fld := ⟨.lnkCfg, 63, 63⟩
/-- LNK_CFG.module_id -/
def lnkCfgModuleId : Fld := ⟨.lnkCfg, 59, 48⟩
/-- LNK_CFG.retrain_limit -/
def lnkCfgRetrainLimit : Fld := ⟨.lnkCfg, 39, 36⟩
/-- LNK_CFG.req_timeout_ms -/
def lnkCfgReqTimeoutMs : Fld := ⟨.lnkCfg, 31, 18⟩
/-- LNK_CFG.stamp_root -/
def lnkCfgStampRoot : Fld := ⟨.lnkCfg, 17, 17⟩
/-- LNK_CFG.port_enable -/
def lnkCfgPortEnable : Fld := ⟨.lnkCfg, 7, 0⟩
/-- LNK_COMMIT.pending -/
def lnkCommitPending : Fld := ⟨.lnkCommit, 1, 1⟩
/-- LNK_COMMIT.commit -/
def lnkCommitCommit : Fld := ⟨.lnkCommit, 0, 0⟩
/-- LNK_HOST_BRIDGE.none -/
def lnkHostBridgeNone : Fld := ⟨.lnkHostBridge, 31, 31⟩
/-- LNK_HOST_BRIDGE.module -/
def lnkHostBridgeModule : Fld := ⟨.lnkHostBridge, 11, 0⟩
/-- LNK_ROUTE.valid -/
def lnkRouteValid : Fld := ⟨.lnkRoute, 31, 31⟩
/-- LNK_ROUTE.n_m1 -/
def lnkRouteNM1 : Fld := ⟨.lnkRoute, 25, 24⟩
/-- LNK_ROUTE.port3 -/
def lnkRoutePort3 : Fld := ⟨.lnkRoute, 23, 18⟩
/-- LNK_ROUTE.port2 -/
def lnkRoutePort2 : Fld := ⟨.lnkRoute, 17, 12⟩
/-- LNK_ROUTE.port1 -/
def lnkRoutePort1 : Fld := ⟨.lnkRoute, 11, 6⟩
/-- LNK_ROUTE.port0 -/
def lnkRoutePort0 : Fld := ⟨.lnkRoute, 5, 0⟩
/-- BRG_STATUS.aperture -/
def brgStatusAperture : Fld := ⟨.brgStatus, 31, 22⟩
/-- BRG_STATUS.dropped_db -/
def brgStatusDroppedDb : Fld := ⟨.brgStatus, 11, 11⟩
/-- BRG_STATUS.width -/
def brgStatusWidth : Fld := ⟨.brgStatus, 10, 8⟩
/-- BRG_STATUS.rate -/
def brgStatusRate : Fld := ⟨.brgStatus, 7, 5⟩
/-- BRG_STATUS.pair -/
def brgStatusPair : Fld := ⟨.brgStatus, 4, 4⟩
/-- BRG_STATUS.perst -/
def brgStatusPerst : Fld := ⟨.brgStatus, 3, 3⟩
/-- BRG_STATUS.link_up -/
def brgStatusLinkUp : Fld := ⟨.brgStatus, 0, 0⟩
/-- BRG_DIR.valid -/
def brgDirValid : Fld := ⟨.brgDir, 63, 63⟩
/-- BRG_DIR.module -/
def brgDirModule : Fld := ⟨.brgDir, 59, 48⟩
/-- BRG_DIR.base -/
def brgDirBase : Fld := ⟨.brgDir, 47, 26⟩
/-- CMD_QRING.ring -/
def cmdQringRing : Fld := ⟨.cmdQring, 63, 6⟩
/-- CMD_QCRING.cring -/
def cmdQcringCring : Fld := ⟨.cmdQcring, 63, 5⟩
/-- CMD_QCFG.enable -/
def cmdQcfgEnable : Fld := ⟨.cmdQcfg, 31, 31⟩
/-- CMD_QCFG.inject -/
def cmdQcfgInject : Fld := ⟨.cmdQcfg, 30, 30⟩
/-- CMD_QCFG.master -/
def cmdQcfgMaster : Fld := ⟨.cmdQcfg, 29, 28⟩
/-- CMD_QCFG.class -/
def cmdQcfgClass : Fld := ⟨.cmdQcfg, 27, 25⟩
/-- CMD_QCFG.csize_log2 -/
def cmdQcfgCsizeLog2 : Fld := ⟨.cmdQcfg, 24, 20⟩
/-- CMD_QCFG.size_log2 -/
def cmdQcfgSizeLog2 : Fld := ⟨.cmdQcfg, 19, 15⟩
/-- CMD_QCFG.msix -/
def cmdQcfgMsix : Fld := ⟨.cmdQcfg, 10, 0⟩
/-- CMD_QPTR.head -/
def cmdQptrHead : Fld := ⟨.cmdQptr, 63, 32⟩
/-- CMD_QPTR.tail -/
def cmdQptrTail : Fld := ⟨.cmdQptr, 31, 0⟩
/-- CMD_QDB.tail -/
def cmdQdbTail : Fld := ⟨.cmdQdb, 31, 0⟩
/-- CMD_QCPTR.ctail -/
def cmdQcptrCtail : Fld := ⟨.cmdQcptr, 63, 32⟩
/-- CMD_QCPTR.chead -/
def cmdQcptrChead : Fld := ⟨.cmdQcptr, 31, 0⟩
/-- CMD_QCTX.ctx -/
def cmdQctxCtx : Fld := ⟨.cmdQctx, 63, 6⟩
/-- CMD_QSTAT.bad_db -/
def cmdQstatBadDb : Fld := ⟨.cmdQstat, 31, 24⟩
/-- CMD_QSTAT.lost_interim -/
def cmdQstatLostInterim : Fld := ⟨.cmdQstat, 23, 16⟩
/-- CMD_QSTAT.cring_full -/
def cmdQstatCringFull : Fld := ⟨.cmdQstat, 15, 15⟩
/-- CMD_QSTAT.held_class7 -/
def cmdQstatHeldClass7 : Fld := ⟨.cmdQstat, 14, 14⟩
/-- CMD_QSTAT.running -/
def cmdQstatRunning : Fld := ⟨.cmdQstat, 7, 0⟩
/-- CMD_DISPATCH.defer_limit_us -/
def cmdDispatchDeferLimitUs : Fld := ⟨.cmdDispatch, 43, 27⟩
/-- CMD_DISPATCH.grant_bound_us -/
def cmdDispatchGrantBoundUs : Fld := ⟨.cmdDispatch, 26, 17⟩
/-- CMD_DISPATCH.class7_queue_limit -/
def cmdDispatchClass7QueueLimit : Fld := ⟨.cmdDispatch, 16, 10⟩
/-- CMD_DISPATCH.slice_us -/
def cmdDispatchSliceUs : Fld := ⟨.cmdDispatch, 9, 0⟩
/-- CMD_COMMIT.pending -/
def cmdCommitPending : Fld := ⟨.cmdCommit, 1, 1⟩
/-- CMD_COMMIT.commit -/
def cmdCommitCommit : Fld := ⟨.cmdCommit, 0, 0⟩
/-- CMD_ARB.superseded -/
def cmdArbSuperseded : Fld := ⟨.cmdArb, 63, 32⟩
/-- CMD_ARB.conflicts -/
def cmdArbConflicts : Fld := ⟨.cmdArb, 31, 0⟩
/-- CMD_C7.deferred -/
def cmdC7Deferred : Fld := ⟨.cmdC7, 31, 16⟩
/-- CMD_C7.accepted -/
def cmdC7Accepted : Fld := ⟨.cmdC7, 6, 0⟩
/-- PWR_STATUS.effective_w -/
def pwrStatusEffectiveW : Fld := ⟨.pwrStatus, 63, 48⟩
/-- PWR_STATUS.granted_w -/
def pwrStatusGrantedW : Fld := ⟨.pwrStatus, 47, 32⟩
/-- PWR_STATUS.queued -/
def pwrStatusQueued : Fld := ⟨.pwrStatus, 31, 20⟩
/-- PWR_STATUS.run_next -/
def pwrStatusRunNext : Fld := ⟨.pwrStatus, 15, 15⟩
/-- PWR_STATUS.halved -/
def pwrStatusHalved : Fld := ⟨.pwrStatus, 14, 14⟩
/-- PWR_STATUS.throttle -/
def pwrStatusThrottle : Fld := ⟨.pwrStatus, 13, 13⟩
/-- PWR_STATUS.sagged -/
def pwrStatusSagged : Fld := ⟨.pwrStatus, 12, 12⟩
/-- PWR_STATUS.guard -/
def pwrStatusGuard : Fld := ⟨.pwrStatus, 7, 7⟩
/-- PWR_STATUS.current_limit -/
def pwrStatusCurrentLimit : Fld := ⟨.pwrStatus, 6, 6⟩
/-- PWR_STATUS.phase_event -/
def pwrStatusPhaseEvent : Fld := ⟨.pwrStatus, 5, 5⟩
/-- PWR_STATUS.sag_event -/
def pwrStatusSagEvent : Fld := ⟨.pwrStatus, 4, 4⟩
/-- PWR_SUPPLY.sags -/
def pwrSupplySags : Fld := ⟨.pwrSupply, 63, 48⟩
/-- PWR_SUPPLY.vin_min_mv -/
def pwrSupplyVinMinMv : Fld := ⟨.pwrSupply, 47, 32⟩
/-- PWR_SUPPLY.iin -/
def pwrSupplyIin : Fld := ⟨.pwrSupply, 31, 16⟩
/-- PWR_SUPPLY.vin_mv -/
def pwrSupplyVinMv : Fld := ⟨.pwrSupply, 15, 0⟩
/-- PWR_POLICY.c7_reserve_w -/
def pwrPolicyC7ReserveW : Fld := ⟨.pwrPolicy, 57, 48⟩
/-- PWR_POLICY.c7_depth_ms -/
def pwrPolicyC7DepthMs : Fld := ⟨.pwrPolicy, 47, 41⟩
/-- PWR_POLICY.hbm_grant_kib -/
def pwrPolicyHbmGrantKib : Fld := ⟨.pwrPolicy, 40, 24⟩
/-- PWR_POLICY.max_ramp -/
def pwrPolicyMaxRamp : Fld := ⟨.pwrPolicy, 23, 16⟩
/-- PWR_POLICY.wake_wave -/
def pwrPolicyWakeWave : Fld := ⟨.pwrPolicy, 15, 11⟩
/-- PWR_POLICY.throttle_margin_c -/
def pwrPolicyThrottleMarginC : Fld := ⟨.pwrPolicy, 10, 7⟩
/-- PWR_COMMIT.pending -/
def pwrCommitPending : Fld := ⟨.pwrCommit, 1, 1⟩
/-- PWR_COMMIT.commit -/
def pwrCommitCommit : Fld := ⟨.pwrCommit, 0, 0⟩
/-- PWR_BUDGET.module_w -/
def pwrBudgetModuleW : Fld := ⟨.pwrBudget, 31, 16⟩
/-- PWR_BUDGET.tower_w -/
def pwrBudgetTowerW : Fld := ⟨.pwrBudget, 15, 0⟩
/-- PWR_DOM_CUR.peak -/
def pwrDomCurPeak : Fld := ⟨.pwrDomCur, 63, 48⟩
/-- PWR_DOM_CUR.avg -/
def pwrDomCurAvg : Fld := ⟨.pwrDomCur, 47, 32⟩
/-- PWR_DOM_CUR.window -/
def pwrDomCurWindow : Fld := ⟨.pwrDomCur, 31, 0⟩
/-- PWR_VMIN.vmin_mv -/
def pwrVminVminMv : Fld := ⟨.pwrVmin, 15, 0⟩
/-- PWR_VMIN_STAMP.stamp -/
def pwrVminStampStamp : Fld := ⟨.pwrVminStamp, 63, 0⟩
/-- PWR_DOM_CTL.state -/
def pwrDomCtlState : Fld := ⟨.pwrDomCtl, 31, 29⟩
/-- PWR_DOM_CTL.phases -/
def pwrDomCtlPhases : Fld := ⟨.pwrDomCtl, 28, 25⟩
/-- PWR_DOM_CTL.lost -/
def pwrDomCtlLost : Fld := ⟨.pwrDomCtl, 24, 21⟩
/-- PWR_DOM_CTL.cap -/
def pwrDomCtlCap : Fld := ⟨.pwrDomCtl, 15, 0⟩
/-- THM_STATUS.hbm -/
def thmStatusHbm : Fld := ⟨.thmStatus, 63, 56⟩
/-- THM_STATUS.lower -/
def thmStatusLower : Fld := ⟨.thmStatus, 55, 48⟩
/-- THM_STATUS.upper_used -/
def thmStatusUpperUsed : Fld := ⟨.thmStatus, 47, 40⟩
/-- THM_STATUS.attic -/
def thmStatusAttic : Fld := ⟨.thmStatus, 39, 32⟩
/-- THM_STATUS.upper_est -/
def thmStatusUpperEst : Fld := ⟨.thmStatus, 31, 24⟩
/-- THM_STATUS.upper_read -/
def thmStatusUpperRead : Fld := ⟨.thmStatus, 23, 16⟩
/-- THM_STATUS.suspect -/
def thmStatusSuspect : Fld := ⟨.thmStatus, 7, 7⟩
/-- THM_STATUS.halved -/
def thmStatusHalved : Fld := ⟨.thmStatus, 6, 6⟩
/-- THM_STATUS.throttle -/
def thmStatusThrottle : Fld := ⟨.thmStatus, 5, 5⟩
/-- THM_STATUS.hot_event -/
def thmStatusHotEvent : Fld := ⟨.thmStatus, 4, 4⟩
/-- HLT_STATE.fenced -/
def hltStateFenced : Fld := ⟨.hltState, 27, 24⟩
/-- HLT_STATE.lead -/
def hltStateLead : Fld := ⟨.hltState, 23, 22⟩
/-- HLT_STATE.phase -/
def hltStatePhase : Fld := ⟨.hltState, 19, 16⟩
/-- HLT_STATE.ready -/
def hltStateReady : Fld := ⟨.hltState, 8, 8⟩
/-- HLT_STATE.test -/
def hltStateTest : Fld := ⟨.hltState, 7, 6⟩
/-- HLT_STATE.fw_source -/
def hltStateFwSource : Fld := ⟨.hltState, 5, 4⟩
/-- HLT_STATE.state_event -/
def hltStateStateEvent : Fld := ⟨.hltState, 3, 3⟩
/-- HLT_STATE.health -/
def hltStateHealth : Fld := ⟨.hltState, 1, 0⟩
/-- HLT_TRIGGERS.trig_event -/
def hltTriggersTrigEvent : Fld := ⟨.hltTriggers, 31, 31⟩
/-- HLT_TRIGGERS.triggers -/
def hltTriggersTriggers : Fld := ⟨.hltTriggers, 13, 0⟩
/-- HLT_BOOT.boot_count -/
def hltBootBootCount : Fld := ⟨.hltBoot, 63, 32⟩
/-- HLT_BOOT.boot_ms -/
def hltBootBootMs : Fld := ⟨.hltBoot, 31, 0⟩
/-- HLT_CE.over -/
def hltCeOver : Fld := ⟨.hltCe, 63, 56⟩
/-- HLT_CE.last_hour -/
def hltCeLastHour : Fld := ⟨.hltCe, 31, 0⟩
/-- HLT_FENCE.fenced_db -/
def hltFenceFencedDb : Fld := ⟨.hltFence, 63, 48⟩
/-- HLT_FENCE.cause -/
def hltFenceCause : Fld := ⟨.hltFence, 15, 0⟩
/-- HLT_RESET.tower -/
def hltResetTower : Fld := ⟨.hltReset, 19, 16⟩
/-- HLT_RESET.attic -/
def hltResetAttic : Fld := ⟨.hltReset, 15, 12⟩
/-- HLT_RESET.cellar_u -/
def hltResetCellarU : Fld := ⟨.hltReset, 11, 8⟩
/-- HLT_RESET.cellar_l -/
def hltResetCellarL : Fld := ⟨.hltReset, 7, 4⟩
/-- CVU_CTL.sig_cluster -/
def cvuCtlSigCluster : Fld := ⟨.cvuCtl, 63, 57⟩
/-- CVU_CTL.tally -/
def cvuCtlTally : Fld := ⟨.cvuCtl, 56, 50⟩
/-- CVU_CTL.signal -/
def cvuCtlSignal : Fld := ⟨.cvuCtl, 49, 49⟩
/-- CVU_CTL.check -/
def cvuCtlCheck : Fld := ⟨.cvuCtl, 48, 48⟩
/-- CVU_CTL.compat -/
def cvuCtlCompat : Fld := ⟨.cvuCtl, 47, 47⟩
/-- CVU_CTL.compat_code -/
def cvuCtlCompatCode : Fld := ⟨.cvuCtl, 46, 45⟩
/-- CVU_CTL.refout -/
def cvuCtlRefout : Fld := ⟨.cvuCtl, 44, 44⟩
/-- CVU_CTL.refin -/
def cvuCtlRefin : Fld := ⟨.cvuCtl, 43, 43⟩
/-- CVU_CTL.width -/
def cvuCtlWidth : Fld := ⟨.cvuCtl, 42, 36⟩
/-- CVU_CTL.kind -/
def cvuCtlKind : Fld := ⟨.cvuCtl, 31, 30⟩
/-- CVU_CTL.vc -/
def cvuCtlVc : Fld := ⟨.cvuCtl, 29, 27⟩
/-- CVU_CTL.filter -/
def cvuCtlFilter : Fld := ⟨.cvuCtl, 26, 26⟩
/-- CVU_CTL.module -/
def cvuCtlModule : Fld := ⟨.cvuCtl, 25, 14⟩
/-- CVU_CTL.match -/
def cvuCtlMatch : Fld := ⟨.cvuCtl, 6, 0⟩
/-- CVU_POLY.value -/
def cvuPolyValue : Fld := ⟨.cvuPoly, 63, 0⟩
/-- CVU_RUN.value -/
def cvuRunValue : Fld := ⟨.cvuRun, 63, 0⟩
/-- CVU_XOROUT.value -/
def cvuXoroutValue : Fld := ⟨.cvuXorout, 63, 0⟩
/-- CVU_EXPECT.value -/
def cvuExpectValue : Fld := ⟨.cvuExpect, 63, 0⟩
/-- CVU_LIMIT.bytes -/
def cvuLimitBytes : Fld := ⟨.cvuLimit, 63, 0⟩
/-- CVU_RESULT.result -/
def cvuResultResult : Fld := ⟨.cvuResult, 63, 0⟩
/-- CVU_STATUS.mismatch -/
def cvuStatusMismatch : Fld := ⟨.cvuStatus, 63, 63⟩
/-- CVU_STATUS.done -/
def cvuStatusDone : Fld := ⟨.cvuStatus, 62, 62⟩
/-- CVU_STATUS.poisoned -/
def cvuStatusPoisoned : Fld := ⟨.cvuStatus, 61, 61⟩
/-- CVU_STATUS.closes -/
def cvuStatusCloses : Fld := ⟨.cvuStatus, 55, 40⟩
/-- CVU_STATUS.bytes -/
def cvuStatusBytes : Fld := ⟨.cvuStatus, 39, 0⟩
/-- CVU_COMMIT.pending -/
def cvuCommitPending : Fld := ⟨.cvuCommit, 1, 1⟩
/-- CVU_COMMIT.commit -/
def cvuCommitCommit : Fld := ⟨.cvuCommit, 0, 0⟩
/-- TRS_STATUS.svn -/
def trsStatusSvn : Fld := ⟨.trsStatus, 63, 32⟩
/-- TRS_STATUS.identity -/
def trsStatusIdentity : Fld := ⟨.trsStatus, 15, 15⟩
/-- TRS_STATUS.puf_tower -/
def trsStatusPufTower : Fld := ⟨.trsStatus, 14, 13⟩
/-- TRS_STATUS.verified -/
def trsStatusVerified : Fld := ⟨.trsStatus, 12, 12⟩
/-- TRS_STATUS.components -/
def trsStatusComponents : Fld := ⟨.trsStatus, 4, 0⟩
/-- TRS_RELEASE.release -/
def trsReleaseRelease : Fld := ⟨.trsRelease, 63, 0⟩
/-- TRS_FPR.fingerprint -/
def trsFprFingerprint : Fld := ⟨.trsFpr, 63, 0⟩
/-- TRS_MEAS.digest -/
def trsMeasDigest : Fld := ⟨.trsMeas, 63, 0⟩
/-- MGT_STATUS.update_busy -/
def mgtStatusUpdateBusy : Fld := ⟨.mgtStatus, 31, 31⟩
/-- MGT_STATUS.ibi -/
def mgtStatusIbi : Fld := ⟨.mgtStatus, 30, 30⟩
/-- MGT_STATUS.dynamic -/
def mgtStatusDynamic : Fld := ⟨.mgtStatus, 29, 23⟩
/-- MGT_STATUS.static -/
def mgtStatusStatic : Fld := ⟨.mgtStatus, 22, 16⟩
/-- MGT_STATUS.eid -/
def mgtStatusEid : Fld := ⟨.mgtStatus, 15, 8⟩
/-- MGT_LOG.newest -/
def mgtLogNewest : Fld := ⟨.mgtLog, 63, 32⟩
/-- MGT_LOG.acked -/
def mgtLogAcked : Fld := ⟨.mgtLog, 31, 0⟩
/-- MGT_ID.enterprise -/
def mgtIdEnterprise : Fld := ⟨.mgtId, 31, 0⟩

end Sys2Proof.Machine
end

