-- ==== Sys2Proof/Machine/State.lean ====
section
/-! DEFINITION. The state of the OZ3 module as plain data: every register, store, queue, counter, mode and pin the
specification names. Each field's docstring names the rule it comes from. -/

namespace Sys2Proof.Machine

/-! ## Small kinds -/

/-- The two variants (R3, Table 00-1). -/
inductive Variant where
  | x | s
  deriving DecidableEq, Repr, Inhabited

/-- State of a power domain (PWR_DOM_CTL.state, R404-R408). -/
inductive DomState where
  | on | retention | lost | waking
  deriving DecidableEq, Repr, Inhabited

/-- State of a pantry line (R278); an unlisted way is invalid. -/
inductive LineState where
  | clean | dirty | part
  deriving DecidableEq, Repr, Inhabited

/-- Array state (ARR_STATUS.state). -/
inductive ArrMode where
  | gated | run | filler | rampDown | rampUp | reshape
  deriving DecidableEq, Repr, Inhabited

/-- What a bunch is doing (R143-R145, R146, R158, R162, R174, R177, R202). -/
inductive BunchRun where
  | empty                                   -- the slot holds no bunch
  | placed                                  -- registers not yet zeroed, not started
  | ready
  | waitPh (n : Nat) (p : Bool)
  | waitGe (n : Nat) (v : W32)
  | waitBar (n : Nat)
  | waitAccess                              -- FENCE or a load whose data are outstanding
  | faulted
  deriving DecidableEq, Repr, Inhabited

/-- Falnas port states (LNK_PORT_STATUS.state). -/
inductive PortMode where
  | disabled | training | qualifying | up | down | bridge
  deriving DecidableEq, Repr, Inhabited

/-- The health states (R435). -/
inductive Health where
  | good | degraded | replace | failed
  deriving DecidableEq, Repr, Inhabited

/-! ## Stores (chapters 8 to 10) -/

/-- A 32-byte HBM unit as stored: data, ten check bits, poison flag (R305). -/
structure HbmUnit where
  data : BitVec 256
  check : BitVec 10
  poison : Bool
  deriving DecidableEq, Repr, Inhabited

/-- A write waiting in a pseudo-channel's write queue (R315). -/
structure HbmWr where
  unit : Nat
  d : HbmData
  cls : Nat
  deriving DecidableEq, Repr, Inhabited

/-- Tag of a pantry way (R275-R282): the line's placement key, its line number (module address / 128), whether it is a far
line and of which module, its state, presence mask, pin and last-use order. -/
structure PLine where
  line : Nat
  far : Option Nat
  st : LineState
  mask : BitVec 128
  pinned : Bool
  use : Nat
  born : Nat                        -- order in which it became partial
  deriving DecidableEq, Repr, Inhabited

/-- An entry of a half's pending-fill table (R279): line, far module, class, requesters with the bytes of the line that had
been written when each arrived (R280), and whether the fill is discarded after delivery (R292). -/
structure Fill where
  line : Nat
  far : Option Nat
  cls : Nat
  reqs : List (Nat × List (Option (BitVec 9)))
  drop : Bool
  deriving DecidableEq, Repr, Inhabited

/-- One shelf-cache line (R170): line number of the global address, 128 bytes of data, bytes present, dirty bytes and
poisoned bytes. -/
structure CLine where
  line : Nat
  data : BitVec 1024
  have_ : BitVec 128
  dirty : BitVec 128
  poison : BitVec 128
  deriving DecidableEq, Repr, Inhabited

/-- The stores. Keys: HBM units by tower and unit number; cellar bytes by die, physical bay, physical row and byte; valid
bits (three copies, R241) and remap entries by die, bay and row; shelf bytes by physical cluster and offset; pantry ways by
tower, half, set and way. -/
structure Mem where
  hbm : SMap HbmUnit
  wq : SMap (List HbmWr)
  cells : SMap (BitVec 13)
  valid : SMap (BitVec 3)
  remap : SMap Nat
  shelf : SMap (BitVec 13)
  pantry : SMap (Option PLine)
  fills : SMap (List Fill)          -- by tower and half
  host : SMap Byte                  -- host memory beyond the bridge (R354)
  deriving DecidableEq, Repr, Inhabited

/-! ## Requests in flight (R279, R283, R340) -/

/-- Where an access in flight stands. -/
inductive ReqStage where
  | issued                          -- on its way to its home
  | filling                         -- merged into a pending fill (R279)
  | sent (port : Nat)               -- on a link, awaiting its reply (R340)
  | done                            -- performed at its home; its data or acknowledgement travels back
  | back                            -- returned, while other accesses of its instruction are still out
  deriving DecidableEq, Repr, Inhabited

/-- What an access does at its home. -/
inductive ReqOp where
  | load (n : Nat)
  | store (bytes : List (Option (BitVec 9)))   -- bytes under their mask, bit 8 the poison mark
  | atomic (op typ n : Nat) (operand compare : W64)
  | packet (op : Nat) (w1 : W64) (slots : List (BitVec 128))   -- TSIG, CMD, CFL, MNT: word 1 and slots of its link packet
  deriving DecidableEq, Repr, Inhabited

/-- Who issued an access and what its return does. -/
inductive ReqOwner where
  | bunch (b : Nat)                               -- bunch key
  | fill (t half line : Nat)
  | command (q id : Nat) (dst : Option W64)      -- a running command; where a read's data go
  | hatch (t c k : Nat) (dst : Option Nat)
  | link (port src agent tag : Nat)              -- a request that arrived over a link: answered there
  | host (tag : Nat)
  | writeBack (t c launch : Nat)                 -- a shelf-cache line on its way to its home (R171)
  deriving DecidableEq, Repr, Inhabited

/-- An access in flight. -/
structure Req where
  id : Nat
  addr : W64
  op : ReqOp
  cls : Nat
  owner : ReqOwner
  tower : Nat                       -- tower of the requester
  stage : ReqStage
  held : Option Nat                 -- stamp at which a reset first held it (R19, R265, R300)
  sentAt : Nat                      -- stamp at which it left on a link (R340)
  data : List (BitVec 9)            -- data returned, bit 8 the poison mark
  status : Nat                      -- Table 12-3 status of the return
  deriving DecidableEq, Repr, Inhabited

/-! ## Thread engines and clusters (chapters 3 to 8) -/

/-- A mask-stack entry (R152). -/
structure MaskEnt where
  outer : BitVec 64
  join : W32
  deriving DecidableEq, Repr, Inhabited

/-- A bunch in its slot (R143-R155). The per-thread registers are stored by lane · 256 + register. -/
structure Bunch where
  run : BunchRun
  launch : Nat
  idx : Nat                         -- bunch index in the team
  pc : W32
  m0 : BitVec 64
  live : BitVec 64
  t : SMap W32
  u : SMap W32
  m : SMap (BitVec 64)
  stack : List MaskEnt              -- held entries, newest first (R154)
  spilled : Nat                     -- entries in the spill area
  bank : Nat                        -- bound seed-table bank (R220)
  inst : Option W64                 -- the global load or atomic whose data it waits for
  deriving DecidableEq, Repr, Inhabited

/-- A tally (R156). -/
structure Tally where
  count : W32
  target : W32
  phase : Bool
  auto : Bool
  done : Bool
  sat : Bool
  deriving DecidableEq, Repr, Inhabited

/-- A team on a cluster (Table 05-1, R143). -/
structure Team where
  launch : Nat
  index : Nat                       -- u3
  team : Nat
  threads : Nat
  alloc : Nat
  cacheKib : Nat
  spillDepth : Nat
  spillBase : Nat
  tallyBase : Nat
  tallyCount : Nat
  barTimeout : Nat
  codeBase : Nat
  codeLen : Nat
  args : List W32
  retired : List Nat                -- bunch indices that have retired
  stopped : Bool                    -- stopped by a fault, deadline or reset of the launch (R175)
  deriving DecidableEq, Repr, Inhabited

/-- A job of the array's queue: the descriptor's words (Table 03-4), its shelf offset, the launch or command it belongs to,
and the escalation state it took at issue (R138). -/
structure Job where
  words : List W64
  off : Nat
  owner : Nat
  esc : Bool
  deriving DecidableEq, Repr, Inhabited

/-- A job running in a bin: chunks drained so far, whether its grant is held, sampled chunks. -/
structure RunJob where
  job : Job
  chunk : Nat
  ovf : Bool                        -- a result of it has overflowed
  deriving DecidableEq, Repr, Inhabited

/-- A bin of the array (R96, R112-R114). -/
structure Bin where
  run : Option RunJob
  mode : ArrMode
  step : Nat                        -- ramp-down step
  cls : Nat                         -- rate class of its last job
  last : Option Nat                 -- the last job's owner, for metering (R398)
  deriving DecidableEq, Repr, Inhabited

/-- The matrix array of a cluster (R94-R119). -/
structure Arr where
  shape : Nat
  binsLog2 : Nat
  duty : Nat
  queue : List Job
  bins : SMap Bin
  lanes : SMap W32                  -- the drain lanes' LFSRs (R71, R92)
  filler : SMap W32                 -- filler LFSRs (R112)
  shadowCnt : W32                   -- chunks of eligible jobs completed (R127)
  deriving DecidableEq, Repr, Inhabited

/-- A queued QCV, NRM or HXF job: descriptor words, shelf offset, launch. -/
structure EngJob where
  words : List W64
  off : Nat
  owner : Nat
  te : Nat
  deriving DecidableEq, Repr, Inhabited

/-- A hatch job in flight (R249): its job, whether its data have moved, the dies (2 · tower + die) that it moved segments to
or from, and whether one of them was reset since (R265). -/
structure HatchRun where
  job : EngJob
  moved : Bool
  dies : List Nat
  lost : Bool
  deriving DecidableEq, Repr, Inhabited

/-- A thread engine's own state beside its bunches (R190, R201, R207). -/
structure TeSt where
  alu : SMap W32
  conv : SMap W32
  qcv : List EngJob
  qcvRun : Option EngJob
  deriving DecidableEq, Repr, Inhabited

/-- A pending load of seed tables in a cluster (R219): command, tower's image words by slot. -/
structure TblLoad where
  q : Nat
  id : Nat
  image : List Byte
  deriving DecidableEq, Repr, Inhabited

/-- Statistics of one tag inside an invocation, role by role (R122-R125). -/
structure GuardAcc where
  owner : Nat                       -- the command whose invocation it belongs to
  tag : Nat
  elems : Nat
  energy : ℚ
  noise : ℚ
  clips : Nat
  sprouts : Nat
  nans : Nat
  sElems : Nat
  sEnergy : ℚ
  sNoise : ℚ
  sClips : Nat
  sSprouts : Nat
  writes : List Nat                 -- target formats of its role-0 writes, in order (R134)
  use : Nat
  deriving DecidableEq, Repr, Inhabited

/-- A suspended team in a save area (R177-R179). -/
structure Saved where
  team : Team
  bunches : SMap Bunch
  bars : SMap (List Nat)
  barAge : SMap Nat                 -- stamps each barrier timer has run
  shelfStart : Nat
  shelf : List (BitVec 13)
  deriving DecidableEq, Repr, Inhabited

/-- A check-value context beside its registers (R443-R448): what it has applied. -/
structure CvuCtx where
  run : W64
  bytes : Nat
  done : Bool
  poisoned : Bool
  newRun : Bool                     -- CVU_RUN has been written since the last commit
  deriving DecidableEq, Repr, Inhabited

/-- A cluster (by tower and logical number). -/
structure Cluster where
  absent : Bool                     -- R26
  dom : DomState
  halfSlope : Bool                  -- a wake or ramp that waited 50 µs (R397)
  limited : Bool                    -- duty held at 8/16 by a current limit (R415)
  team : Option Team
  bars : SMap (List Nat)            -- arrived bunch indices, per barrier (R162)
  barSince : SMap Nat               -- per barrier, stamp of its first arrival plus 1 (R163)
  tallies : SMap Tally
  cache : List CLine
  arr : Arr
  hatchQ : List EngJob
  hatchRun : SMap HatchRun
  nrmQ : List EngJob
  nrmRun : Option EngJob
  active : Nat                      -- active seed-table bank
  tables : SMap (Option (BitVec 192)) -- entries loaded by software, none the default: (bank·7+slot)·256+entry (R217)
  tblId : SMap (Option W64)         -- content_id of loaded tables: bank·7+slot
  loads : List TblLoad
  acc : List GuardAcc               -- the current invocation's counts, at most 4 tags (R122)
  saved : List Saved
  selfTested : Bool
  fetchAt : SMap Nat                -- per bunch slot, stamp plus 1 at which its instruction fetch was first held (R181)
  deriving DecidableEq, Repr, Inhabited

/-! ## Guard tags (chapter 4) -/

/-- Statistics and policy of one tag-table entry of a tower (Tables 04-2 and 04-3). -/
structure TagEntry where
  badRun : Nat
  reports : Nat
  lastSqnr : W32
  invocations : Nat
  q : List Nat                      -- q_elems, q_clips, q_sprouts, q_nan
  qEnergy : W64
  qError : W64
  s : List Nat                      -- s_elems, s_clips, s_sprouts
  sEnergy : W64
  sError : W64
  d : List Nat                      -- d_sprouts, d_clips, d_invalid
  oClips : Nat
  ovf : Bool
  ovfCount : Nat
  ovfStamp : W64
  ovfLast : Nat                     -- stamp of the latest overflow (R126)
  escStamp : W64
  shChunks : Nat
  shSkipped : Nat
  hist : SMap Nat
  native : Option Nat
  mismatch : Nat
  pendingEval : List GuardAcc       -- invocations folded and not yet evaluated (R133)
  deriving DecidableEq, Repr, Inhabited

/-- Policy fields of a tag entry (Table 04-2 fields 0 to 7). -/
structure GuardPolicy where
  mode : Nat
  window : Nat
  floor : Nat
  ceiling : Nat
  tau : Nat
  shadowLog2 : Nat
  shadowFmt : Nat
  shadowDelta : Int
  deriving DecidableEq, Repr, Inhabited

/-- Module-wide escalation state of a tag entry (R135, R140). -/
inductive Esc where
  | native | pending | escalated | releasePending
  deriving DecidableEq, Repr, Inhabited

/-! ## Queues and commands (chapter 12) -/

/-- Where the status reply of a packet that a CMD packet delivered goes (Table 11-4): the source module, its agent and tag. -/
structure Reply where
  src : Nat
  agent : Nat
  tag : Nat
  deriving DecidableEq, Repr, Inhabited

/-- A packet fetched and not yet started, or started: a number of its own, its words, the doorbell stamp, its class-7
acceptance, its start stamp and energy estimate, the first status that units signalled, what it waits for. -/
structure Pkt where
  id : Nat
  words : Packet
  begun : Bool                      -- its work has begun
  bell : Nat
  accepted : Bool
  start : Nat
  status : Nat
  detail : Nat
  clamp : Nat
  waits : List Nat                  -- accesses or arrivals outstanding
  reply : Option Reply              -- it came with a CMD packet
  got : List (Nat × Nat)            -- status replies of a REMOTE's embedded packets: index and status
  deriving DecidableEq, Repr, Inhabited

/-- A completion waiting to be written (Table 12-2). -/
structure Compl where
  tag : Nat
  status : Nat
  clamp : Nat
  start : Nat
  end_ : Nat
  energy : Nat
  detail : Nat
  irq : Bool
  interim : Bool
  quiet : Bool
  reply : Option Reply
  deriving DecidableEq, Repr, Inhabited

/-- A queue (R353-R357), beside its registers. -/
structure Queue where
  head : W32
  tail : W32
  ctail : W32
  chead : W32
  bells : List (Nat × Nat)          -- doorbells not yet used up: tail and stamp, oldest first (R356)
  next : Option Pkt                 -- the packet at the head, checked and not started
  running : List Pkt
  done : List Compl
  heldC7 : Bool
  deferSince : Nat                  -- when the next packet began to wait (R401)
  runNext : Bool
  remote : List (Nat × Reply)       -- ring indices of packets that CMD packets delivered (R369)
  irqs : Nat                        -- HIRQ packets that wait for earlier host writes (R352)
  deriving DecidableEq, Repr, Inhabited

/-- An order accepted and not yet applied (R375): its target, its value, queue and packet, and the dispatch tick of its
acceptance; a safety action stands in the list in the same form. -/
structure Order where
  target : List Nat
  value : Nat
  q : Nat
  pkt : Nat
  tick : Nat
  safety : Bool
  deriving DecidableEq, Repr, Inhabited

/-- A launch in progress (R143-R145, R175): queue and packet, its clusters, the first fault, the first signalled status. -/
structure Launch where
  id : Nat
  q : Nat
  pkt : Nat
  clusters : List Nat
  fault : Option (Nat × Nat)        -- stamp and detail word of Table 05-6
  status : Nat
  started : Nat
  deriving DecidableEq, Repr, Inhabited

/-! ## Towers -/

/-- A grant held (R393, R398): request and granted current. -/
structure Grant where
  req : GrantReq
  granted : Nat
  deriving DecidableEq, Repr, Inhabited

/-- A pin record (R287): range and completion order. -/
structure PinRec where
  start : Nat
  bytes : Nat
  deriving DecidableEq, Repr, Inhabited

/-- A dead read of PAN_DEAD_LOG (R298). -/
structure DeadRead where
  line : Nat
  requester : Nat
  stamp : W64
  deriving DecidableEq, Repr, Inhabited

/-- An energy estimate of a past LAUNCH (R400). -/
structure Estimate where
  codeBase : Nat
  energyMj : Nat
  durUs : Nat
  deriving DecidableEq, Repr, Inhabited

/-- A tower. -/
structure Tower where
  stamp : BitVec 64                 -- integer part of the stamp counter (R41)
  frac : BitVec 32                  -- its fraction
  rate : Int                        -- rate adjustment, in 2^-32 counts per TELE cycle
  steer : Int                       -- steering against the lead tower (R42)
  aligned : Bool
  on : Bool                         -- dies and spine powered
  fence : Nat                       -- 0 running, else the cause code of HLT_FENCE
  inTower : Bool                    -- TOWER reset in progress
  inAttic : Bool
  inCelU : Bool
  inCelL : Bool
  transitStop : Bool                -- the spine router accepts no transit (R20)
  spares : SMap Nat                 -- row to physical column it replaces; 0xFE failed spare
  hot : List Nat                    -- pending wakes, by logical cluster
  pins : List PinRec
  deadFilter : List Nat
  deadLog : List DeadRead
  pressRun : Nat                    -- consecutive windows above the ceiling (R288)
  pressure : Bool
  missUnpinned : Nat
  accUnpinned : Nat
  scrubPtr : SMap Nat               -- per die and bay
  scrubBay : List Nat               -- next bay of the two dies
  lapStart : List Nat               -- stamp at which the lap of each die began
  repairQ : SMap (List (Nat × Nat)) -- per die: rows (bay, row)
  patrolPtr : SMap Nat
  patrolStart : SMap Nat
  patrolPaused : List Nat
  clsBytes : SMap Nat               -- bytes of a class at a regulated unit in this window
  demoted : SMap Bool
  uncorrTimes : SMap (List (Nat × Nat)) -- uncorrectable units of a channel, each with the stamp of its last finding (R310)
  grants : List Grant
  grantQ : List GrantReq
  derate : Nat                      -- in 1/1024
  guardOn : Bool                    -- budget guard in force
  runNextIds : List Nat             -- run-next packets, in the order they became so (R401)
  c7Order : List Nat                -- accepted class-7 packets, in the order of acceptance (R376)
  rr : SMap Nat                     -- per class, the queue that started last plus 1 (R362)
  windowMj : ℚ                      -- energy that granted power predicted in this budget window (R390)
  reserveMj : ℚ                     -- account B (R403)
  reserveAt : Nat                   -- stamp of the last refill
  thermalMw : Option Nat            -- thermal limit in mW; none is the set budget (R411)
  halvedDies : List Nat
  suspect : Bool
  estRun : SMap Nat                 -- since when a region's estimate exceeds its reading (R414)
  temps : List Int                  -- attic, upper reading, upper estimate, lower, HBM in m°C
  regions : List (Int × Int)        -- last estimate and reading of each region
  tripSince : SMap Nat
  peakW : Nat
  drawnW : Nat
  guards : Nat
  estimates : List Estimate
  waveUsed : Nat                    -- the 40 µs period of the last wave, plus 1 (R399)
  phasesLost : SMap Nat             -- per domain
  domCap : SMap Nat                 -- DOMAIN_STATE caps per domain, 0 none (R407)
  domRet : List Nat                 -- cellar-array domains in retention (R406)
  lostPos : List Nat                -- physical positions of lost clusters (R26, R425)
  badSpares : SMap (List Nat)       -- per die and bay (136 · die + bay): spare rows found unusable (R259)
  usedSpares : SMap (List Nat)      -- and spare rows in use
  hbmRepairs : SMap Nat
  deriving DecidableEq, Repr, Inhabited

/-! ## Ports and bridge (chapter 11) -/

/-- A Falnas port (R320-R346). Credits and totals are per virtual channel. -/
structure Port where
  mode : PortMode
  half : Bool
  halfHigh : Bool                   -- half width on lanes 4-7
  badLanes : BitVec 8
  failedOnce : BitVec 8
  retrains : Nat
  nextSeq : BitVec 8
  replay : List (BitVec 8 × List Byte × Nat)   -- unacknowledged DATA flits with times sent
  resend : List (BitVec 8)          -- flits to send again after a NAK
  expect : BitVec 8
  naking : Bool
  ackOut : Option (BitVec 8)
  sent : SMap Nat                   -- slots sent per VC, modulo 16384
  returned : SMap Nat               -- slots returned by the peer per VC
  freed : SMap Nat                  -- slots this port has freed per VC (receive side)
  crSent : SMap Nat                 -- the totals of freed slots as last sent
  crNext : Nat                      -- rotation over changed credit totals
  txq : SMap (List LinkPkt)         -- packets waiting per VC
  partialTx : List (BitVec 128)     -- slots of a started packet still to send
  partialRx : List (BitVec 128)     -- slots of a packet not yet complete
  rxq : List (Nat × LinkPkt)        -- packets received and not yet taken, with their channels
  ctrlq : List (List Byte)          -- CTRL bodies waiting
  peer : Option PortInfoBody
  syncT1 : Option SyncStamp
  rrVc : Nat
  window : Nat                      -- qualification window in ms (2000 or 100)
  deriving DecidableEq, Repr, Inhabited

/-! ## Module-wide -/

/-- An event-log entry (Table 15-6). -/
structure LogEnt where
  seq : Nat
  code : Nat
  severity : Nat
  source : Nat
  stamp : W64
  detail : List W32
  deriving DecidableEq, Repr, Inhabited

/-- The tower section of an inventory record (Table 14-4), as far as it is not reserved. -/
structure InvTower where
  spareMap : List Nat
  lost : Nat
  fenced : Bool
  retiredU : Nat
  retiredL : Nat
  worstBay : Nat
  worstUsed : Nat
  hbmRepairs : List Nat
  hbmFailed : List Nat
  lanes : List Nat
  phasesLost : Nat
  ceHour : Nat
  deriving DecidableEq, Repr, Inhabited

/-- An inventory record (Table 14-3). -/
structure Inventory where
  lastHealth : Nat
  bootCount : Nat
  fingerprint : BitVec 128
  nextTest : Nat
  towers : List InvTower
  deriving DecidableEq, Repr, Inhabited

/-- A request in transit whose reply has not passed yet (R335, R336): source, agent, destination, channel, tag, port. -/
structure Transit where
  src : Nat
  agent : Nat
  dst : Nat
  vc : Nat
  tag : Nat
  port : Nat
  deriving DecidableEq, Repr, Inhabited

/-- What leaves the block: values read, MSI-X messages, PCIe completions, I3C and MCTP replies. The newest message is first. -/
inductive OutMsg where
  | msix (vector : Nat)
  | mgmt (bytes : List Byte)
  | ibi
  | bar2 (status : Nat) (bytes : List (BitVec 9))
  | regRead (rq : Nat) (v : W64)
  | completion (q : Nat) (entry : List Byte)
  | askReplacement
  | hbmRead (t unit : Nat) (bytes : List (BitVec 9))
  | flit (port : Nat) (bytes : List Byte)
  | aer
  deriving DecidableEq, Repr, Inhabited

/-- A vendor message whose packets run on the management queue: its number, and the completion entries it has to answer with,
in the packets' order (R462). -/
structure VendorMsg where
  id : Nat
  entries : List (Option (List Byte))
  deriving DecidableEq, Repr, Inhabited

/-- Module-wide state: pins, supply, bring-up, health, identity, dispatch. -/
structure Module where
  variant : Variant
  straps : Straps                   -- as sampled (R29)
  pwrEn : Bool
  pwrGood : Bool
  alertN : Bool
  thermtripN : Bool
  perstN : Bool
  railsOn : Bool
  overvolt : Bool                   -- disconnected by the input protection (R36)
  inputOk : Bool                    -- 10.8 V held for 10 ms
  vinMv : Nat                       -- the input voltage last told
  sagged : Bool
  sagStart : Nat
  sagMin : Nat
  sagCount : Nat
  tripped : Bool
  aonStamp : Nat                    -- the island's count (R45)
  aonTower : Nat                    -- island in charge (R22)
  aonUp : List Bool                 -- islands of T0 and T1 answering
  mirrorOk : Bool
  lead : Nat
  phase : Nat                       -- HLT_STATE.phase
  ready : Bool
  test : Nat
  fwSource : Nat
  fwTried : List Nat
  warm : Bool                       -- the present bring-up is a MODULE_WARM
  bootCount : Nat
  bootStart : Nat
  bootMs : Nat
  verified : Bool
  pkg : List Byte
  staging : Option Nat
  pllPhase : List Bool
  findings : Option TestFindings
  health : Health
  sticky : BitVec 14                -- triggers that stay set (R435)
  stateEvent : Bool
  trigEvent : Bool
  ceOver : Nat
  ceLast : Nat
  ceNow : Nat
  ceThreshold : Nat
  ceWindows : Nat
  nextTest : Nat
  fenceMask : Nat
  healthStaged : List (Nat × Nat)   -- HEALTH_POLICY fields waiting for the tick
  invA : Option Inventory
  invB : Option Inventory
  invCurB : Bool                    -- copy B holds the record in use
  shown : BitVec 14                 -- the triggers as last computed
  nor : List Byte                   -- the carrier's SPI NOR image
  helper : List (List Byte)         -- PUF helper records (Table 15-4)
  certs : List Byte
  seed : Option (BitVec 384)
  pufTower : Nat
  meas : SMap (BitVec 384)
  log : List LogEnt                 -- oldest first, at most 1024
  newest : Nat
  acked : Nat
  dynAddr : BitVec 7
  eid : BitVec 8
  ibi : Bool
  moduleId : Option (BitVec 12)
  idFree : Bool                     -- the next LINK_CONFIG may assign another ID (R466)
  rootId : Option (BitVec 12)
  isRoot : Bool
  parent : Option Nat
  offsetNs : Int
  synced : Bool
  stepped : Bool                    -- the stamp has been stepped to the parent's (R44)
  rootDes : Bool                    -- the root followed is designated (R43)
  rootHops : Nat
  transit : List Transit
  heldDb : List (Nat × Nat × Nat × Nat)   -- doorbells behind BAR2 writes (R350): module, queue, tail, first later request number
  stage : SMap Byte                 -- the staging area of a firmware package (R419)
  bridge : Option Nat               -- tower of the endpoint pair
  linkUp : Bool
  pcieRate : Nat
  pcieWidth : Nat
  holdover : List Bool
  epoch : W32
  epochChange : Bool
  ovfEvent : List Bool
  launches : List Launch
  orders : List Order
  nextId : Nat
  waiting : List (Nat × Nat × Nat)  -- resets in progress: scope, target, island stamp of the start (R368, R432, R433)
  vendor : List VendorMsg
  mgmtRing : SMap Byte              -- the management queue's ring, in the management block (R353, R462)
  fwFail : Nat                      -- the step of R452 at which the present source's package failed, 0 none (R420)
  spdmLog : List Byte               -- SPDM requests since the last GET_VERSION (R459)
  deriving DecidableEq, Repr, Inhabited

/-- A latched high half (R13): requester, register key, value. -/
structure Latch where
  rq : Nat
  key : Nat
  hi : W32
  deriving DecidableEq, Repr, Inhabited

/-- The state of the block. -/
structure State where
  pending : List Instr
  free : Nat                        -- free values drawn so far (the model's own)
  regs : SMap W64
  staged : SMap W64                 -- staged copies of WS fields (R11)
  locked : SMap W64                 -- copies that a commit request took and that wait for the boundary (R11)
  latch : List Latch
  mem : Mem
  mod : Module
  towers : SMap Tower
  clusters : SMap Cluster
  tes : SMap TeSt
  bunches : SMap Bunch
  ports : SMap Port
  queues : SMap Queue
  tags : SMap TagEntry
  policy : SMap GuardPolicy
  policyStaged : List (Nat × List Nat)
  esc : SMap Esc
  cvu : SMap CvuCtx
  reqs : List Req
  needs : List (Nat × Nat)          -- remote ranges that the access being performed has still to fetch; empty between commands
  sends : List (Nat × List (Option (BitVec 9)))  -- remote writes that the access being performed has to send; empty between commands
  out : List OutMsg
  deriving DecidableEq, Repr

/-! ## Reset values of the parts -/

/-- A tower right after a cold reset: its dies are not yet powered (R31), nothing runs, every count is zero, and the reserve account
is full at the default depth (R403). (DEDUCED, log entry 103.) -/
def Tower.init : Tower := { (default : Tower) with derate := 1024, reserveMj := 1500 }
/-- The module right after a cold reset is released (R30, Table 14-1): phase 1, the input not yet qualified, every strap and
input pin at its idle level (DESIGN CHOICE, log entry 60), and LOG_START in the event log (R463). -/
def Module.init : Module :=
  { (default : Module) with
    variant := .x, straps := ⟨0, 0, false⟩, pwrEn := true, alertN := false, thermtripN := true, perstN := true,
    aonUp := [true, true], mirrorOk := true, pllPhase := [false, false, false, false], bootCount := 1, ceThreshold := 10000
    ceWindows := 6, log := [⟨1, 1, 0, 0, 0#64, [1#32]⟩], newest := 1, holdover := [false, false, false, false]
    ovfEvent := [false, false, false, false], nextId := 1 }
/-- A cluster right after a reset: no team, no job. -/
def Cluster.init : Cluster := default
/-- A port right after a reset: down, full width. -/
def Port.init : Port := { (default : Port) with mode := .disabled }

/-- The machine right after a cold reset (R30, R418): every queue disabled, every register at the value of its map, the
budgets at the variant's default (R391, Table 00-1), no command pending. Registers whose map names no value, and memories,
read as zero until bring-up sets them (DESIGN CHOICE, log entry 60). -/
def State.reset : State :=
  { pending := [], free := 0
    regs := [(0x015000020, 0x15E00578#64), (0x115000020, 0x15E00578#64), (0x215000020, 0x15E00578#64), (0x315000020, 0x15E00578#64)]
    staged := [], locked := [], latch := []
    mem := ⟨[], [], [], [], [], [], [], [], []⟩
    mod := Module.init
    towers := [], clusters := [], tes := [], bunches := [], ports := [], queues := [], tags := [], policy := []
    policyStaged := [], esc := [], cvu := [], reqs := [], needs := [], sends := [], out := [] }

/-- Why the block stops. No rule of the specification stops it: this type has the one constructor below, which no meaning
raises. -/
inductive Fault where
  /-- Raised by no command; safe. -/
  | none
  deriving DecidableEq, Repr

/-- Why a command has no meaning. -/
inductive Refusal where
  /-- A command not modelled yet; raised by arms of Dispatch.lean only; safe. -/
  | notModelled (mnemonic : String)
  deriving DecidableEq, Repr

end Sys2Proof.Machine
end

