-- ==== Sys2Proof/Machine/Regs.lean ====
section
/-! DEFINITION. The register file: where a register lies (R269, Table 09-2), its stored value, its fields, its staged copies
(R11), and which register an MMIO offset names. -/

namespace Sys2Proof.Machine

/-- A register of a unit: tower, unit (logical cluster, die, or check-value unit), and up to two indices. Check-value units:
a cluster's is its number, port p is 128 + p, the bridge is 136. -/
structure Loc where
  r : RegName
  t : Nat
  u : Nat := 0
  i : Nat := 0
  j : Nat := 0
  deriving DecidableEq, Repr

/-- Registers that read the same from every running tower (chapters 14 and 15) live under tower 0. -/
def RegName.shared : RegName → Bool
  | .hltState | .hltTriggers | .hltBoot | .hltCe | .hltFence | .hltReset | .trsStatus | .trsRelease | .trsFpr | .trsMeas
  | .mgtStatus | .mgtLog | .mgtId | .hltStampSync | .hltPgSummary | .hltPgEpoch => true
  | _ => false

/-- Offset of a unit's block in its tower's region (Table 09-2, and chapter 15 for check-value units). -/
def RegName.unitBase (r : RegName) (u : Nat) : Nat :=
  match r.place.blk with
  | .clu => u * 0x100000 + r.place.base
  | .cel => r.place.base + u * 0x10000
  | .tow => r.place.base
  | .cvu => if u < 128 then u * 0x100000 + 0x60000 else if u < 136 then 0x1B000000 + 0x400 * (u - 128) else 0x1B002000

/-- The MMIO offset of a register, its tower's number above it. -/
def Loc.key (l : Loc) : Nat :=
  (if l.r.shared then 0 else l.t) * 0x100000000 + l.r.unitBase l.u + l.r.place.off + l.r.place.s1 * l.i + l.r.place.s2 * l.j

/-- The value a register holds after a reset of its block (R14). -/
def RegName.resetWord (r : RegName) : W64 :=
  r.fields.foldl (fun w f => w ||| BitVec.ofNat 64 (f.reset * 2 ^ f.lo)) 0#64

/-- The bits of a register whose fields pass a test. -/
def RegName.bitsWhere (r : RegName) (p : FieldDef → Bool) : W64 :=
  r.fields.foldl (fun w f => if p f then w ||| BitVec.ofNat 64 ((2 ^ (f.hi + 1 - f.lo) - 1) * 2 ^ f.lo) else w) 0#64

/-- A register's stored value. -/
def State.reg (s : State) (l : Loc) : W64 := SMap.get l.r.resetWord s.regs l.key
/-- A register stored. -/
def State.setReg (s : State) (l : Loc) (v : W64) : State := { s with regs := SMap.put l.r.resetWord s.regs l.key v }

/-- A register's staged copy (R11). -/
def State.stg (s : State) (l : Loc) : W64 := SMap.get l.r.resetWord s.staged l.key
/-- A staged copy written. -/
def State.setStg (s : State) (l : Loc) (v : W64) : State := { s with staged := SMap.put l.r.resetWord s.staged l.key v }

/-- The copy that a commit request took (R11): writes that follow it stay staged until the next commit. -/
def State.lck (s : State) (l : Loc) : W64 := SMap.get l.r.resetWord s.locked l.key
/-- The copy of a commit request written. -/
def State.setLck (s : State) (l : Loc) (v : W64) : State := { s with locked := SMap.put l.r.resetWord s.locked l.key v }

/-- A field of a stored register. -/
def State.fget (s : State) (f : Fld) (t : Nat) (u : Nat := 0) (i : Nat := 0) (j : Nat := 0) : Nat :=
  fld (s.reg ⟨f.reg, t, u, i, j⟩) f.hi f.lo

/-- A field of a stored register written. -/
def State.fset (s : State) (f : Fld) (v : Nat) (t : Nat) (u : Nat := 0) (i : Nat := 0) (j : Nat := 0) : State :=
  let l : Loc := ⟨f.reg, t, u, i, j⟩
  s.setReg l (setFld (s.reg l) f.hi f.lo v)

/-- A counter field advanced by n; it stops at its largest value. -/
def State.bump (s : State) (f : Fld) (n : Nat) (t : Nat) (u : Nat := 0) (i : Nat := 0) (j : Nat := 0) : State :=
  s.fset f (min (2 ^ (f.hi + 1 - f.lo) - 1) (s.fget f t u i j + n)) t u i j

/-- A flag field of a stored register. -/
def State.flag (s : State) (f : Fld) (t : Nat) (u : Nat := 0) (i : Nat := 0) (j : Nat := 0) : Bool :=
  s.fget f t u i j != 0

/-- The WS bits of a register. -/
def RegName.wsBits (r : RegName) : W64 := r.bitsWhere fun f => f.acc = .ws

/-- A commit request takes the staged copy of a register (R11). -/
def State.lockOne (s : State) (l : Loc) : State := s.setLck l (s.stg l)

/-- At a block's boundary the copy becomes active: WS fields take it, the other fields stay. -/
def State.activate (s : State) (l : Loc) : State :=
  let m := l.r.wsBits
  s.setReg l ((s.reg l &&& ~~~m) ||| (s.lck l &&& m))

/-- A register and its copies return to their reset values; a field whose Reset column is "—" keeps its value (R14). -/
def State.resetReg (s : State) (l : Loc) : State :=
  let k := l.r.bitsWhere fun f => f.keep
  let v := (s.reg l &&& k) ||| (l.r.resetWord &&& ~~~k)
  ((s.setReg l v).setStg l v).setLck l v

/-- Every location of a register in a unit. -/
def RegName.locs (r : RegName) (t u : Nat) : List Loc :=
  (List.range r.place.n1).flatMap fun i => (List.range r.place.n2).map fun j => ⟨r, t, u, i, j⟩

/-- Registers of a unit that pass a test return to their reset values. -/
def State.resetRegs (s : State) (t u : Nat) (p : RegName → Bool) : State :=
  ((RegName.all.filter p).flatMap fun r => r.locs t u).foldl State.resetReg s

/-! ## Addresses -/

/-- Does a register of the given block cover byte x of the block? -/
def RegName.hit (r : RegName) (x : Nat) : Option (Nat × Nat × Nat) :=
  let d := r.place
  if x < d.off then none
  else
    let y := x - d.off
    let i := if d.s1 = 0 then 0 else y / d.s1
    let y1 := if d.s1 = 0 then y else y % d.s1
    let j := if d.s2 = 0 then 0 else y1 / d.s2
    let y2 := if d.s2 = 0 then y1 else y1 % d.s2
    if i < d.n1 ∧ j < d.n2 ∧ y2 < d.width / 8 then some (i, j, y2) else none

/-- The check-value unit of an offset in a tower's region, with the offset inside the unit. -/
def cvuUnitOf (off : Nat) : Option (Nat × Nat) :=
  if off < 0x08000000 then
    (if 0x60000 ≤ off % 0x100000 ∧ off % 0x100000 < 0x70000 then some (off / 0x100000, off % 0x100000 - 0x60000) else none)
  else if 0x1B000000 ≤ off ∧ off < 0x1B002000 then some (128 + (off - 0x1B000000) / 0x400, (off - 0x1B000000) % 0x400)
  else if 0x1B002000 ≤ off ∧ off < 0x1B002400 then some (136, off - 0x1B002000)
  else none

/-- The register, and the byte inside it, that an offset of a tower's MMIO region names (R269); none names none. -/
def locate (t off : Nat) : Option (Loc × Nat) :=
  RegName.all.findSome? fun r =>
    let go (u : Nat) (x : Option Nat) : Option (Loc × Nat) :=
      match x with
      | none => none
      | some x => (r.hit x).map fun h => (⟨r, t, u, h.1, h.2.1⟩, h.2.2)
    let base := r.place.base
    match r.place.blk with
    | .clu =>
      if off < 0x08000000 then
        let x := off % 0x100000
        go (off / 0x100000) (if base ≤ x ∧ x < base + 0x10000 then some (x - base) else none)
      else none
    | .cel =>
      if base ≤ off ∧ off < base + 0x20000 then go ((off - base) / 0x10000) (some ((off - base) % 0x10000)) else none
    | .tow => go 0 (if base ≤ off ∧ off < base + 0x1000000 then some (off - base) else none)
    | .cvu => (cvuUnitOf off).bind fun x => go x.1 (some x.2)

end Sys2Proof.Machine
end

