-- ==== Sys2Proof/Machine/Ops.lean ====
section
/-! DEFINITION. The named operations: access to the parts of the state, free values, the stamp, the event log, signals to
the dispatcher, tallies, bunch faults, shelf bytes, cellar rows and HBM units. -/

namespace Sys2Proof.Machine

/-- What a command answers. -/
abbrev Out := Host.Outcome State Fault Refusal

/-! ## Parts of the state -/

/-- Keys of the parts: a tower's cluster, thread engine, bunch slot and port. -/
def cluKey (t c : Nat) : Nat := t * 128 + c
def teKey (t c e : Nat) : Nat := (t * 128 + c) * 4 + e
def bunchKey (t c e k : Nat) : Nat := ((t * 128 + c) * 4 + e) * 16 + k
def bkey (b : BunchRef) : Nat := bunchKey b.t b.c b.e b.k
def portKey (t p : Nat) : Nat := t * 8 + p

def State.tower (s : State) (t : Nat) : Tower := SMap.get Tower.init s.towers t
def State.modTower (s : State) (t : Nat) (f : Tower → Tower) : State :=
  { s with towers := SMap.put Tower.init s.towers t (f (s.tower t)) }

def State.clu (s : State) (t c : Nat) : Cluster := SMap.get Cluster.init s.clusters (cluKey t c)
def State.modClu (s : State) (t c : Nat) (f : Cluster → Cluster) : State :=
  { s with clusters := SMap.put Cluster.init s.clusters (cluKey t c) (f (s.clu t c)) }

def State.te (s : State) (t c e : Nat) : TeSt := SMap.get default s.tes (teKey t c e)
def State.modTe (s : State) (t c e : Nat) (f : TeSt → TeSt) : State :=
  { s with tes := SMap.put default s.tes (teKey t c e) (f (s.te t c e)) }

def State.bunch (s : State) (k : Nat) : Bunch := SMap.get default s.bunches k
def State.setBunch (s : State) (k : Nat) (b : Bunch) : State := { s with bunches := SMap.put default s.bunches k b }
def State.modBunch (s : State) (k : Nat) (f : Bunch → Bunch) : State := s.setBunch k (f (s.bunch k))

def State.port (s : State) (t p : Nat) : Port := SMap.get Port.init s.ports (portKey t p)
def State.modPort (s : State) (t p : Nat) (f : Port → Port) : State :=
  { s with ports := SMap.put Port.init s.ports (portKey t p) (f (s.port t p)) }

def State.queue (s : State) (q : Nat) : Queue := SMap.get default s.queues q
def State.modQueue (s : State) (q : Nat) (f : Queue → Queue) : State :=
  { s with queues := SMap.put default s.queues q (f (s.queue q)) }

def State.modMod (s : State) (f : Module → Module) : State := { s with mod := f s.mod }
def State.modMem (s : State) (f : Mem → Mem) : State := { s with mem := f s.mem }
def State.modArr (s : State) (t c : Nat) (f : Arr → Arr) : State := s.modClu t c fun x => { x with arr := f x.arr }

/-- A message or a read value leaves the block. -/
def State.emit (s : State) (m : OutMsg) : State := { s with out := m :: s.out }

/-! ## Free values (DESIGN CHOICE, log entry 2) -/

/-- The next free number. -/
def State.free1 (s : State) : Nat := Config.freeNat s.free
/-- The next free truth value. -/
def State.freeB (s : State) : Bool := Config.freeBool s.free
/-- The next free 64-bit word. -/
def State.freeW (s : State) : W64 := Config.freeWord s.free
/-- n free values have been drawn. -/
def State.drawn (s : State) (n : Nat) : State := { s with free := s.free + n }
/-- The next number of its own for a command, request or launch. -/
def State.newId (s : State) : State := s.modMod fun m => { m with nextId := m.nextId + 1 }

/-! ## Time, events, health bits -/

/-- The stamp that a tower's HLT_STAMP returns: during a TOWER reset the lead tower's (R45). -/
def State.stamp (s : State) (t : Nat) : Nat :=
  if (s.tower t).inTower then (s.tower s.mod.lead).stamp.toNat else (s.tower t).stamp.toNat

/-- SB_ALERT_N is low while the newest entry lies beyond the acknowledged number (R465). -/
def Module.alert (m : Module) : Module := { m with alertN := decide (m.newest ≤ m.acked) }

/-- An entry of the event log with the stamp of its event (R463, Table 15-6); the ring keeps 1,024. It raises an in-band interrupt
when enabled (R460). -/
def State.logAt (s : State) (at_ code sev src : Nat) (detail : List Nat) : State :=
  let e : LogEnt := ⟨s.mod.newest + 1, code, sev, src, BitVec.ofNat 64 at_, detail.map (BitVec.ofNat 32)⟩
  let s1 := s.modMod fun m =>
    ({ m with log := (m.log ++ [e]).drop (m.log.length + 1 - 1024), newest := m.newest + 1 } : Module).alert
  if s.mod.ibi then s1.emit .ibi else s1

/-- An event that occurs now. -/
def State.logEvent (s : State) (code sev src : Nat) (detail : List Nat) : State := s.logAt (s.stamp src) code sev src detail

/-- Corrected errors in the health manager's own count (R437). -/
def State.ce (s : State) (n : Nat) : State :=
  if n = 0 then s else s.modMod fun m => { m with ceNow := m.ceNow + n }

/-! ## Health (R428, R435-R438) -/

/-- A row's spare: the column it replaces, 0xFF unused, 0xFE failed. -/
def State.spare (s : State) (t row : Nat) : Nat := SMap.get 0xFF (s.tower t).spares row

/-- Row of a logical cluster in the grid, and its column before any spare stands in. -/
def gridRow (c : Nat) : Nat := c % 64 / 8
def gridCol (c : Nat) : Nat := if c < 64 then c % 8 else 9 + c % 8

/-- Spare rows of a die of a bay in use, and those found unusable (R259, R260). -/
def State.sparesUsed (s : State) (t die bay : Nat) : List Nat := SMap.get [] (s.tower t).usedSpares (die * 136 + bay)
def State.sparesBad (s : State) (t die bay : Nat) : List Nat := SMap.get [] (s.tower t).badSpares (die * 136 + bay)

/-- Absent clusters of a tower. -/
def State.absents (s : State) (t : Nat) : List Nat := (List.range 128).filter fun c => (s.clu t c).absent

/-- A domain with one phase lost that Table 14-6 calls DEGRADED. -/
def onePhase (v : Variant) (d n : Nat) : Bool :=
  n = 1 && (match v with | .x => decide (d < 0x300) | .s => decide (0x330 ≤ d))

/-- The rows of Table 14-6 that are not sticky (bits 8 to 13). -/
def State.conditions (s : State) : List Bool :=
  let ts := List.range 4
  let cluster := ts.any fun t => (s.absents t).any fun c => s.spare t (gridRow c) = 0xFF
  let phase := ts.any fun t => (s.tower t).phasesLost.any fun e => onePhase s.mod.variant e.1 e.2
  let out := ts.any fun t => (s.tower t).usedSpares.any fun e =>
    decide (512 ≤ e.2.length + (s.sparesBad t (e.1 / 136) (e.1 % 136)).length) &&
    decide ((s.sparesUsed t 0 (e.1 % 136)).length + (s.sparesUsed t 1 (e.1 % 136)).length < 820)
  [cluster, phase, out, ts.any fun t => (s.tower t).suspect, s.mod.holdover.any id, s.mod.lead ≠ 0]

/-- HLT_TRIGGERS: the sticky triggers and the conditions that hold now. -/
def State.triggers (s : State) : BitVec 14 :=
  s.conditions.zipIdx.foldl (fun m c => if c.1 then m ||| (1#14 <<< (8 + c.2)) else m) (s.mod.sticky &&& 0xFF#14)

/-- The health state of Table 14-6; FAILED lasts until a cold reset (R436). -/
def State.healthNow (s : State) : Health :=
  if s.mod.health = .failed then .failed
  else
    let w := s.triggers
    if w &&& 0xFF#14 ≠ 0#14 then .replace else if w ≠ 0#14 then .degraded else .good

def Health.code : Health → Nat
  | .good => 0
  | .degraded => 1
  | .replace => 2
  | .failed => 3

/-- The fingerprint of the identity: the first 16 bytes of SHA-384 of its public key, zero without identity (R456, R457). -/
def State.fingerprint (s : State) : BitVec 128 :=
  match s.mod.seed with
  | some k => BitVec.ofNat 128 ((Config.sha384 (Config.identityKey k)).toNat % 2 ^ 128)
  | none => 0#128

/-- A tower's section of the inventory record (Table 14-4). -/
def State.invTower (s : State) (t : Nat) : InvTower :=
  let used (die : Nat) : Nat := ((List.range 136).map fun b => (s.sparesUsed t die b).length).sum
  let both (b : Nat) : Nat := (s.sparesUsed t 0 b).length + (s.sparesUsed t 1 b).length
  let worst := (List.range 136).foldl (fun w b => if both w < both b then b else w) 0
  { spareMap := (List.range 8).map fun r => s.spare t r
    lost := ((s.absents t).filter fun c => s.spare t (gridRow c) ≠ 0xFF).length
    fenced := (s.tower t).fence ≠ 0
    retiredU := used 0, retiredL := used 1, worstBay := worst, worstUsed := both worst
    hbmRepairs := (List.range 8).map fun h => SMap.get 0 (s.tower t).hbmRepairs h
    hbmFailed := (List.range 8).map fun h => (s.reg ⟨.hbmChanFail, t, 0, h, 0⟩).toNat
    lanes := (List.range 8).map fun p => (s.port t p).badLanes.toNat
    phasesLost := ((s.tower t).phasesLost.map fun e => e.2).sum, ceHour := s.mod.ceLast }

/-- The inventory record as the module stands (Table 14-3). -/
def State.inventory (s : State) : Inventory :=
  { lastHealth := s.mod.health.code, bootCount := s.mod.bootCount, fingerprint := s.fingerprint, nextTest := s.mod.nextTest
    towers := (List.range 4).map s.invTower }

/-- The record is written into the copy that is not in use, which then is (R428). -/
def State.writeInventory (s : State) : State :=
  let r := s.inventory
  s.modMod fun m => if m.invCurB then { m with invA := some r, invCurB := false } else { m with invB := some r, invCurB := true }

/-- The health state as an event changes it (R435, R438): computed from READY on. -/
def State.setHealth (s : State) (h : Health) : State :=
  if s.mod.health = h then s
  else
    let old := s.mod.health.code
    let s1 := s.modMod fun m => { m with health := h, stateEvent := true }
    let s2 := (s1.logEvent 0x0003 1 s.mod.lead [old + h.code * 4, s.triggers.toNat]).writeInventory
    if h = .replace then s2.emit .askReplacement else s2

/-- Compute triggers and health anew. -/
def State.rehealth (s : State) : State :=
  if !s.mod.ready then s
  else
    let w := s.triggers
    let s1 := s.modMod fun m => { m with trigEvent := m.trigEvent || (w &&& ~~~m.shown) != 0#14, shown := w }
    s1.setHealth s1.healthNow

/-- A sticky trigger's cause occurs (Table 14-6). -/
def State.trigger (s : State) (i : Nat) : State :=
  (s.modMod fun m => { m with sticky := m.sticky ||| (1#14 <<< i) }).rehealth

/-! ## Status signals (Table 12-3) -/

def stOK : Nat := 0x0000
def stClamped : Nat := 0x0001
def stPartial : Nat := 0x0002
def stSuperseded : Nat := 0x0003
def stDeferred : Nat := 0x0004
def stBadOpcode : Nat := 0x0010
def stBadLength : Nat := 0x0011
def stBadAddress : Nat := 0x0012
def stBadState : Nat := 0x0013
def stInconsistent : Nat := 0x0014
def stFaultBunch : Nat := 0x0020
def stUncorrectable : Nat := 0x0021
def stFaultLink : Nat := 0x0022
def stLost : Nat := 0x0030
def stTimeout : Nat := 0x0031
def stRefused : Nat := 0x0040

/-- A unit signals a status to the dispatcher for the command it works for; the first one counts (R271, R253, R108). -/
def State.signal (s : State) (id st detail : Nat) : State :=
  { s with
    queues := s.queues.map fun q =>
      (q.1, { q.2 with running := q.2.running.map fun p =>
        if p.id = id ∧ p.status ≤ stPartial then { p with status := st, detail := detail } else p }) }

/-! ## Tallies (R156-R158) -/

/-- ARRIVE: k added to the count, which stops at 0xFFFF_FFFF and sets sat. -/
def Tally.arrive (y : Tally) (k : Nat) : Tally :=
  if 0xFFFFFFFF < y.count.toNat + k then { y with count := 0xFFFFFFFF#32, sat := true }
  else { y with count := BitVec.ofNat 32 (y.count.toNat + k) }

/-- A tally is armed while its target is non-zero and done is 0 (R157). -/
def Tally.armed (y : Tally) : Bool := y.target != 0#32 && !y.done

/-- One completion, when it is due (R157). -/
def Tally.complete (y : Tally) : Tally :=
  if y.armed && decide (y.target.toNat ≤ y.count.toNat) then
    (if y.auto then { y with phase := !y.phase, count := y.count - y.target } else { y with phase := !y.phase, done := true })
  else y

/-- SET: count, target and auto-reset bit; done is cleared, the phase unchanged. -/
def Tally.set (y : Tally) (count target : W32) (auto : Bool) : Tally :=
  { y with count := count, target := target, auto := auto, done := false }

def State.tally (s : State) (t c n : Nat) : Tally := SMap.get default (s.clu t c).tallies n
/-- The wait of a running TALLY_WAIT, among a packet's waits. -/
def waitTally : Nat := 1080

/-- A TALLY_WAIT packet names this tally and its condition holds (R156, Table 12-5). -/
def tallyMet (p : Packet) (t c n : Nat) (y : Tally) : Bool :=
  let w := wordAt p 1
  fld w 7 0 = t && fld w 15 8 = c && fld w 23 16 = n &&
  (if bit w 24 then decide (fld w 63 32 ≤ y.count.toNat) else y.phase == bit w 32)

/-- A tally changes; the TALLY_WAIT commands whose condition then holds have their wait behind them. -/
def State.modTally (s : State) (t c n : Nat) (f : Tally → Tally) : State :=
  let y := f (s.tally t c n)
  let s1 := s.modClu t c fun x => { x with tallies := SMap.put default x.tallies n y }
  { s1 with queues := s1.queues.map fun q =>
      (q.1, { q.2 with running := q.2.running.map fun p =>
        if p.waits.contains waitTally ∧ tallyMet p.words t c n y then { p with waits := p.waits.filter (· ≠ waitTally) } else p }) }

/-- One cycle of a tally with one ARRIVE. -/
def State.arriveT (s : State) (t c n k : Nat) : State := s.modTally t c n fun y => (y.arrive k).complete
/-- One cycle of a tally with one SET. -/
def State.setT (s : State) (t c n : Nat) (count target : W32) (auto : Bool) : State :=
  s.modTally t c n fun y => (y.set count target auto).complete

/-! ## Bunch faults (R174-R176) -/

/-- The codes of Table 05-5. -/
inductive BFault where
  | matrixPartialMask | barrierPartial | barrierTimeout | maskSpillExhausted | shelfBounds | descriptorInvalid | tallyRange
  | illegalInstruction | uncorrectableData
  deriving DecidableEq, Repr

def BFault.code : BFault → Nat
  | .matrixPartialMask => 1
  | .barrierPartial => 2
  | .barrierTimeout => 3
  | .maskSpillExhausted => 4
  | .shelfBounds => 5
  | .descriptorInvalid => 6
  | .tallyRange => 7
  | .illegalInstruction => 8
  | .uncorrectableData => 9

/-- A fault with its lowest lane and its address. -/
structure FaultInfo where
  f : BFault
  lane : Nat := 0
  addr : Nat := 0
  deriving DecidableEq, Repr

/-- The detail word of FAULT_BUNCH (Table 05-6). -/
def faultDetail (t c e k code : Nat) : Nat := code + c * 2 ^ 8 + t * 2 ^ 15 + e * 2 ^ 17 + k * 2 ^ 19

/-- Order of faults of one stamp: tower, cluster, TE, slot (R175). -/
def faultOrder (d : Nat) : Nat := bunchKey (bitsOf d 16 15) (bitsOf d 14 8) (bitsOf d 18 17) (bitsOf d 22 19)

/-- A bunch fault: TE_FAULT and TE_FAULT_ADDR record the first one (R176), the bunch stops at its instruction, every team of
its launch stops (R175), and the launch keeps the earliest fault. -/
def State.bunchFault (s : State) (b : BunchRef) (i : FaultInfo) : State :=
  let x := s.bunch (bkey b)
  let s1 :=
    if s.flag teFaultValid b.t b.c b.e then s.fset teFaultMore 1 b.t b.c b.e
    else
      (s.setReg ⟨.teFault, b.t, b.c, b.e, 0⟩
        (BitVec.ofNat 64 (2 ^ 63 + fld (s.reg ⟨.teFault, b.t, b.c, b.e, 0⟩) 62 62 * 2 ^ 62 + i.f.code * 2 ^ 54 + b.k * 2 ^ 50 + i.lane * 2 ^ 44 +
          x.pc.toNat))).setReg ⟨.teFaultAddr, b.t, b.c, b.e, 0⟩ (BitVec.ofNat 64 i.addr)
  let d := faultDetail b.t b.c b.e b.k i.f.code
  let st := s.stamp b.t
  let s2 := s1.modBunch (bkey b) fun y => { y with run := .faulted }
  let s3 := s2.modMod fun m =>
    { m with launches := m.launches.map fun l =>
        if l.id = x.launch then
          (match l.fault with
           | none => { l with fault := some (st, d) }
           | some (st0, d0) =>
             if st < st0 ∨ (st = st0 ∧ faultOrder d < faultOrder d0) then { l with fault := some (st, d) } else l)
        else l }
  { s3 with
    clusters := s3.clusters.map fun e =>
      (e.1, match e.2.team with
            | some tm => if tm.launch = x.launch then { e.2 with team := some { tm with stopped := true } } else e.2
            | none => e.2) }

/-! ## Clusters, spares and bays (R23-R25) -/

/-- The physical position 17·row + column of a logical cluster. -/
def State.phys (s : State) (t c : Nat) : Nat :=
  17 * gridRow c + (if s.spare t (gridRow c) = gridCol c then 8 else gridCol c)

/-- The logical cluster at a physical position, none for a spare that stands in for none and for a replaced position. -/
def State.logical (s : State) (t p : Nat) : Option Nat :=
  let row := p / 17
  let col := p % 17
  let num (k : Nat) : Nat := if k ≤ 7 then row * 8 + k else 64 + row * 8 + (k - 9)
  if col = 8 then (if s.spare t row ≤ 16 then some (num (s.spare t row)) else none)
  else if s.spare t row = col then none else some (num col)

/-! ## The shelf (R239, R262) -/

def State.shelfKey (s : State) (t c off : Nat) : Nat := (t * 136 + s.phys t c) * 2 ^ 20 + off

/-- Read shelf bytes: each corrected or marked uncorrectable; corrected code words are written back and counted. -/
def State.shelfRead (s : State) (t c off n : Nat) : List (BitVec 9) × State :=
  let k := s.shelfKey t c off
  let rs := (List.range n).map fun i => (i, byteRead (SMap.get 0#13 s.mem.shelf (k + i)))
  let fixed := rs.filter fun r => r.2.corrected
  let bad := (rs.filter fun r => r.2.bad).length
  let s1 := if fixed.isEmpty then s else
    (((s.modMem fun m => { m with shelf := fixed.foldl (fun h r => SMap.put 0#13 h (k + r.1) (byteCode r.2.val)) m.shelf }).bump
      shfErrCntCorrected fixed.length t c).ce fixed.length)
  let s2 := if bad = 0 then s1 else s1.bump shfErrCntUncorrectable bad t c
  (rs.map fun r => r.2.marked, s2)

/-- Write one shelf byte; an armed flip mask at its offset applies once. -/
def State.shelfPut (s : State) (t c off : Nat) (v : BitVec 9) : State :=
  let l : Loc := ⟨.shfFlipmask, t, c, 0, 0⟩
  let w := s.reg l
  let armed := bit w 63 && fld w 51 32 = off
  let code := if armed then markedCode v ^^^ BitVec.ofNat 13 (fld w 12 0) else markedCode v
  let s1 := if armed then s.setReg l (setFld w 63 63 0) else s
  s1.modMem fun m => { m with shelf := SMap.put 0#13 m.shelf (s.shelfKey t c off) code }

/-- Write marked bytes at pairs (offset, byte). -/
def State.shelfPuts (s : State) (t c : Nat) (bs : List (Nat × BitVec 9)) : State :=
  bs.foldl (fun s b => s.shelfPut t c b.1 b.2) s

/-- Number a byte list from an offset. -/
def numbered (off : Nat) (bs : List (BitVec 9)) : List (Nat × BitVec 9) :=
  (List.range bs.length).zip bs |>.map fun e => (off + e.1, e.2)

/-- Write consecutive marked bytes. -/
def State.shelfWrite (s : State) (t c off : Nat) (bs : List (BitVec 9)) : State := s.shelfPuts t c (numbered off bs)

/-! ## Cellar rows (R231-R244, R258, R261) -/

/-- Key of a row of a bay die. -/
def rowKey (t die bay row : Nat) : Nat := ((t * 2 + die) * 136 + bay) * 25088 + row

/-- The physical row behind a data row (R259). -/
def State.physRow (s : State) (t die bay row : Nat) : Nat :=
  let r := SMap.get 0 s.mem.remap (rowKey t die bay row)
  if r = 0 then row else r

/-- The majority of a row's three valid-bit copies (R241). -/
def majority (v : BitVec 3) : Bool := decide (2 ≤ popN 3 v.toNat)
def State.validBits (s : State) (t die bay row : Nat) : BitVec 3 := SMap.get 0#3 s.mem.valid (rowKey t die bay row)

/-- The 512 bytes stored in a physical row, decoded. -/
def State.rowCells (s : State) (t die bay prow : Nat) : List ByteRead :=
  (List.range 512).map fun i => byteRead (SMap.get 0#13 s.mem.cells (rowKey t die bay prow * 512 + i))

/-- Count the errors of a row read: CEL_ERR_CNT, the health manager's count and CEL_ERR_LOG (source 0 hatch, 1 mesh,
2 scrubber). -/
def State.rowErrors (s : State) (t die bay prow src : Nat) (rs : List ByteRead) : State :=
  let fixed := (rs.filter ByteRead.corrected).length
  let bad := (rs.filter ByteRead.bad).length
  let s1 := if fixed = 0 then s else (s.bump celErrCntCorrected fixed t die).ce fixed
  if bad = 0 then s1
  else
    let s2 := s1.bump celErrCntUncorrectable bad t die
    if s2.flag celErrLogValid t die then s2
    else
      let i := rs.findIdx ByteRead.bad
      let syn := byteSyn (SMap.get 0#13 s.mem.cells (rowKey t die bay prow * 512 + i))
      s2.setReg ⟨.celErrLog, t, die, 0, 0⟩
        (BitVec.ofNat 64 (2 ^ 63 + src * 2 ^ 61 + bay * 2 ^ 37 + prow * 2 ^ 22 + i * 2 ^ 13 + syn * 2 ^ 8))

/-- A row with an error read by the hatch or a mesh enters the die's repair queue of 16 rows (R258). -/
def State.queueRepair (s : State) (t die bay row : Nat) : State :=
  s.modTower t fun w =>
    let q := SMap.get [] w.repairQ die
    if q.length < 16 then { w with repairQ := SMap.put [] w.repairQ die (q ++ [(bay, row)]) } else w

/-- Read a data row: zeros when it is invalid, else 512 bytes each corrected or marked (R235, R238, R240, R241). -/
def State.rowRead (s : State) (t die bay row src : Nat) : List (BitVec 9) × State :=
  let v := s.validBits t die bay row
  let s0 := if v = 0#3 ∨ v = 7#3 then s else (s.bump celErrCntCorrected 1 t die).ce 1
  if majority v then
    let p := s.physRow t die bay row
    let rs := s.rowCells t die bay p
    let s1 := s0.rowErrors t die bay p src rs
    let s2 := if (rs.any fun r => r.corrected || r.bad) then s1.queueRepair t die bay row else s1
    (rs.map ByteRead.marked, s2)
  else (List.replicate 512 0#9, s0)

/-- Store one byte of a row write, with the flip mask's patterns for it (R261). -/
def flipped (w : W64) (i : Nat) (code : BitVec 13) : BitVec 13 :=
  if bit w 63 then
    let c1 := if fld w 25 17 = i then code ^^^ BitVec.ofNat 13 (fld w 12 0) else code
    if fld w 57 49 = i then c1 ^^^ BitVec.ofNat 13 (fld w 44 32) else c1
  else code

/-- Write bytes (position, marked byte) of a data row under their mask (R238, R240); hatch, mesh and pantry writes. -/
def State.rowWrite (s : State) (t die bay row : Nat) (bs : List (Nat × BitVec 9)) : State :=
  if bs.isEmpty then s
  else
    let k := rowKey t die bay (s.physRow t die bay row) * 512
    let l : Loc := ⟨.celFlipmask, t, die, bay, 0⟩
    let w := s.reg l
    let valid := majority (s.validBits t die bay row)
    let zeros : List (Nat × BitVec 9) :=
      if valid then [] else ((List.range 512).filter fun i => !(bs.any fun b => b.1 = i)).map fun i => (i, 0#9)
    let cells := (zeros ++ bs).foldl (fun m b => SMap.put 0#13 m (k + b.1) (flipped w b.1 (markedCode b.2))) s.mem.cells
    let s1 := if bit w 63 then s.setReg l (setFld w 63 63 0) else s
    s1.modMem fun m =>
      { m with cells := cells
               valid := if valid then m.valid else SMap.put 0#3 m.valid (rowKey t die bay row) 7#3 }

/-- Clear the valid bits of a row (R243). -/
def State.rowInvalid (s : State) (t die bay row : Nat) : State :=
  s.modMem fun m => { m with valid := SMap.put 0#3 m.valid (rowKey t die bay row) 0#3 }

/-! ## HBM units (R304-R310, R315) -/

/-- Place of an address in its tower's stacks (R304). -/
structure HbmPlace where
  stack : Nat
  pc : Nat
  granule : Nat
  unit : Nat
  deriving DecidableEq, Repr

def hbmPlace (a : Nat) : HbmPlace :=
  let g := bitsOf a 38 8
  { stack := bitsOf g 2 0 ^^^ bitsOf g 11 9 ^^^ bitsOf g 20 18 ^^^ bitsOf g 29 27
    pc := bitsOf g 8 3 ^^^ bitsOf g 14 9 ^^^ bitsOf g 20 15 ^^^ bitsOf g 26 21
    granule := bitsOf g 30 9
    unit := bitsOf a 7 5 }

/-- The granule number that lies at a place (R304 is one-to-one). -/
def hbmGranule (stack pc granule : Nat) : Nat :=
  let g := granule * 512
  g + ((stack ^^^ bitsOf g 11 9 ^^^ bitsOf g 20 18 ^^^ bitsOf g 29 27) % 8) +
    8 * ((pc ^^^ bitsOf g 14 9 ^^^ bitsOf g 20 15 ^^^ bitsOf g 26 21) % 64)

def unitKey (t un : Nat) : Nat := t * 2 ^ 34 + un
def pcKey (t stack pc : Nat) : Nat := t * 512 + stack * 64 + pc
def zeroUnit : HbmUnit := ⟨0#256, 0#10, false⟩

/-- Whether a channel has failed (R310). -/
def State.chanFailed (s : State) (t stack ch : Nat) : Bool := bit (s.reg ⟨.hbmChanFail, t, 0, stack, 0⟩) ch

/-- A channel fails (R310): its bit, the count, the event and the trigger. -/
def State.failChannel (s : State) (t stack ch : Nat) : State :=
  if s.chanFailed t stack ch then s
  else
    let l : Loc := ⟨.hbmChanFail, t, 0, stack, 0⟩
    let s1 := s.setReg l (s.reg l ||| (1#64 <<< ch))
    let s2 := s1.bump hbmStatusFailed 1 t 0 stack
    ((s2.logEvent 0x0022 2 t [stack, ch]).trigger 3)

/-- An uncorrectable unit: counted, logged once, and the 17th unit found so within 1 s fails its channel (R310). (DEDUCED, log entry 128.) -/
def State.hbmBad (s : State) (t un src syn par : Nat) : State :=
  let p := hbmPlace (un * 32)
  let s1 := s.bump hbmErrCntUncorrectable 1 t 0 p.stack
  let s2 := if s1.flag hbmErrLogValid t 0 p.stack then s1
    else s1.setReg ⟨.hbmErrLog, t, 0, p.stack, 0⟩
      (BitVec.ofNat 64 (2 ^ 63 + src * 2 ^ 61 + p.pc * 2 ^ 55 + p.granule * 2 ^ 33 + p.unit * 2 ^ 30 + syn * 2 ^ 21 + par * 2 ^ 20))
  let now := s.stamp t
  let ck := p.stack * 32 + p.pc / 2
  let times := (SMap.get [] (s.tower t).uncorrTimes ck).filter (fun x => x.1 ≠ un ∧ now < x.2 + 200000000) ++ [(un, now)]
  let s3 := s2.modTower t fun w => { w with uncorrTimes := SMap.put [] w.uncorrTimes ck times }
  if 16 < times.length then s3.failChannel t p.stack (p.pc / 2) else s3

/-- A stored unit decoded, with its errors counted (source 0 request, 1 read-merge-write, 2 patrol). -/
def State.unitFetch (s : State) (t un src : Nat) : UnitRead × Bool × State :=
  let u := SMap.get zeroUnit s.mem.hbm (unitKey t un)
  let r := unitRead u.data u.check
  let st := (hbmPlace (un * 32)).stack
  let s1 := if r.corrected then (s.bump hbmErrCntCorrected 1 t 0 st).ce 1 else s
  let s2 := if r.bad then s1.hbmBad t un src r.syn r.parity else s1
  (r, u.poison, s2)

/-- A unit stored whole. -/
def State.unitStore (s : State) (t un : Nat) (d : BitVec 256) (poison : Bool) : State :=
  s.modMem fun m => { m with hbm := SMap.put zeroUnit m.hbm (unitKey t un) ⟨d, hbmCheck d, poison⟩ }

/-- The bits of 256 that a byte mask covers. -/
def byteBits (m : BitVec 32) : BitVec 256 :=
  BitVec.ofNat 256 (((List.range 32).map fun i => if m.getLsbD i then 255 * 2 ^ (8 * i) else 0).sum)

/-- One write takes effect in its unit (R307, R308). -/
def State.unitWrite (s : State) (t un : Nat) (d : HbmData) : State :=
  if d.mask = 0#32 then s
  else if d.mask = 0xFFFFFFFF#32 then s.unitStore t un d.data (d.poison != 0#32)
  else
    let (r, p, s1) := s.unitFetch t un 1
    let b := byteBits d.mask
    ((s1.bump hbmRmwCntCount 1 t 0 (hbmPlace (un * 32)).stack).unitStore t un ((r.data &&& ~~~b) ||| (d.data &&& b))
      (r.bad || p || ((d.poison &&& d.mask) != 0#32)))

/-- The active budget of a class, in 1/128 of the peak; values above 128 act as 128. -/
def State.budget (s : State) (t cls : Nat) : Nat :=
  min 128 (fld (s.reg ⟨.hbmRegBudget, t, 0, 0, 0⟩) (8 * cls + 7) (8 * cls))

/-- Bytes served for a class at a regulated unit: 0-7 the controllers, 8 and 9 the pantry halves. The class is demoted there
once its count reaches its budget. -/
def State.account (s : State) (t unit cls bytes : Nat) : State :=
  let k := unit * 8 + cls
  let n := SMap.get 0 (s.tower t).clsBytes k + bytes
  let cap := s.budget t cls * (if unit < 8 then 9830400 else 78643200) / 128
  let past := decide (s.budget t cls < 128 ∧ cap ≤ n)
  let first := past && !SMap.get false (s.tower t).demoted k
  let s1 := s.modTower t fun w =>
    { w with clsBytes := SMap.put 0 w.clsBytes k n, demoted := if past then SMap.put false w.demoted k true else w.demoted }
  if unit < 8 then
    let s2 := s1.bump hbmClsCntBytes bytes t 0 unit cls
    if first then s2.bump hbmClsCntDemoted 1 t 0 unit cls else s2
  else
    let s2 := s1.bump panClsCntBytes bytes t 0 (unit - 8) cls
    if first then s2.bump panClsCntDemoted 1 t 0 (unit - 8) cls else s2

/-- Drain up to n of the oldest writes of a pseudo-channel's write queue (R315). A read-merge-write moves its unit both ways, in
the class of its write. -/
def State.drainWrites : Nat → State → Nat → Nat → Nat → State
  | 0, s, _, _, _ => s
  | n + 1, s, t, st, pc =>
    match SMap.get [] s.mem.wq (pcKey t st pc) with
    | [] => s
    | w :: ws =>
      let s1 := s.modMem fun m => { m with wq := SMap.put [] m.wq (pcKey t st pc) ws }
      State.drainWrites n ((s1.unitWrite t w.unit w.d).account t st w.cls (if w.d.mask = 0xFFFFFFFF#32 then 32 else 64)) t st pc

/-- A write accepted by the controller: dropped and counted at a failed channel (R310), else queued; a full queue drains a
burst first (R315). -/
def State.hbmWrite (s : State) (t un cls : Nat) (d : HbmData) : State :=
  let p := hbmPlace (un * 32)
  if d.mask = 0#32 then s
  else if s.chanFailed t p.stack (p.pc / 2) then s.bump hbmErrCntDropped 1 t 0 p.stack
  else
    let k := pcKey t p.stack p.pc
    let s1 := if (SMap.get [] s.mem.wq k).length < 64 then s else s.drainWrites 16 t p.stack p.pc
    s1.modMem fun m => { m with wq := SMap.put [] m.wq k (SMap.get [] m.wq k ++ [⟨un, d, cls⟩]) }

/-- Byte i of 256 data bits. -/
def unitByte (d : BitVec 256) (i : Nat) : Byte := BitVec.ofNat 8 (d.toNat / 2 ^ (8 * i))

/-- Queued writes of a unit laid over its bytes: a read of bytes held in the write queue is served from it (R315). -/
def overlay (un : Nat) (ws : List HbmWr) (bs : List (BitVec 9)) : List (BitVec 9) :=
  ws.foldl (fun bs w =>
    if w.unit = un then
      (List.range 32).map fun i =>
        if w.d.mask.getLsbD i then BitVec.ofNat 9 ((unitByte w.d.data i).toNat + if w.d.poison.getLsbD i then 256 else 0)
        else bs.getD i 0#9
    else bs) bs

/-- The 32 marked bytes of a unit (R306, R307, R310). -/
def State.hbmRead (s : State) (t un : Nat) : List (BitVec 9) × State :=
  let p := hbmPlace (un * 32)
  if s.chanFailed t p.stack (p.pc / 2) then
    ((List.range 32).map fun i => BitVec.ofNat 9 (256 + Config.freeNat (s.free + i) % 256), s.drawn 32)
  else
    let (r, poison, s1) := s.unitFetch t un 0
    let bs := (List.range 32).map fun i =>
      BitVec.ofNat 9 ((unitByte r.data i).toNat + if r.bad || poison then 256 else 0)
    (overlay un (SMap.get [] s.mem.wq (pcKey t p.stack p.pc)) bs, s1)

/-- Write data of one unit from (position, marked byte) pairs. -/
def hbmData (bs : List (Nat × BitVec 9)) : HbmData :=
  bs.foldl (fun d b =>
    let m : BitVec 256 := BitVec.ofNat 256 (255 * 2 ^ (8 * b.1))
    { data := (d.data &&& ~~~m) ||| BitVec.ofNat 256 ((dataOf b.2).toNat * 2 ^ (8 * b.1))
      mask := d.mask ||| (1#32 <<< b.1)
      poison := if isBad b.2 then d.poison ||| (1#32 <<< b.1) else d.poison &&& ~~~(1#32 <<< b.1) }) ⟨0#256, 0#32, 0#32⟩

/-! ## The firmware package's tables (R217, R221, R451) -/

/-- Bytes of a table and its slot opcodes (R217, Table 07-3). -/
def tableBytes : Nat := 6208
def tableOps : List Nat := [0x60, 0x61, 0x62, 0x63, 0x65, 0x67, 0x69]

/-- The i-th table of an image. -/
def imageTable (img : List Byte) (i : Nat) : List Byte := (img.drop (i * tableBytes)).take tableBytes
/-- The function that a table's header names. -/
def tableFn (tb : List Byte) : Nat := leNat ((tb.drop 5).take 1)

/-- Where the component of a type lies in a firmware package: its offset and length (Table 15-3). -/
def pkgComponent (pkg : List Byte) (type : Nat) : Option (Nat × Nat) :=
  ((List.range (leNat ((pkg.drop 6).take 2))).find? fun i => leNat ((pkg.drop (512 + 64 * i)).take 1) = type).map fun i =>
    (leNat ((pkg.drop (512 + 64 * i + 8)).take 8), leNat ((pkg.drop (512 + 64 * i + 4)).take 4))

/-- The default table of a slot: that of the running package's component 2, none before a package is loaded. -/
def State.packageTable (s : State) (slot : Nat) : Option (List Byte) :=
  match pkgComponent s.mod.pkg 2 with
  | none => none
  | some (off, len) =>
    let img := (s.mod.pkg.drop off).take len
    ((List.range (len / tableBytes)).find? fun i => tableFn (imageTable img i) = tableOps.getD slot 0).map fun i => imageTable img i

/-- An entry of it, 24 bytes. -/
def State.packageEntry (s : State) (slot e : Nat) : Option (BitVec 192) :=
  (s.packageTable slot).map fun tb => BitVec.ofNat 192 (leNat ((tb.drop (64 + 24 * e)).take 24))

end Sys2Proof.Machine
end

