-- ==== Sys2Proof/Machine/Cvu.lean ====
section
/-! DEFINITION. Check-value units (R443-R450): parameters of a context, taking bytes, closes, taps and boundaries. Registers
of a cluster's unit have its logical number as their unit, port p has 128 + p, the bridge 136. -/

namespace Sys2Proof.Machine

def cvuKey (t u i : Nat) : Nat := (t * 137 + u) * 8 + i
/-- A context right after a reset of its unit. -/
def CvuCtx.init : CvuCtx := ⟨0xFFFFFFFFFFFFFFFF#64, 0, false, false, false⟩
def State.ctx (s : State) (t u i : Nat) : CvuCtx := SMap.get CvuCtx.init s.cvu (cvuKey t u i)
def State.setCtx (s : State) (t u i : Nat) (x : CvuCtx) : State :=
  { s with cvu := SMap.put CvuCtx.init s.cvu (cvuKey t u i) x }

/-- The width that the width field stands for. -/
def cvuWidth (f : Nat) : Nat := clampN 1 64 f

/-- The parameters in effect of a context (R443, R444). -/
def State.cvuPar (s : State) (t u i : Nat) : CrcPar :=
  if s.flag cvuCtlCompat t u i then crcCompat (s.fget cvuCtlCompatCode t u i)
  else
    let w := cvuWidth (s.fget cvuCtlWidth t u i)
    { w := w, poly := s.fget cvuPolyValue t u i % 2 ^ w, refin := s.flag cvuCtlRefin t u i, refout := s.flag cvuCtlRefout t u i
      xorout := s.fget cvuXoroutValue t u i % 2 ^ w }

/-- A close (R448): the result, the check, the signal, and poisoned cleared. -/
def State.cvuClose (s : State) (t u i : Nat) : State :=
  let p := s.cvuPar t u i
  let x := s.ctx t u i
  let r := crcResult p (x.run.toNat % 2 ^ p.w)
  let s1 := (s.setReg ⟨.cvuResult, t, u, i, 0⟩ (BitVec.ofNat 64 r)).bump cvuStatusCloses 1 t u i
  let mis := s.flag cvuCtlCheck t u i && (x.poisoned || r != s.fget cvuExpectValue t u i % 2 ^ p.w)
  let unit := if u < 128 then 0 else if u < 136 then 1 else 2
  let s2 := if mis then
      (s1.fset cvuStatusMismatch 1 t u i).logEvent 0x0036 1 t
        [unit * 2 ^ 24 + (if u < 128 then u else if u < 136 then u - 128 else 0) * 2 ^ 16 + i, r % 2 ^ 32]
    else s1
  let s3 := if s.flag cvuCtlSignal t u i then
      s2.arriveT t (if u < 128 then u else s.fget cvuCtlSigCluster t u i) (s.fget cvuCtlTally t u i) 1
    else s2
  s3.setCtx t u i { s3.ctx t u i with poisoned := false }

/-- A context takes marked bytes in order; `ends` tells that a job it takes ends with them (R447, R448). -/
def State.cvuTake (s : State) (t u i : Nat) (bs : List (BitVec 9)) (ends : Bool) : State :=
  let x := s.ctx t u i
  if x.done then s
  else
    let lim := s.fget cvuLimitBytes t u i
    let take := if lim = 0 then bs else bs.take (lim - x.bytes)
    let p := s.cvuPar t u i
    let run := crcRun p (x.run.toNat % 2 ^ p.w) (take.map dataOf)
    let n := x.bytes + take.length
    let full := lim ≠ 0 && decide (lim ≤ n)
    let s1 := s.setCtx t u i
      { x with run := BitVec.ofNat 64 run, bytes := n, poisoned := x.poisoned || take.any isBad, done := full }
    if full || (lim = 0 && ends) then s1.cvuClose t u i else s1

/-- Every context of a unit whose tap passes a test takes the bytes. -/
def State.cvuTap (s : State) (t u : Nat) (p : Nat → Bool) (bs : List (BitVec 9)) (ends : Bool) : State :=
  (List.range 8).foldl (fun s i => if p i then s.cvuTake t u i bs ends else s) s

/-- A hatch job of a cluster with a tally moved bytes, and ended (R447). -/
def State.cvuHatch (s : State) (t c tally : Nat) (bs : List (BitVec 9)) : State :=
  s.cvuTap t c (fun i => s.fget cvuCtlKind t c i = 1 && s.fget cvuCtlMatch t c i = tally) bs true

/-- A packet of a port: transmit (kind 2) or receive (kind 3), its channel and the other module. -/
def State.cvuPort (s : State) (t p kind vc module : Nat) (bs : List (BitVec 9)) : State :=
  let u := 128 + p
  s.cvuTap t u (fun i => s.fget cvuCtlKind t u i = kind && s.fget cvuCtlVc t u i = vc &&
    (!s.flag cvuCtlFilter t u i || s.fget cvuCtlModule t u i = module)) bs false

/-- Data through the bridge for a directory slot: downstream (kind 2) or upstream (kind 3). -/
def State.cvuBridge (s : State) (t kind slot : Nat) (bs : List (BitVec 9)) : State :=
  s.cvuTap t 136 (fun i => s.fget cvuCtlKind t 136 i = kind && s.fget cvuCtlModule t 136 i % 64 = slot) bs false

/-- At a boundary a context applies its committed values (R446); a running value written since the last commit replaces
the running value. Bytes are taken within one command, so a boundary stands between any two (DEDUCED, log entry 40). -/
def State.cvuApply (s : State) (t u i : Nat) : State :=
  let s1 := [RegName.cvuCtl, .cvuPoly, .cvuRun, .cvuXorout, .cvuExpect, .cvuLimit].foldl (fun (s : State) r =>
    (s.lockOne ⟨r, t, u, i, 0⟩).activate ⟨r, t, u, i, 0⟩) s
  let x := s1.ctx t u i
  if x.newRun then s1.setCtx t u i { x with run := s1.reg ⟨.cvuRun, t, u, i, 0⟩, newRun := false } else s1

/-- A commit of a unit's staged values. -/
def State.cvuCommitAll (s : State) (t u : Nat) : State := (List.range 8).foldl (fun s i => s.cvuApply t u i) s

/-- A unit's registers and contexts return to their reset values (R450). -/
def State.cvuReset (s : State) (t u : Nat) : State :=
  let s1 := s.resetRegs t u fun r => r.place.blk = .cvu
  { s1 with cvu := s1.cvu.filter fun e => e.1 / 8 ≠ t * 137 + u }

/-- Tower and unit of a check-value unit. -/
def cvuOf : CvuRef → Nat × Nat
  | .cluster t c => (t, c)
  | .port t p => (t, 128 + p)
  | .bridge t => (t, 136)

/-- CVU_COMMIT_WRITE (R446): writing 1 commits; T2 and T3 have no bridge unit. -/
def execCvuCommitWrite (u : CvuRef) (v : W32) (s : State) : Out :=
  let (t, k) := cvuOf u
  if k = 136 ∧ 2 ≤ t then .next s
  else if v.getLsbD 0 then .next (s.cvuCommitAll t k) else .next s

end Sys2Proof.Machine
end

