-- ==== Sys2Proof/Machine/Guard.lean ====
section
/-! DEFINITION. The precision guard (R120-R141): tag entries, policies, the counts of an invocation, their folding and
evaluation, overflow, and escalation. -/

namespace Sys2Proof.Machine

/-- Key of a tower's tag entry; tags that agree in [11:0] share one (R120). -/
def tagKey (t tag : Nat) : Nat := t * 4096 + tag % 4096
/-- The tag that is tracked nowhere (R120). -/
def noTag : Nat := 0xFFFF

def State.tag (s : State) (t tag : Nat) : TagEntry := SMap.get default s.tags (tagKey t tag)
def State.modTag (s : State) (t tag : Nat) (f : TagEntry → TagEntry) : State :=
  if tag = noTag then s else { s with tags := SMap.put default s.tags (tagKey t tag) (f (s.tag t tag)) }

/-- The defaults of Table 04-2. -/
def GuardPolicy.init : GuardPolicy := ⟨1, 16, 320, 100, 64, 0, 3, 0⟩
/-- The policy of a tag entry; it is the same on every tower. -/
def State.pol (s : State) (tag : Nat) : GuardPolicy := SMap.get GuardPolicy.init s.policy (tag % 4096)
/-- The module-wide escalation state of a tag entry (R135). -/
def State.escOf (s : State) (tag : Nat) : Esc := SMap.get .native s.esc (tag % 4096)
def State.setEsc (s : State) (tag : Nat) (e : Esc) : State := { s with esc := SMap.put .native s.esc (tag % 4096) e }

/-- The tag's map is switched: its role-0 F4 and Q4 tensors are F8E4M3 (R137, R138). -/
def State.escalated (s : State) (tag : Nat) : Bool :=
  tag ≠ noTag && (s.escOf tag = .escalated || s.escOf tag = .releasePending)
/-- Escalation applies to a tower's role-0 access of a tag whose format is F4 or Q4 (R134). -/
def State.escFor (s : State) (t tag fmt : Nat) : Bool :=
  s.escalated tag && (fmt = 6 || fmt = 7) && (match (s.tag t tag).native with | some f => f = 6 || f = 7 | none => true)

/-- τ of a quantising write (R72, R120). -/
def State.tau (s : State) (tag : Nat) : ℚ := if tag = noTag then 4 else ((s.pol tag).tau : ℚ) / 16

/-! ## Saturating counts and binary64 totals -/

def satAdd (bits a b : Nat) : Nat := min (2 ^ bits - 1) (a + b)
/-- A running binary64 total plus an exact sum rounded once (R123). -/
def addF64 (w : W64) (q : ℚ) : W64 :=
  let x := fmtF64.decode (fmtF64.round .rne (.fin false q)).1
  BitVec.ofNat 64 (fmtF64.round .rne ((fmtF64.decode w.toNat).add x)).1
/-- Counts of a list advanced place by place. -/
def addCounts (l : List Nat) (d : List Nat) : List Nat :=
  d.zipIdx.map fun x => satAdd 64 (l.getD x.2 0) x.1

/-! ## Counts of one quantising write -/

/-- What a quantising write counts: elements, clips, sprouts, NaN inputs, signal and noise energy (R123). -/
structure QCount where
  elems : Nat
  clips : Nat
  sprouts : Nat
  nans : Nat
  energy : ℚ
  noise : ℚ
  deriving DecidableEq, Repr

def QCount.zero : QCount := ⟨0, 0, 0, 0, 0, 0⟩
def QCount.plus (a b : QCount) : QCount :=
  ⟨a.elems + b.elems, a.clips + b.clips, a.sprouts + b.sprouts, a.nans + b.nans, a.energy + b.energy, a.noise + b.noise⟩

/-- A fresh count of an invocation. -/
def GuardAcc.new (owner tag : Nat) : GuardAcc :=
  { owner := owner, tag := tag, elems := 0, energy := 0, noise := 0, clips := 0, sprouts := 0, nans := 0, sElems := 0,
    sEnergy := 0, sNoise := 0, sClips := 0, sSprouts := 0, writes := [], use := 0 }

/-- Add a write to an invocation's counts; role 0 also notes its target format. -/
def GuardAcc.note (a : GuardAcc) (role fmt : Nat) (q : QCount) (use : Nat) : GuardAcc :=
  if role = 0 then
    { a with elems := a.elems + q.elems, energy := a.energy + q.energy, noise := a.noise + q.noise, clips := a.clips + q.clips
             sprouts := a.sprouts + q.sprouts, nans := a.nans + q.nans, writes := a.writes ++ [fmt], use := use }
  else
    { a with sElems := a.sElems + q.elems, sEnergy := a.sEnergy + q.energy, sNoise := a.sNoise + q.noise
             sClips := a.sClips + q.clips, sSprouts := a.sSprouts + q.sprouts, use := use }

/-- Join two parts of one invocation. -/
def GuardAcc.join (a b : GuardAcc) : GuardAcc :=
  { a with elems := a.elems + b.elems, energy := a.energy + b.energy, noise := a.noise + b.noise, clips := a.clips + b.clips
           sprouts := a.sprouts + b.sprouts, nans := a.nans + b.nans, sElems := a.sElems + b.sElems, sEnergy := a.sEnergy + b.sEnergy
           sNoise := a.sNoise + b.sNoise, sClips := a.sClips + b.sClips, sSprouts := a.sSprouts + b.sSprouts
           writes := a.writes ++ b.writes }

/-! ## Folding (R122-R124, R134) -/

/-- An invocation's counts enter a tag entry; the part that evaluation needs joins what the invocation folded before. -/
def TagEntry.fold (y : TagEntry) (a : GuardAcc) : TagEntry :=
  let native := match y.native with | some f => some f | none => a.writes.head?
  let mis := match native with | some f => (a.writes.filter (· ≠ f)).length | none => 0
  let seen := y.pendingEval.any fun p => p.owner = a.owner
  let pend :=
    if a.elems = 0 then y.pendingEval
    else if seen then y.pendingEval.map fun p => if p.owner = a.owner then p.join a else p
    else y.pendingEval ++ [a]
  { y with
    q := addCounts y.q [a.elems, a.clips, a.sprouts, a.nans], qEnergy := addF64 y.qEnergy a.energy, qError := addF64 y.qError a.noise
    s := addCounts y.s [a.sElems, a.sClips, a.sSprouts], sEnergy := addF64 y.sEnergy a.sEnergy, sError := addF64 y.sError a.sNoise
    invocations := if a.elems = 0 ∨ seen then y.invocations else satAdd 32 y.invocations 1
    native := native, mismatch := satAdd 64 y.mismatch mis, pendingEval := pend }

/-- Fold an invocation's counts into a tower's table. -/
def State.fold (s : State) (t : Nat) (a : GuardAcc) : State := s.modTag t a.tag fun y => y.fold a

/-- A cluster counts a write; a fifth tag of one invocation folds the least recently used one early (R122). -/
def State.noteWrite (s : State) (t c owner tag role fmt : Nat) (q : QCount) : State :=
  if tag = noTag then s
  else
    let l := (s.clu t c).acc
    let use := 1 + (l.map GuardAcc.use).foldl max 0
    match l.find? fun a => a.owner = owner && a.tag % 4096 = tag % 4096 with
    | some _ => s.modClu t c fun x => { x with acc := l.map fun a =>
        if a.owner = owner ∧ a.tag % 4096 = tag % 4096 then a.note role fmt q use else a }
    | none =>
      let fresh := (GuardAcc.new owner tag).note role fmt q use
      let mine := l.filter fun a => a.owner = owner
      match mine with
      | m :: ms =>
        if 4 ≤ mine.length then
          let old := ms.foldl (fun a b => if b.use < a.use then b else a) m
          (s.fold t old).modClu t c fun x => { x with acc := (l.filter fun a => a ≠ old) ++ [fresh] }
        else s.modClu t c fun x => { x with acc := l ++ [fresh] }
      | [] => s.modClu t c fun x => { x with acc := l ++ [fresh] }

/-- The invocation of a command completes on a cluster: its counts are folded (R122). -/
def State.foldOwner (s : State) (t c owner : Nat) : State :=
  let mine := (s.clu t c).acc.filter fun a => a.owner = owner
  (mine.foldl (fun s a => s.fold t a) s).modClu t c fun x => { x with acc := x.acc.filter fun a => a.owner ≠ owner }

/-- An invocation that a command of the tower made by itself (COPY, FILL, CFL). -/
def State.foldDirect (s : State) (t owner tag role fmt : Nat) (q : QCount) : State :=
  s.fold t ((GuardAcc.new owner tag).note role fmt q 0)

/-! ## Read-side counts and overflow (R125, R126) -/

/-- Counts of the array for a tag: sprouts, clips, invalid codes decoded, and F8 saturations at the drain. -/
def State.noteDecode (s : State) (t tag sprouts clips invalid oClips : Nat) : State :=
  s.modTag t tag fun y => { y with d := addCounts y.d [sprouts, clips, invalid], oClips := satAdd 64 y.oClips oClips }

/-- A job overflowed. (DEDUCED, log entry 126.) -/
def State.overflow (s : State) (t tag : Nat) : State :=
  if tag = noTag then s
  else
    let first := !(s.tag t tag).ovf
    let s1 := s.modTag t tag fun y =>
      { y with ovf := true, ovfCount := satAdd 64 y.ovfCount 1, ovfLast := s.stamp t
               ovfStamp := if first then BitVec.ofNat 64 (s.stamp t) else y.ovfStamp }
    if first then s1.modMod fun m => { m with ovfEvent := (List.range 4).map fun i => i = t || m.ovfEvent.getD i false } else s1

/-! ## Evaluation (R124, R133) -/

/-- The F32 SQNR of an invocation: +Inf without noise, NaN without signal. -/
def sqnrOf (a : GuardAcc) : W32 :=
  if a.energy = 0 then 0x7FC00000#32 else if a.noise = 0 then 0x7F800000#32 else Config.sqnrDb (a.energy / a.noise)

/-- A bad invocation: SQNR below the floor or clip rate above the ceiling; none when it counts as neither. -/
def isBadRun (p : GuardPolicy) (a : GuardAcc) : Option Bool :=
  if a.energy = 0 then none
  else
    let low := match f32 (sqnrOf a) with
      | .fin _ q => decide (q < (p.floor : ℚ) / 16)
      | .inf n => n
      | .nan => false
    some (low || decide (p.ceiling * a.elems < a.clips * 1000000))

/-- An invocation is evaluated (R133): a run of bad ones as long as the window makes the tag pending, or a report. -/
def State.evaluate (s : State) (t tag : Nat) (a : GuardAcc) : State :=
  let p := s.pol tag
  let s0 := s.modTag t tag fun y => { y with pendingEval := y.pendingEval.filter fun x => x ≠ a }
  if p.mode = 0 ∨ s.escalated tag then s0
  else
    let s1 := s0.modTag t tag fun y => { y with lastSqnr := sqnrOf a }
    match isBadRun p a with
    | none => s1
    | some false => s1.modTag t tag fun y => { y with badRun := 0 }
    | some true =>
      let n := (s1.tag t tag).badRun + 1
      if n < p.window then s1.modTag t tag fun y => { y with badRun := n }
      else
        let s2 := s1.modTag t tag fun y => { y with badRun := 0 }
        if p.mode = 2 ∧ ((s2.tag t tag).native = some 6 ∨ (s2.tag t tag).native = some 7) then
          (if s2.escOf tag = .native then (s2.setEsc tag .pending).logEvent 0x0031 0 t [tag % 4096, 1] else s2)
        else s2.modTag t tag fun y => { y with reports := satAdd 16 y.reports 1 }

/-- GUARD_EVALUATE: one folded invocation whose command has completed is evaluated. -/
def execGuardEvaluate (t : Fin 4) (tag : Fin 4096) (s : State) : Host.Outcome State Fault Refusal :=
  let live (o : Nat) : Bool := s.mod.launches.any fun l => l.id = o
  match (s.tag t tag).pendingEval.find? fun a => !live a.owner with
  | none => .next s
  | some a => .next (s.evaluate t tag a)

/-! ## The policy record (R131, R132, R140) -/

/-- One field of GUARD_POLICY in its range, and whether it was changed. -/
def clampPolicy (i v : Nat) : Nat × Bool :=
  let k (lo hi : Nat) : Nat × Bool := (clampN lo hi v, clampN lo hi v ≠ v)
  match i with
  | 0 => k 0 2
  | 1 => k 1 1024
  | 2 => k 0 960
  | 3 => k 0 1000000
  | 4 => k 24 1024
  | 5 => if v = 0 then (0, false) else k 4 16
  | 6 => if v = 3 ∨ v = 4 then (v, false) else (3, true)
  | 7 =>
    let x := signedOf 32 v
    let y := max (-1048512) (min 1048512 x)
    let z := Int.tdiv y 64 * 64
    (codeOf 32 z, z ≠ x)
  | _ => k 0 7

/-- A tag entry's policy with supplied fields in place. -/
def GuardPolicy.apply (p : GuardPolicy) (f : List Nat) : GuardPolicy :=
  { mode := f.getD 0 p.mode, window := f.getD 1 p.window, floor := f.getD 2 p.floor, ceiling := f.getD 3 p.ceiling
    tau := f.getD 4 p.tau, shadowLog2 := f.getD 5 p.shadowLog2, shadowFmt := f.getD 6 p.shadowFmt
    shadowDelta := match f[7]? with | some v => signedOf 32 v | none => p.shadowDelta }

/-- The statistics that clear bit 0 zeroes: every count, sum, histogram and bad_run. -/
def TagEntry.clearStats (y : TagEntry) : TagEntry :=
  { (default : TagEntry) with lastSqnr := y.lastSqnr, ovf := y.ovf, ovfStamp := y.ovfStamp, ovfLast := y.ovfLast
                              escStamp := y.escStamp, native := y.native, pendingEval := y.pendingEval }

/-- Clear one entry on every tower. -/
def State.eachTag (s : State) (tag : Nat) (f : TagEntry → TagEntry) : State :=
  (List.range 4).foldl (fun s t => s.modTag t tag f) s

/-- Apply a GUARD_POLICY to one entry: its fields, then its clear action. -/
def State.applyPolicy (s : State) (tag : Nat) (f : List Nat) : State :=
  let p := s.pol tag
  let p1 := p.apply f
  let s1 := { s with policy := SMap.put GuardPolicy.init s.policy (tag % 4096) p1 }
  let s2 := if p1.window ≠ p.window ∨ p1.floor ≠ p.floor ∨ p1.ceiling ≠ p.ceiling then s1.eachTag tag fun y => { y with badRun := 0 } else s1
  let s3 := if f ≠ [] ∧ p1.mode ≤ 1 ∧ s2.escOf tag = .pending then s2.setEsc tag .native else s2
  let c := f.getD 8 0
  let s4 := if c % 2 = 1 then s3.eachTag tag TagEntry.clearStats else s3
  let s5 := if c / 2 % 2 = 1 then
      (List.range 4).foldl (fun s t => s.modTag t tag fun y =>
        if y.ovf ∧ y.ovfLast / 200 = s.stamp t / 200 then y else { y with ovf := false }) s4 else s4
  if c / 4 % 2 = 1 then
    match s5.escOf tag with
    | .escalated => (s5.setEsc tag .releasePending).logEvent 0x0031 0 s5.mod.lead [tag % 4096, 2]
    | .pending => (s5.setEsc tag .native).eachTag tag fun y => { y with badRun := 0 }
    | _ => s5
  else s5

/-- A guard epoch (R135, R140): every pending tag switches at one stamp; the number that changed. -/
def State.guardEpoch (s : State) : Nat × State :=
  let ch := s.esc.filter fun e => e.2 = .pending || e.2 = .releasePending
  let s1 := ch.foldl (fun (s : State) (e : Nat × Esc) =>
    let back := decide (e.2 = .releasePending)
    (s.setEsc e.1 (if back then .native else .escalated)).eachTag e.1 fun y =>
      { y with escStamp := BitVec.ofNat 64 (s.stamp s.mod.lead), badRun := if back then 0 else y.badRun
               native := if back then none else y.native }) s
  let s2 := s1.modMod fun m => { m with epoch := m.epoch + 1, epochChange := m.epochChange || !ch.isEmpty }
  (ch.length, s2.logEvent 0x0032 0 s.mod.lead [ch.length, s2.mod.epoch.toNat])

end Sys2Proof.Machine
end

