-- ==== Sys2Proof/Machine/Pantry.lean ====
section
/-! DEFINITION. The pantry: placement (R275, R276, R290), lookups, fills, evictions, far lines, dead lines, and the class
counts of the regulated units (R278-R284, R290-R292, R298, R311, R312). -/

namespace Sys2Proof.Machine

/-! ## HBM lines -/

/-- A unit read for a class; bytes all held in the write queue are served from it (R315) and move nothing on the interface. -/
def State.hbmReadC (s : State) (t un cls : Nat) : List (BitVec 9) × State :=
  let p := hbmPlace (un * 32)
  let held := (SMap.get [] s.mem.wq (pcKey t p.stack p.pc)).foldl (fun m w => if w.unit = un then m ||| w.d.mask else m) 0#32
  let (b, s1) := s.hbmRead t un
  (b, if held = 0xFFFFFFFF#32 then s1 else s1.account t p.stack cls 32)

/-- A unit write for a class. -/
def State.hbmWriteC (s : State) (t un cls : Nat) (d : HbmData) : State := s.hbmWrite t un cls d

/-- The four units of a line read from HBM. -/
def State.lineFetch (s : State) (t line cls : Nat) : List (BitVec 9) × State :=
  (List.range 4).foldl (fun a i =>
    let (b, s1) := a.2.hbmReadC t (line * 4 + i) cls
    (a.1 ++ b, s1)) ([], s)

/-- Bytes (position in the line, marked byte) written to HBM under their mask. -/
def State.lineStore (s : State) (t line cls : Nat) (bs : List (Nat × BitVec 9)) : State :=
  (List.range 4).foldl (fun s i =>
    s.hbmWriteC t (line * 4 + i) cls (hbmData ((bs.filter fun b => b.1 / 32 = i).map fun b => (b.1 % 32, b.2)))) s

/-! ## Placement (R275, R276, R290) -/

/-- Private granules of a die in every bay (R232, R233). -/
def State.priv (s : State) (t die : Nat) : Nat := min 12 (s.fget celSplitPrivate t die)

/-- G, the pantry granules per bay. -/
def State.granules (s : State) (t : Nat) : Nat := 24 - s.priv t 0 - s.priv t 1

/-- S, the sets of a half. -/
def State.sets (s : State) (t : Nat) : Nat := 496 * 64 * s.granules t

/-- Half and set of a placement key. -/
def State.panSet (s : State) (t key : Nat) : Nat × Nat :=
  let half := (bitsOf key 0 0 + bitsOf key 8 8 + bitsOf key 16 16 + bitsOf key 24 24) % 2
  let S := s.sets t
  (half, if S = 0 then 0 else (key % S + 2533 * (key / S)) % S)

/-- Die, logical cluster of the bay, row and first byte of a way of a set. -/
def State.waySite (s : State) (t half set way : Nat) : Nat × Nat × Nat × Nat :=
  let j := set / 496
  let g := set % 496 / 8
  let slot := set % 8
  let p := j / 64
  let pu := s.priv t 0
  let pl := s.priv t 1
  let (die, gr) := if p < 12 - pu then (0, pu + p) else (1, pl + p - (12 - pu))
  (die, half * 64 + j % 64, gr * 2048 + 33 * g + 1 + 4 * slot + way / 4, way % 4 * 128)

/-- The placement key of a line: local, or of a remote module (R290). -/
def panKeyOf (line : Nat) (far : Option Nat) : Nat :=
  match far with
  | none => line % 2 ^ 32
  | some m => (line % 2 ^ 32) ^^^ (m * 2 ^ 20) ^^^ (line / 2 ^ 32 % 4 * 2 ^ 18)

def wayKey (t half set way : Nat) : Nat := ((t * 2 + half) * 2 ^ 20 + set) * 16 + way

def State.way (s : State) (t half set w : Nat) : Option PLine := SMap.get none s.mem.pantry (wayKey t half set w)
def State.setWay (s : State) (t half set w : Nat) (l : Option PLine) : State :=
  s.modMem fun m => { m with pantry := SMap.put none m.pantry (wayKey t half set w) l }

/-- Far ways per set and the larder quota in force (R286, R290, R301). -/
def State.farWays (s : State) (t : Nat) : Nat := min 4 (s.fget panPolicyFarWays t)
def State.quota (s : State) (t : Nat) : Nat := min (15 - s.farWays t) (min 12 (s.fget panPolicyLarderQuota t))
/-- Whether a class bypasses the pantry on a miss (R281). -/
def State.bypass (s : State) (t cls : Nat) : Bool := bit (BitVec.ofNat 64 (s.fget panPolicyBypassClasses t)) cls

/-- The way that holds a line. -/
def State.panFind (s : State) (t line : Nat) (far : Option Nat) : Option (Nat × PLine) :=
  let (half, set) := s.panSet t (panKeyOf line far)
  (List.range 16).findSome? fun w =>
    match s.way t half set w with
    | some l => if l.line = line ∧ l.far = far then some (w, l) else none
    | none => none

/-- A fill is pending for a line. -/
def State.filling (s : State) (t half line : Nat) (far : Option Nat) : Bool :=
  (SMap.get [] s.mem.fills (t * 2 + half)).any fun f => f.line = line && f.far = far

/-! ## Line bytes -/

/-- Bytes of a way. -/
def State.wayRead (s : State) (t half set w : Nat) : List (BitVec 9) × State :=
  let (die, c, row, b0) := s.waySite t half set w
  let (bs, s1) := s.rowRead t die (s.phys t c) row 1
  ((bs.drop b0).take 128, s1)

/-- Bytes written into a way. -/
def State.wayWrite (s : State) (t half set w : Nat) (bs : List (Nat × BitVec 9)) : State :=
  let (die, c, row, b0) := s.waySite t half set w
  s.rowWrite t die (s.phys t c) row (bs.map fun b => (b0 + b.1, b.2))

/-- PAN_ERR records the first uncorrectable byte (R284): cause 0 dirty line, 1 HBM fill, 2 PK1 fill. -/
def State.panErr (s : State) (t line cause : Nat) (bs : List (BitVec 9)) : State :=
  if bs.any isBad && !s.flag panErrValid t then
    s.setReg ⟨.panErr, t, 0, 0, 0⟩
      (BitVec.ofNat 64 (2 ^ 63 + cause * 2 ^ 61 + (t * 2 ^ 39 + line % 2 ^ 32 * 128 + bs.findIdx isBad) % 2 ^ 41))
  else s

/-- Bytes of a line that are present. -/
def presentMask (l : PLine) : BitVec 128 := if l.st = .part then l.mask else BitVec.allOnes 128

/-- The next use number of a set (R282's replacement order). -/
def State.nextUse (s : State) (t half set : Nat) : Nat :=
  1 + ((List.range 16).map fun w => match s.way t half set w with | some l => l.use | none => 0).foldl max 0

/-- Mark a way used. -/
def State.touch (s : State) (t half set w : Nat) : State :=
  match s.way t half set w with
  | some l => s.setWay t half set w (some { l with use := s.nextUse t half set })
  | none => s

/-- A dirty or partial line written back with its present bytes under a mask (R282). -/
def State.writeBack (s : State) (t half set w : Nat) (l : PLine) : State :=
  if l.st = .clean then s
  else
    let (bs, s1) := s.wayRead t half set w
    let keep := (numbered 0 bs).filter fun b => (presentMask l).getLsbD b.1
    (s1.lineStore t l.line 1 keep).bump panHcntCount 1 t 0 half 4

/-- A line leaves its way, written back first. -/
def State.evict (s : State) (t half set w : Nat) : State :=
  match s.way t half set w with
  | none => s
  | some l => (s.writeBack t half set w l).setWay t half set w none

/-- The way that a new line takes (R282): a free choice among invalid ways, else the least recently used one that is not
pinned and has no pending fill; none when no way is eligible. -/
def State.pickWay (s : State) (t half set : Nat) (far : Bool) : Option Nat × State :=
  let ws := (List.range 16).filter fun w => decide (16 - s.farWays t ≤ w) == far
  let empty := ws.filter fun w => (s.way t half set w).isNone
  if empty.isEmpty then
    let ok := ws.filterMap fun w =>
      match s.way t half set w with
      | some l => if l.pinned || s.filling t half l.line l.far then none else some (l.use, w)
      | none => none
    match ok with
    | [] => (none, s)
    | e :: es => (some (es.foldl (fun a b => if b.1 < a.1 then b else a) e).2, s)
  else (some (empty.getD (s.free1 % empty.length) 0), s.drawn 1)

/-- Partial lines of a half, oldest first. -/
def State.partials (s : State) (t half : Nat) : List (Nat × PLine) :=
  s.mem.pantry.filterMap fun e =>
    match e.2 with
    | some l => if e.1 / 2 ^ 24 = t * 2 + half ∧ l.st = .part then some (e.1, l) else none
    | none => none

/-- Complete a partial line with a fetch and merge (R278). -/
def State.mergeLine (s : State) (t half set w cls : Nat) : State :=
  match s.way t half set w with
  | none => s
  | some l =>
    let (bs, s1) := s.lineFetch t l.line cls
    let add := (numbered 0 bs).filter fun b => !(presentMask l).getLsbD b.1
    let s2 := s1.panErr t l.line 1 (bs.zipIdx.map fun b => if (presentMask l).getLsbD b.2 then 0#9 else b.1)
    (s2.wayWrite t half set w add).setWay t half set w (some { l with st := .dirty, mask := 0#128 })

/-- Before one more partial line: the oldest one is completed when a half holds 8,192 (R278). -/
def State.limitPartials (s : State) (t half : Nat) : State :=
  let ps := s.partials t half
  if ps.length < 8192 then s
  else
    match ps with
    | [] => s
    | p :: rest =>
      let o := rest.foldl (fun a b => if b.2.born < a.2.born then b else a) p
      (s.mergeLine t half (o.1 / 16 % 2 ^ 20) (o.1 % 16) 1).bump panHcntCount 1 t 0 half 5

/-! ## Dead lines (R298) -/

/-- A dropped dirty line enters the filter of its home tower. -/
def State.deadLine (s : State) (t line : Nat) : State :=
  if s.flag panPolicyDeadLog t then
    let f := (s.tower t).deadFilter.filter (· ≠ line) ++ [line]
    let s1 := s.modTower t fun w => { w with deadFilter := f.drop (f.length - 4096) }
    if 4096 < f.length then s1.bump panDeadCtlLost 1 t else s1
  else s

/-- A read or a write of a line meets the filter: a read logs a dead read in the ring of 64, a write only removes it. -/
def State.deadTouch (s : State) (t line req : Nat) (read : Bool) : State :=
  if s.flag panPolicyDeadLog t && (s.tower t).deadFilter.contains line then
    let s1 := s.modTower t fun w => { w with deadFilter := w.deadFilter.filter (· ≠ line) }
    if !read then s1
    else if (s.tower t).deadLog.length < 64 then
      s1.modTower t fun w => { w with deadLog := w.deadLog ++ [⟨line, req, BitVec.ofNat 64 (s.stamp t)⟩] }
    else s1.bump panDeadCtlLost 1 t
  else s

/-! ## Lookups -/

/-- One lookup: 128 bytes of its class at the half; accesses to unpinned local lines count (R288). -/
def State.lookupCost (s : State) (t half cls : Nat) (pinned miss : Bool) : State :=
  let s1 := s.account t (8 + half) cls 128
  if pinned then s1
  else s1.modTower t fun w =>
    { w with accUnpinned := w.accUnpinned + 1, missUnpinned := if miss then w.missUnpinned + 1 else w.missUnpinned }

/-- Place a filled or written line in a way; none when no way is eligible (a bypass, counted). -/
def State.place (s : State) (t half set line : Nat) (far : Option Nat) (st : LineState) (bs : List (Nat × BitVec 9)) :
    Option State × State :=
  let (w, s1) := s.pickWay t half set far.isSome
  match w with
  | none => (none, s1.bump panHcntCount 1 t 0 half 3)
  | some w =>
    let s2 := s1.evict t half set w
    let full := decide (bs.length = 128)
    let s3 := if st = .part ∧ !full then s2.limitPartials t half else s2
    let born := 1 + ((s3.partials t half).map fun p => p.2.born).foldl max 0
    let mask : BitVec 128 := bs.foldl (fun m b => m ||| (1#128 <<< b.1)) 0#128
    let l : PLine :=
      { line := line, far := far, st := if st = .part ∧ full then .dirty else st
        mask := if st = .part ∧ !full then mask else 0#128
        pinned := false, use := s3.nextUse t half set, born := if st = .part ∧ !full then born else 0 }
    let s4 := (s3.wayWrite t half set w bs).setWay t half set w (some l)
    (some s4, s4)

/-- Place a line and keep the state whichever way it went. -/
def State.placeOr (s : State) (t half set line : Nat) (far : Option Nat) (st : LineState) (bs : List (Nat × BitVec 9)) : State :=
  (s.place t half set line far st bs).2

/-- Serve a read from a resident line that has the bytes; a clean line with an uncorrectable byte is dropped and fetched
again once (R284). -/
def State.hitRead (s : State) (t half set w cls : Nat) (l : PLine) (lo n : Nat) : List (BitVec 9) × State :=
  let (bs, s1) := s.wayRead t half set w
  let want := (bs.drop lo).take n
  if want.any isBad then
    if l.st = .clean then
      let (fs, s2) := s1.lineFetch t l.line cls
      let s3 := (s2.panErr t l.line 1 fs).wayWrite t half set w (numbered 0 fs)
      ((fs.drop lo).take n, s3.touch t half set w)
    else (want, (s1.panErr t l.line 0 ((List.range 128).map fun i => if lo ≤ i ∧ i < lo + n then bs.getD i 0#9 else 0#9)).touch
      t half set w)
  else (want, s1.touch t half set w)

/-- A read of n bytes at byte lo of a local line, served at once (R278, R281, R282). -/
def State.panRead (s : State) (t line lo n cls req : Nat) : List (BitVec 9) × State :=
  let (half, set) := s.panSet t line
  let s0 := s.deadTouch t line req true
  match s0.panFind t line none with
  | some (w, l) =>
    let need := (List.range n).all fun i => (presentMask l).getLsbD (lo + i)
    let s1 := s0.lookupCost t half cls l.pinned (!need)
    if need then (s1.bump panHcntCount 1 t 0 half 0).hitRead t half set w cls l lo n
    else
      let s2 := (s1.bump panHcntCount 1 t 0 half 1).mergeLine t half set w cls
      s2.hitRead t half set w cls { l with st := .dirty } lo n
  | none =>
    let s1 := (s0.lookupCost t half cls false true).bump panHcntCount 1 t 0 half 1
    let (bs, s2) := s1.lineFetch t line cls
    let s3 := s2.panErr t line 1 bs
    let out := (bs.drop lo).take n
    if s3.bypass t cls then (out, s3.bump panHcntCount 1 t 0 half 3)
    else (out, s3.placeOr t half set line none .clean (numbered 0 bs))

/-- A write of bytes (position, marked byte) into a local line (R278, R281). -/
def State.panWrite (s : State) (t line cls : Nat) (bs : List (Nat × BitVec 9)) : State :=
  if bs.isEmpty then s
  else
    let (half, set) := s.panSet t line
    let s0 := s.deadTouch t line 0 false
    match s0.panFind t line none with
    | some (w, l) =>
      let s1 := ((s0.lookupCost t half cls l.pinned false).bump panHcntCount 1 t 0 half 0).wayWrite t half set w bs
      let mask := bs.foldl (fun m b => m ||| (1#128 <<< b.1)) l.mask
      let l1 : PLine := { l with use := s1.nextUse t half set }
      let l2 : PLine :=
        if l.st = .part then (if mask = BitVec.allOnes 128 then { l1 with st := .dirty, mask := 0#128, born := 0 } else { l1 with mask := mask })
        else { l1 with st := .dirty }
      s1.setWay t half set w (some l2)
    | none =>
      let s1 := (s0.lookupCost t half cls false true).bump panHcntCount 1 t 0 half 1
      if s1.bypass t cls && !s1.filling t half line none then (s1.bump panHcntCount 1 t 0 half 3).lineStore t line cls bs
      else
        match s1.place t half set line none .part bs with
        | (some s2, _) => s2
        | (none, s2) => s2.lineStore t line cls bs

/-! ## Far lines (R290-R292) -/

/-- Drop far lines of a tower that pass a test; pending far fills that pass it deliver and are then discarded. -/
def State.dropFar (s : State) (t : Nat) (p : Nat → Nat → Bool) : State :=
  let s1 := s.modMem fun m =>
    { m with
      pantry := m.pantry.filter fun e =>
        match e.2 with
        | some l => !(e.1 / 2 ^ 25 = t && (match l.far with | some k => p k l.line | none => false))
        | none => true
      fills := m.fills.map fun e =>
        (e.1, if e.1 / 2 = t then e.2.map fun f => if (match f.far with | some k => p k f.line | none => false) then { f with drop := true } else f
              else e.2) }
  s1

/-- FENCE.FAR and task boundaries invalidate every far line of a tower (R292). -/
def State.dropAllFar (s : State) (t : Nat) : State := s.dropFar t fun _ _ => true
/-- Every far line of every tower goes (FENCE.FAR, R292). -/
def State.dropEveryFar (s : State) : State := (List.range 4).foldl (fun s t => s.dropAllFar t) s

/-! ## Pins (R285-R287, R299) -/

/-- Pinned ways of a set. -/
def State.pinsIn (s : State) (t half set : Nat) : Nat :=
  ((List.range 16).filter fun w => match s.way t half set w with | some l => l.pinned | none => false).length

/-- Pin one line, fetched at class 2 when absent; false when the quota keeps it unpinned (R286). (DEDUCED, log entry 121.) -/
def State.pinLine (s : State) (t line : Nat) (fetch : Bool) : Bool × State :=
  let (half, set) := s.panSet t line
  let s1 := if fetch && (s.panFind t line none).isNone then
      (let (bs, s1) := s.lineFetch t line 2
       (s1.panErr t line 1 bs).placeOr t half set line none .clean (numbered 0 bs)) else s
  match s1.panFind t line none with
  | none => (!fetch, s1)
  | some (w, l) =>
    if l.pinned then (true, s1)
    else if s1.pinsIn t half set < s1.quota t then (true, s1.setWay t half set w (some { l with pinned := true }))
    else (false, s1)

/-- Pin the lines of a list, counting those that stay unpinned. -/
def State.pinLines (s : State) (t : Nat) (lines : List Nat) : Nat × State :=
  lines.foldl (fun a l => let (ok, s1) := a.2.pinLine t l true; (if ok then a.1 else a.1 + 1, s1)) (0, s)

/-- The lines of a tower's pin records. -/
def State.pinnedLines (s : State) (t : Nat) : List Nat :=
  (s.tower t).pins.flatMap fun r => (List.range (r.bytes / 128)).map fun i => r.start % 2 ^ 39 / 128 + i

/-- Unpin the lines of a range [lo, hi) of line numbers. -/
def State.unpinLines (s : State) (t lo hi : Nat) : State :=
  s.modMem fun m =>
    { m with pantry := m.pantry.map fun e =>
        (e.1, e.2.map fun l => if e.1 / 2 ^ 25 = t ∧ l.far = none ∧ lo ≤ l.line ∧ l.line < hi then { l with pinned := false } else l) }

/-! ## Lines lost to resets and commits -/

/-- Ways of a tower whose site passes a test lose their lines; dirty ones enter the dead-line filter (R298, R299). -/
def State.dropWays (s : State) (t : Nat) (p : Nat → Nat → Nat → Bool) : State :=
  let gone := s.mem.pantry.filterMap fun e =>
    match e.2 with
    | some l => if e.1 / 2 ^ 25 = t ∧ p (e.1 / 2 ^ 24 % 2) (e.1 / 16 % 2 ^ 20) (e.1 % 16) then some (e.1, l) else none
    | none => none
  let s1 := gone.foldl (fun s g => if g.2.st = .clean then s else s.deadLine t g.2.line) s
  s1.modMem fun m => { m with pantry := m.pantry.filter fun e => !(gone.any fun g => g.1 = e.1) }

/-- Write back and drop the ways of a tower that pass a test, without the dead-line filter (R233, R299, R301). -/
def State.flushWays (s : State) (t : Nat) (p : Nat → Nat → Nat → Bool) : State :=
  let ks := s.mem.pantry.filterMap fun e =>
    if e.1 / 2 ^ 25 = t ∧ e.2.isSome ∧ p (e.1 / 2 ^ 24 % 2) (e.1 / 16 % 2 ^ 20) (e.1 % 16) then some e.1 else none
  ks.foldl (fun s k => s.evict t (k / 2 ^ 24 % 2) (k / 16 % 2 ^ 20) (k % 16)) s

end Sys2Proof.Machine
end

