-- ==== Sys2Proof/Machine/Queues.lean ====
section
/-! DEFINITION. Packets in their queues: header fields (Table 12-1), completion (R357, R358), and commits that commands wait
for (R372). -/

namespace Sys2Proof.Machine

/-! ## Header fields (Table 12-1) -/

def hDeadline (p : Packet) : Nat := fld (wordAt p 0) 63 48
def hTag (p : Packet) : Nat := fld (wordAt p 0) 47 32
def hClass (p : Packet) : Nat := fld (wordAt p 0) 23 20
def hLength (p : Packet) : Nat := fld (wordAt p 0) 19 16
def hFlags (p : Packet) : Nat := fld (wordAt p 0) 15 12
def hIrq (p : Packet) : Bool := bit (wordAt p 0) 10
def hQuiet (p : Packet) : Bool := bit (wordAt p 0) 9
def hOrder (p : Packet) : Bool := bit (wordAt p 0) 8
def hOpcode (p : Packet) : Nat := fld (wordAt p 0) 7 0

/-- Tower and local number of a queue (R353). -/
def qTower (q : Nat) : Nat := q / 256
def qLocal (q : Nat) : Nat := q % 256
def qLoc (r : RegName) (q : Nat) : Loc := ⟨r, qTower q, 0, qLocal q, 0⟩

/-- Fields of a queue's registers. -/
def State.qget (s : State) (f : Fld) (q : Nat) : Nat := s.fget f (qTower q) 0 (qLocal q)
/-- The master of a queue; management queues always keep master 1 (R353, R374). -/
def State.qMaster (s : State) (q : Nat) : Nat := if qLocal q = 255 then 1 else s.qget cmdQcfgMaster q
/-- Sizes of a queue's rings as powers of two, limited to their range. -/
def State.qSize (s : State) (q : Nat) : Nat := clampN 4 16 (s.qget cmdQcfgSizeLog2 q)
def State.qCsize (s : State) (q : Nat) : Nat := clampN 4 16 (s.qget cmdQcfgCsizeLog2 q)
/-- A queue is enabled; of the management queues only the lead tower's is, from READY on (R353, R427). A MODULE_WARM keeps the
queues enabled: doorbells that arrive during it are recorded (R368). (DEDUCED, log entry 135.) -/
def State.qEnabled (s : State) (q : Nat) : Bool :=
  (s.tower (qTower q)).fence = 0 &&
  (if qLocal q = 255 then (s.mod.ready || s.mod.warm) && qTower q = s.mod.lead else s.qget cmdQcfgEnable q = 1)
/-- A packet runs at the lower of its header class and its queue's class (R361); class 7 without a deadline as class 6 (R364). -/
def State.pktClass (s : State) (q : Nat) (p : Packet) : Nat :=
  let c := min (hClass p) (s.qget cmdQcfgClass q)
  if c = 7 ∧ hDeadline p = 0 then 6 else c

/-- The opcodes that hold grants, whose completion entry carries metered energy (R392, R402). -/
def metered (op : Nat) : Bool := [0x10, 0x11, 0x15, 0x20, 0x21, 0x61, 0x62].contains op

/-- The running packet of a number. -/
def State.running? (s : State) (id : Nat) : Option (Nat × Pkt) :=
  s.queues.findSome? fun q => (q.2.running.find? fun p => p.id = id).map fun p => (q.1, p)

/-- A queue loses a running packet, and gains a completion. A quiet packet that ended with OK writes none, and
stays here only for its status reply. The energy is a
measured figure: free for the commands that hold grants (R402, DESIGN CHOICE, log entry 2), 0 for the others. -/
def State.finish (s : State) (q : Nat) (p : Pkt) (st detail clamp : Nat) : State :=
  let st1 := if p.status ≠ 0 ∧ st ≤ stPartial then p.status else st
  let de1 := if p.status ≠ 0 ∧ st ≤ stPartial then p.detail else detail
  let draw := metered (hOpcode p.words)
  let c : Compl :=
    { tag := hTag p.words, status := st1, clamp := clamp, start := p.start, end_ := s.stamp (qTower q)
      energy := if draw then s.free1 % 2 ^ 32 else 0, detail := de1, irq := hIrq p.words, interim := false, quiet := hQuiet p.words
      reply := p.reply }
  let s1 := s.modQueue q fun y =>
    { y with running := y.running.filter fun x => x.id ≠ p.id
             done := if hQuiet p.words ∧ st1 = stOK ∧ p.reply.isNone then y.done else y.done ++ [c] }
  if draw then s1.drawn 1 else s1

/-- A running packet completes with a status, a detail word and its clamp mask; the first status that a unit signalled for it
takes the place of OK. -/
def State.complete (s : State) (id st detail : Nat) (clamp : Nat := 0) : State :=
  match s.running? id with
  | none => s
  | some (q, p) => s.finish q p st detail clamp

/-- Change a running packet. -/
def State.modPkt (s : State) (id : Nat) (f : Pkt → Pkt) : State :=
  { s with queues := s.queues.map fun q =>
      (q.1, { q.2 with running := q.2.running.map fun p => if p.id = id then f p else p }) }

/-! ## Doorbells (R356, R357) -/

/-- A doorbell: dropped and counted when the queue is disabled, when the value lies below the tail or more than the ring's
size above head, and at a fenced tower (R440). -/
def State.doorbell (s : State) (q : Nat) (tail : W32) : State :=
  let y := s.queue q
  let d := (tail - y.head).toNat
  let cur := (y.tail - y.head).toNat
  if (s.tower (qTower q)).fence ≠ 0 then s.bump hltFenceFencedDb 1 0
  else if !s.qEnabled q ∨ d < cur ∨ 2 ^ s.qSize q < d then s.bump cmdQstatBadDb 1 (qTower q) 0 (qLocal q)
  else s.modQueue q fun y => { y with tail := tail, bells := y.bells ++ [(tail.toNat, s.stamp (qTower q))] }

/-- A write of chead; one that would pass ctail is ignored. -/
def State.putChead (s : State) (q : Nat) (v : W32) : State :=
  let y := s.queue q
  if (y.ctail - y.chead).toNat < (v - y.chead).toNat then s else s.modQueue q fun y => { y with chead := v }

/-- Completion entries that started packets, and the next packet, still need (R357). -/
def State.reserved (s : State) (q : Nat) : Nat := (s.queue q).running.length + (s.queue q).done.length
/-- The completion ring has no free entry beyond the reserved ones. -/
def State.cringFull (s : State) (q : Nat) : Bool :=
  let y := s.queue q
  decide (2 ^ s.qCsize q ≤ (y.ctail - y.chead).toNat + s.reserved q)

/-! ## Orders that wait for a commit (R372) -/

/-- Commit numbers: what a packet can wait for. -/
inductive Wait where
  | array (t c : Nat)
  | guard
  | cellar (t : Nat)
  | pantry (t : Nat)
  | hbm (t : Nat)
  | link
  | dispatch (t : Nat)
  | power (t : Nat)
  | wake (t c : Nat)
  | reset (n : Nat)
  | replies
  | tally
  | table (t c : Nat)

/-- A commit or arrival as a number in a packet's list of waits. -/
def Wait.code : Wait → Nat
  | .array t c => cluKey t c
  | .guard => 1000
  | .cellar t => 1010 + t
  | .pantry t => 1020 + t
  | .hbm t => 1030 + t
  | .link => 1040
  | .dispatch t => 1050 + t
  | .power t => 1060 + t
  | .wake t c => 2000 + cluKey t c
  | .reset n => 3000 + n
  | .replies => 1070
  | .tally => waitTally
  | .table t c => 4000 + cluKey t c

/-- Statuses of a command whose waits have ended: OK_CLAMPED with a clamp bit, else what it had. -/
def endStatus (clamp st : Nat) : Nat := if clamp ≠ 0 ∧ st ≤ stPartial then stClamped else st

/-- What a packet waited for has come; packets with no further wait complete, with the status and detail they had kept. -/
def State.arrived (s : State) (w : Wait) : State :=
  let hit := s.queues.flatMap fun q => q.2.running.filter fun p => p.waits.contains w.code
  hit.foldl (fun s p =>
    let ws := p.waits.filter (· ≠ w.code)
    if ws.isEmpty then s.complete p.id (endStatus p.clamp stOK) p.detail p.clamp
    else s.modPkt p.id fun x => { x with waits := ws }) s

/-- Some job of a command is queued or running in an engine of a cluster. -/
def Cluster.holds (x : Cluster) (owner : Nat) : Bool :=
  (x.arr.queue.any fun j => j.owner = owner) ||
  (x.arr.bins.any fun b => match b.2.run with | some r => r.job.owner = owner | none => false) ||
  (x.hatchQ.any fun j => j.owner = owner) || (x.hatchRun.any fun h => h.2.job.owner = owner) ||
  (x.nrmQ.any fun j => j.owner = owner) || (match x.nrmRun with | some j => j.owner = owner | none => false)

/-- Some job of a command has not arrived on its tally. -/
def State.jobsLeft (s : State) (owner : Nat) : Bool :=
  (s.clusters.any fun c => c.2.holds owner) ||
  (s.tes.any fun e => (e.2.qcv.any fun j => j.owner = owner) || (match e.2.qcvRun with | some j => j.owner = owner | none => false))

end Sys2Proof.Machine
end

