-- ==== Sys2Proof/Machine/Power.lean ====
section
/-! DEFINITION. Domains, budgets and grants (R383-R395, R398, R400, R403): caps, powers, the storekeeper's decision, duty
ceilings, and the class-7 reserve. Currents are in 1/16 A, powers in mW. -/

namespace Sys2Proof.Machine

/-! ## Domains (Table 13-1) -/

/-- The accounting voltage of a domain in mV. -/
def volt (d : Nat) : Nat :=
  if d < 0x100 then 720 else if d < 0x300 then 700 else if d ≤ 0x302 then 720
  else if d ≤ 0x318 then 1100 else if d ≤ 0x323 then 750 else 800

/-- The die of a domain: 0 attic, 1 upper cellar, 2 lower cellar, 3 HBM (Table 13-8); none for links and rails. -/
def dieOfDom (d : Nat) : Option Nat :=
  if d < 0x100 ∨ d = 0x300 then some 0
  else if d < 0x200 ∨ d = 0x301 then some 1
  else if d < 0x300 ∨ d = 0x302 then some 2
  else if 0x310 ≤ d ∧ d ≤ 0x318 then some 3
  else none

/-- A domain ID of Table 13-1. -/
def isDomain (v : Variant) (t d : Nat) : Bool :=
  decide (d % 256 < 136 ∧ d < 0x300) || decide (0x300 ≤ d ∧ d ≤ 0x302) || decide (0x310 ≤ d ∧ d ≤ 0x318) ||
  decide (0x320 ≤ d ∧ d ≤ 0x322) || (d = 0x323 && decide (t ≤ 1)) || (v = .s && decide (0x330 ≤ d ∧ d ≤ 0x337))

/-- Regulator phases of a domain; 0 for an LDO or a rail-fed domain (PWR_DOM_CTL.phases). -/
def domPhases (v : Variant) (d : Nat) : Nat :=
  match v with
  | .x => if d < 0x100 then 4 else if d < 0x300 then 2 else 0
  | .s => if 0x330 ≤ d then 10 else 0

/-- Phases that a domain has lost. -/
def State.lostPhases (s : State) (t d : Nat) : Nat := SMap.get 0 (s.tower t).phasesLost d

/-- The hardware cap of a domain after its losses (Tables 13-1 and 13-7). -/
def State.hwCap (s : State) (t d : Nat) : Nat :=
  let n := s.lostPhases t d
  if d < 0x100 then (match s.mod.variant with | .x => (if n = 0 then 320 else if n = 1 then 240 else 0) | .s => (if n = 0 then 256 else 0))
  else if d < 0x300 then (match s.mod.variant with | .x => (if n = 0 then 128 else if n = 1 then 64 else 0) | .s => (if n = 0 then 128 else 0))
  else if d = 0x300 then 1280
  else if d = 0x301 then 640
  else if d = 0x302 then 960
  else if d = 0x318 then 5120
  else if d < 0x318 then 640
  else if d ≤ 0x321 then 640
  else if d = 0x322 then 960
  else if d = 0x323 then 320
  else if n = 0 then 1920 else if n = 1 then 1728 else 1920 - 192 * n

/-- The cap in force: the hardware cap, or a DOMAIN_STATE cap below it (R407). -/
def State.domCapNow (s : State) (t d : Nat) : Nat :=
  let c := SMap.get 0 (s.tower t).domCap d
  if c = 0 then s.hwCap t d else min c (s.hwCap t d)

/-! ## Powers (R388, R391, R394) -/

/-- Standing current of a cluster in 1/160 A: 2.0 A awake, 0.1 A in retention, none when lost or absent (R394). -/
def State.standing160 (s : State) (t c : Nat) : Nat :=
  let x := s.clu t c
  if x.absent then 0 else match x.dom with | .on => 320 | .waking => 320 | .retention => 16 | .lost => 0

/-- Standing power of a tower in mW (Table 13-6). -/
def State.standingMw (s : State) (t : Nat) : ℚ :=
  179000 + (((List.range 128).map fun c => s.standing160 t c).sum : ℚ) * 720 / 160

/-- The current that a grant gives now: a sag halves it, a cap lowers it. -/
def State.grantNow (s : State) (t : Nat) (g : Grant) : Nat :=
  let x := min g.granted (s.domCapNow t g.req.domain.toNat)
  if s.mod.sagged then x / 2 else x

/-- A grant's power. -/
def State.grantMw (s : State) (t : Nat) (g : Grant) : ℚ :=
  (s.grantNow t g : ℚ) * volt g.req.domain.toNat / 16 * (s.tower t).derate / 1024

def State.sumMw (s : State) (t : Nat) (p : Grant → Bool) : ℚ :=
  ((s.tower t).grants.filter p).foldl (fun a g => a + s.grantMw t g) 0

/-- Granted power. -/
def State.grantedMw (s : State) (t : Nat) : ℚ := s.standingMw t + s.sumMw t fun _ => true

/-- Set tower budget in W. -/
def State.setBudget (s : State) (t : Nat) : Nat := s.fget pwrBudgetTowerW t

/-- The effective budget (R388). -/
def State.effectiveMw (s : State) (t : Nat) : ℚ :=
  let set := s.setBudget t
  let b := match (s.tower t).thermalMw with | some w => min (set * 1000) w | none => set * 1000
  max (s.standingMw t) ((b : ℚ) / if s.mod.sagged then 2 else 1)

/-- P_r, the reserve power (R403). -/
def State.reserveMw (s : State) (t : Nat) : ℚ := min ((min 1000 (s.fget pwrPolicyC7ReserveW t) : Nat) * 1000) (s.effectiveMw t / 2)
/-- The reserve account's depth in mJ. -/
def State.reserveDepth (s : State) (t : Nat) : ℚ := s.reserveMw t / 1000 * (clampN 1 100 (s.fget pwrPolicyC7DepthMs t) : Nat)
/-- B now: what it held, refilled at P_r since, at most the depth (R403). -/
def State.reserveNow (s : State) (t : Nat) : ℚ :=
  min (s.reserveDepth t) ((s.tower t).reserveMj + s.reserveMw t / 1000 * ((s.stamp t - (s.tower t).reserveAt : Nat) : ℚ) / 200000)
/-- The account is brought up to date before P_r or the depth changes. -/
def State.refill (s : State) (t : Nat) : State :=
  let b := s.reserveNow t
  s.modTower t fun w => { w with reserveMj := b, reserveAt := s.stamp t }
def State.refillAll (s : State) : State := (List.range 4).foldl (fun s t => s.refill t) s

/-! ## Grants (R392, R393) -/

/-- Requester numbers (DEDUCED, log entry 33): bins 0 to 15, the hatch and the DMA engine of logical cluster c, then command
processors. -/
def binReq (c bin : Nat) : Nat := c * 18 + bin
def hatchReq (c : Nat) : Nat := c * 18 + 16

/-- A short grant below class 7 may borrow the reserve (R403). -/
def State.borrows (s : State) (t : Nat) (r : GrantReq) : Bool :=
  r.cls.val ≠ 7 && decide (0 < r.duration.toNat) && decide (r.duration.toNat + 2 ≤ clampN 10 1000 (s.fget cmdDispatchGrantBoundUs t))

/-- The current a request would be granted: at most its domain's cap, and at most what the tower's budget holds. -/
def State.offered (s : State) (t : Nat) (r : GrantReq) : Nat :=
  let d := r.domain.toNat
  let room := s.effectiveMw t - s.standingMw t - s.reserveMw t
  let big := (room * 16 * 1024 / (volt d * (s.tower t).derate : Nat)).floor.toNat
  max 1 (min (min r.current.toNat (s.domCapNow t d)) (if r.cls.val = 7 then r.current.toNat else max 1 big))

/-- Does a request fit the budget, its domain's cap, the row rail and the reserve, with nothing that holds new grants back? -/
def State.fits (s : State) (t : Nat) (r : GrantReq) : Bool :=
  let d := r.domain.toNat
  let g : Grant := ⟨r, s.offered t r⟩
  let others := (s.tower t).grants.filter fun x => x.req.requester ≠ r.requester
  let new := s.grantMw t g
  let sum (p : Grant → Bool) : ℚ := (others.filter p).foldl (fun a x => a + s.grantMw t x) 0
  let total := s.standingMw t + sum (fun _ => true) + new
  let c7 := sum fun x => x.req.cls.val = 7
  let plain := s.standingMw t + sum (fun x => x.req.cls.val ≠ 7 && !s.borrows t x.req) + max 0 (c7 - s.reserveMw t) + new
  let dom := ((others.filter fun x => x.req.domain = r.domain).map fun x => s.grantNow t x).sum + s.grantNow t g
  let rail :=
    s.mod.variant = .x || decide (0x100 ≤ d) ||
    (let row := d / 17
     let cl := (List.range 128).filter fun c => s.phys t c / 17 = row
     let amps := ((others.filter fun x => x.req.domain.toNat < 0x100 && x.req.domain.toNat / 17 = row).map fun x => s.grantNow t x).sum + s.grantNow t g
     decide (amps * 10 + (cl.map fun c => s.standing160 t c).sum ≤ s.domCapNow t (0x330 + row) * 10))
  let halted := match dieOfDom d with | some k => (s.tower t).halvedDies.contains k | none => false
  !(s.tower t).guardOn && !halted && decide (total ≤ s.effectiveMw t) && decide (dom ≤ s.domCapNow t d) && rail &&
  (r.cls.val = 7 || s.borrows t r || decide (plain ≤ s.effectiveMw t - s.reserveMw t))

/-- A grant is given; it replaces what the requester held. -/
def State.give (s : State) (t : Nat) (r : GrantReq) : State :=
  let g : Grant := ⟨r, s.offered t r⟩
  let s1 := s.modTower t fun w => { w with grants := w.grants.filter (fun x => x.req.requester ≠ r.requester) ++ [g] }
  if r.domain.toNat < 0x100 then
    match s.logical t r.domain.toNat with
    | some c => s1.modClu t c fun x => { x with limited := false }
    | none => s1
  else s1

/-- GRANT_REQUEST (R393): granted when it fits, else queued; a requester has one request at a time. -/
def execGrantRequest (t : Fin 4) (g : GrantReq) (s : State) : Out :=
  if (s.tower t).fence ≠ 0 ∨ g.current = 0 ∨ ((s.tower t).grantQ.any fun x => x.requester = g.requester) then .next s
  else if s.fits t g then .next (s.give t g)
  else .next (s.modTower t fun w => { w with grantQ := w.grantQ ++ [g] })

/-- The queued request served next among those that fit: by class, then by age, then by the lower requester. -/
def State.nextGrant (s : State) (t : Nat) : Option GrantReq :=
  ((s.tower t).grantQ.filter fun r => s.fits t r).foldl (fun best r =>
    match best with
    | none => some r
    | some b => if b.cls < r.cls then some r else some b) none

/-- GRANT_FROM_QUEUE (R393). -/
def execGrantFromQueue (t : Fin 4) (s : State) : Out :=
  match s.nextGrant t with
  | none => .next s
  | some r => .next ((s.modTower t fun w => { w with grantQ := w.grantQ.filter (· ≠ r) }).give t r)

/-- A requester gives back its grant, and any request it has waiting. -/
def State.release (s : State) (t req : Nat) : State :=
  s.modTower t fun w =>
    { w with grants := w.grants.filter fun x => x.req.requester.toNat ≠ req, grantQ := w.grantQ.filter fun x => x.requester.toNat ≠ req }

/-- The grant that a requester holds. -/
def State.held (s : State) (t req : Nat) : Option Grant := (s.tower t).grants.find? fun g => g.req.requester.toNat = req

/-! ## Duty (R389, R391, R395, R415) -/

/-- Duty ceiling of one grant in sixteenths. -/
def State.grantCeiling (s : State) (t : Nat) (g : Grant) : Nat :=
  max 1 (min 16 (16 * s.grantNow t g / max 1 g.req.current.toNat))

/-- The duty ceiling of a cluster's array: the least of its grants', 1/16 under the budget guard, 8/16 at a current limit, and
lowered in proportion while the tower's budget lies below its granted power. -/
def State.ceiling (s : State) (t c : Nat) : Nat :=
  let gs := (s.tower t).grants.filter fun g => g.req.domain.toNat = s.phys t c
  let base := gs.foldl (fun a g => min a (s.grantCeiling t g)) 16
  let low := s.sumMw t fun g => g.req.cls.val ≠ 7
  let room := s.effectiveMw t - s.standingMw t - s.sumMw t fun g => g.req.cls.val = 7
  let scaled := if room < low ∧ (gs.any fun g => g.req.cls.val ≠ 7) then max 1 (16 * room / low).floor.toNat else 16
  let b1 := min base scaled
  let b2 := if (s.clu t c).limited then min b1 8 else b1
  if (s.tower t).guardOn then min b2 1 else b2

/-- Bring every array's duty under its ceiling: decreases take effect at once (R395). -/
def State.clampDuty (s : State) (t : Nat) : State :=
  { s with clusters := s.clusters.map fun e =>
      if e.1 / 128 = t ∧ s.ceiling t (e.1 % 128) < e.2.arr.duty then
        (e.1, { e.2 with arr := { e.2.arr with duty := s.ceiling t (e.1 % 128) } })
      else e }

/-! ## Estimates (R400) -/

/-- Energy per MAC in 10⁻⁴ pJ by rate class 16, 8, 4, 2 bit (0 to 3), and full-duty current in 1/16 A (Table 13-5). -/
def macEnergy : Nat → Nat
  | 0 => 6590
  | 1 => 3300
  | 2 => 1740
  | _ => 893
def macCurrent : Nat → Nat
  | 0 => 72
  | 1 => 144
  | 2 => 152
  | _ => 156

end Sys2Proof.Machine
end

