-- ==== Sys2Proof/Machine/Views.lean ====
section
/-! DEFINITION. What registers read as: the stored fields of the register file with the fields that show other state laid
over them (the register maps of chapters 1 to 15). -/

namespace Sys2Proof.Machine

/-- Fields laid over a word. -/
def ov (w : W64) (fs : List (Fld × Nat)) : W64 := fs.foldl (fun w f => setFld w f.1.hi f.1.lo f.2) w
def nb (b : Bool) : Nat := if b then 1 else 0

/-- ARR_STATUS.state: 0 gated, 1 run, 2 filler, 3 ramp-down, 4 ramp-up. -/
def Arr.state (a : Arr) : Nat :=
  let any (m : ArrMode) : Bool := a.bins.any fun b => b.2.mode = m
  if any .rampUp then 4 else if any .run then 1 else if any .filler then 2 else if any .rampDown then 3 else 0

/-- Resident bunches of a cluster. -/
def State.resident (s : State) (t c : Nat) : List Bunch :=
  ((List.range 64).map fun k => s.bunch (bunchKey t c (k / 16) (k % 16))).filter fun b => b.run ≠ .empty

/-- A temperature in whole °C, 0 for 0 °C and below (R417). -/
def degC (m : Int) : Nat := min 255 (m / 1000).toNat

/-- Hottest attic, upper reading, upper estimate, lower and HBM readings of a tower, in m°C. -/
def Tower.temp (w : Tower) (i : Nat) : Int := w.temps.getD i 0
/-- The upper-cellar temperature in use (R414). -/
def Tower.upperUsed (w : Tower) : Int := if w.suspect then max (w.temp 1) (w.temp 2) else w.temp 1
/-- The thermal limit lies below the set budget. -/
def State.throttled (s : State) (t : Nat) : Bool :=
  match (s.tower t).thermalMw with | some w => decide (w < s.setBudget t * 1000) | none => false

/-- State of a domain in PWR_DOM_CTL: 0 on, 1 retention, 2 lost, 3 waking. Dies under unused spares are always in retention
(R406); an unused spare cluster shows retention too. (DEDUCED, log entry 74.) -/
def State.domState (s : State) (t d : Nat) : Nat :=
  if 0x300 ≤ d then 0
  else
    let p := d % 256
    if 0x100 ≤ d then (if (s.tower t).domRet.contains ((d / 256 - 1) * 136 + p) || (s.logical t p).isNone then 1 else 0)
    else if (s.tower t).lostPos.contains p then 2
    else match s.logical t p with
      | none => 1
      | some c => (match (s.clu t c).dom with | .on => 0 | .retention => 1 | .lost => 2 | .waking => 3)

/-- HLT_STATE.lead and others: a bit per tower. -/
def towerBits (p : Nat → Bool) : Nat := ((List.range 4).map fun t => if p t then 2 ^ t else 0).sum

/-- 64 bits of a list of bytes from a position. -/
def word64 (bs : List Byte) (off : Nat) : Nat := leNat ((bs.drop off).take 8)

/-- Stored and computed fields of a register (the block of HLT_, TRS_ and MGT_ registers reads alike from every tower). Counts
of stall and filler cycles, and the measured voltage and current, are free values (DESIGN CHOICE, log entry 2). (DEDUCED, log entry 19.) (DEDUCED, log entry 113.) -/
def State.view (s : State) (l : Loc) : W64 :=
  let w := s.reg l
  let t := l.t
  let x := s.clu t l.u
  let tw := s.tower t
  let y := s.queue (t * 256 + l.i)
  match l.r with
  | .cluId =>
    ov w [(cluIdTower, t), (cluIdSpare, nb (s.phys t l.u % 17 = 8)), (cluIdHalf, l.u / 64), (cluIdColumn, s.phys t l.u % 17)
      , (cluIdRow, s.phys t l.u / 17), (cluIdLogical, l.u)]
  | .hltClkStatus =>
    let h := s.mod.holdover.getD t false
    ov w [(hltClkStatusHoldover, nb h), (hltClkStatusRefPresent, nb (!h)), (hltClkStatusPllLock, nb (s.mod.pllPhase.getD t false))]
  | .hltStamp => BitVec.ofNat 64 (s.stamp t)
  | .hltStampSync =>
    ov w [(hltStampSyncSynced, nb (s.mod.synced || s.mod.isRoot)), (hltStampSyncRoot, nb s.mod.isRoot)
      , (hltStampSyncParentPort, s.mod.parent.getD 0), (hltStampSyncOffsetNs, codeOf 16 (max (-32768) (min 32767 s.mod.offsetNs)))]
  | .arrStatus =>
    ov w [(arrStatusDuty, x.arr.duty), (arrStatusJobs, x.arr.queue.length + (x.arr.bins.filter fun b => b.2.run.isSome).length)
      , (arrStatusBinsLog2, x.arr.binsLog2), (arrStatusShape, x.arr.shape), (arrStatusState, x.arr.state)]
  | .arrFreezeCause => BitVec.ofNat 64 (s.free1 % 32)
  | .arrFreezeCnt => s.freeW
  | .arrFillerCnt => s.freeW
  | .teBankStall => s.freeW
  | .hltPgSummary =>
    let n (p : Esc → Bool) : Nat := (s.esc.filter fun e => p e.2).length
    ov w [(hltPgSummaryEscalated, n fun e => e = .escalated || e = .releasePending)
      , (hltPgSummaryPending, n fun e => e = .pending || e = .releasePending)
      , (hltPgSummaryOverflowTags, (s.tags.filter fun e => e.1 / 4096 = t && e.2.ovf).length)
      , (hltPgSummaryEpochChange, nb s.mod.epochChange), (hltPgSummaryOverflowEvent, nb (s.mod.ovfEvent.getD t false))]
  | .hltPgEpoch => BitVec.ofNat 64 s.mod.epoch.toNat
  | .teStatus =>
    let on (k : Nat) : Bool := (s.bunch (bunchKey t l.u l.i k)).run ≠ .empty
    ov w [(teStatusResident, ((List.range 16).filter on).length), (teStatusSlots, ((List.range 16).map fun k => if on k then 2 ^ k else 0).sum)]
  | .teBarState => ov w [(teBarStateBusy, ((List.range 16).map fun n => if SMap.get [] x.bars n ≠ [] then 2 ^ n else 0).sum)]
  | .cluTallyVal => ov w [(cluTallyValTarget, (s.tally t l.u l.i).target.toNat), (cluTallyValCount, (s.tally t l.u l.i).count.toNat)]
  | .cluTallyCtl =>
    let y := s.tally t l.u l.i
    ov w [(cluTallyCtlSat, nb y.sat), (cluTallyCtlDone, nb y.done), (cluTallyCtlAuto, nb y.auto), (cluTallyCtlPhase, nb y.phase)]
  | .sfuBank =>
    let n (b : Nat) : Nat := ((s.resident t l.u).filter fun z => z.bank = b).length
    ov w [(sfuBankLoadBusy, nb (x.loads ≠ [])), (sfuBankActive, x.active), (sfuBankUsers1, n 1), (sfuBankUsers0, n 0)]
  | .sfuTblId => (SMap.get none x.tblId (l.i * 7 + l.j)).getD
      (match s.packageTable l.j with | some tb => BitVec.ofNat 64 (word64 tb 8) | none => Config.seedId l.j)
  | .nrmStatus => ov w [(nrmStatusBusy, nb x.nrmRun.isSome), (nrmStatusJobs, x.nrmQ.length + nb x.nrmRun.isSome)]
  | .celStatus => ov w [(celStatusInReset, nb (if l.u = 0 then tw.inCelU else tw.inCelL)), (celStatusRepairQ, (SMap.get [] tw.repairQ l.u).length)]
  | .celSpare => ov w [(celSpareBad, (s.sparesBad t l.u l.i).length), (celSpareUsed, (s.sparesUsed t l.u l.i).length)]
  | .celCommit => if l.u = 0 then w else 0#64
  | .cluHatchStatus =>
    ov w [(cluHatchStatusInFlight, x.hatchRun.length), (cluHatchStatusJobs, x.hatchQ.length + x.hatchRun.length)
      , (cluHatchStatusHeld, nb (s.reqs.any fun r => (match r.owner with | .hatch a c _ _ => a = t && c = l.u | _ => false) && r.held.isSome))]
  | .panStatus =>
    ov w [(panStatusGranules, s.granules t), (panStatusQuota, s.quota t), (panStatusFarWays, s.farWays t)
      , (panStatusDeadLog, s.fget panPolicyDeadLog t), (panStatusPressure, nb tw.pressure)]
  | .panLarder =>
    ov w [(panLarderRecords, tw.pins.length)
      , (panLarderLines, (s.mem.pantry.filter fun e => e.1 / 2 ^ 25 = t && (match e.2 with | some z => z.pinned | none => false)).length)]
  | .panDeadCtl => ov w [(panDeadCtlUnread, tw.deadLog.length)]
  | .panDeadLog =>
    (match tw.deadLog with
     | [] => 0#64
     | d :: _ => ov 0#64 [(panDeadLogValid, 1), (panDeadLogRequester, d.requester), (panDeadLogLine, (t * 2 ^ 39 + d.line * 128) % 2 ^ 41)])
  | .lnkPortStatus =>
    let p := s.port t l.i
    ov w [(lnkPortStatusBadLanes, p.badLanes.toNat), (lnkPortStatusRetrains, p.retrains), (lnkPortStatusCreditWait, s.free1 % 16)
      , (lnkPortStatusHalf, nb p.half)
      , (lnkPortStatusState, match p.mode with | .disabled => 0 | .training => 1 | .qualifying => 2 | .up => 3 | .down => 4 | .bridge => 5)]
  | .lnkCfg =>
    (match s.mod.moduleId with | some m => ov w [(lnkCfgAssigned, 1), (lnkCfgModuleId, m.toNat)] | none => w)
  | .brgStatus =>
    ov w [(brgStatusWidth, s.mod.pcieWidth), (brgStatusRate, s.mod.pcieRate), (brgStatusPair, nb (s.mod.bridge = some 1))
      , (brgStatusPerst, nb (!s.mod.perstN)), (brgStatusLinkUp, nb s.mod.linkUp)]
  | .brgDir =>
    (match l.i, s.mod.moduleId with
     | 0, some m => ov w [(brgDirValid, 1), (brgDirModule, m.toNat)]
     | _, _ => w)
  | .cmdQcfg => if l.i = 255 then ov w [(cmdQcfgMaster, 1), (cmdQcfgEnable, nb (s.qEnabled (t * 256 + 255)))] else w
  | .cmdQptr => ov w [(cmdQptrHead, y.head.toNat), (cmdQptrTail, y.tail.toNat)]
  | .cmdQdb => ov w [(cmdQdbTail, y.tail.toNat)]
  | .cmdQcptr => ov w [(cmdQcptrCtail, y.ctail.toNat), (cmdQcptrChead, y.chead.toNat)]
  | .cmdQstat =>
    ov w [(cmdQstatCringFull, nb (s.cringFull (t * 256 + l.i))), (cmdQstatHeldClass7, nb y.heldC7), (cmdQstatRunning, min 255 y.running.length)]
  | .cmdC7 => ov w [(cmdC7Accepted, min 127 (s.queues.filter fun q => q.1 / 256 = t && (match q.2.next with | some p => p.accepted | none => false)).length)]
  | .pwrStatus =>
    ov w [(pwrStatusEffectiveW, (s.effectiveMw t / 1000).floor.toNat), (pwrStatusGrantedW, (s.grantedMw t / 1000).floor.toNat)
      , (pwrStatusQueued, min 4095 tw.grantQ.length), (pwrStatusRunNext, nb (tw.runNextIds ≠ [])), (pwrStatusHalved, nb (tw.halvedDies ≠ []))
      , (pwrStatusThrottle, nb (s.throttled t)), (pwrStatusSagged, nb s.mod.sagged)]
  | .pwrSupply =>
    ov w [(pwrSupplyVinMinMv, s.free1 % 65536), (pwrSupplyIin, Config.freeNat (s.free + 1) % 65536), (pwrSupplyVinMv, Config.freeNat (s.free + 2) % 65536)]
  | .pwrDomCtl =>
    if isDomain s.mod.variant t l.i then
      ov w [(pwrDomCtlState, s.domState t l.i), (pwrDomCtlPhases, domPhases s.mod.variant l.i), (pwrDomCtlLost, min 15 (s.lostPhases t l.i))
        , (pwrDomCtlCap, s.domCapNow t l.i)]
    else 0#64
  | .thmStatus =>
    ov w [(thmStatusHbm, degC (tw.temp 4)), (thmStatusLower, degC (tw.temp 3)), (thmStatusUpperUsed, degC tw.upperUsed)
      , (thmStatusAttic, degC (tw.temp 0)), (thmStatusUpperEst, degC (tw.temp 2)), (thmStatusUpperRead, degC (tw.temp 1))
      , (thmStatusSuspect, nb tw.suspect), (thmStatusHalved, nb (tw.halvedDies ≠ [])), (thmStatusThrottle, nb (s.throttled t))]
  | .hltState =>
    ov w [(hltStateFenced, towerBits fun k => (s.tower k).fence ≠ 0), (hltStateLead, s.mod.lead), (hltStatePhase, s.mod.phase)
      , (hltStateReady, nb s.mod.ready), (hltStateTest, s.mod.test), (hltStateFwSource, s.mod.fwSource), (hltStateStateEvent, nb s.mod.stateEvent)
      , (hltStateHealth, s.mod.health.code)]
  | .hltTriggers => ov w [(hltTriggersTrigEvent, nb s.mod.trigEvent), (hltTriggersTriggers, if s.mod.ready then s.triggers.toNat else 0)]
  | .hltBoot => ov w [(hltBootBootCount, s.mod.bootCount), (hltBootBootMs, s.mod.bootMs)]
  | .hltCe => ov w [(hltCeOver, min 255 s.mod.ceOver), (hltCeLastHour, min (2 ^ 32 - 1) s.mod.ceLast)]
  | .hltFence => ov w [(hltFenceCause, ((List.range 4).map fun k => (s.tower k).fence % 16 * 16 ^ k).sum)]
  | .hltReset =>
    ov w [(hltResetTower, towerBits fun k => (s.tower k).inTower), (hltResetAttic, towerBits fun k => (s.tower k).inAttic)
      , (hltResetCellarU, towerBits fun k => (s.tower k).inCelU), (hltResetCellarL, towerBits fun k => (s.tower k).inCelL)]
  | .cvuRun => (s.ctx t l.u l.i).run
  | .cvuStatus =>
    let c := s.ctx t l.u l.i
    ov w [(cvuStatusDone, nb c.done), (cvuStatusPoisoned, nb c.poisoned), (cvuStatusBytes, min (2 ^ 40 - 1) c.bytes)]
  | .trsStatus =>
    ov w [(trsStatusSvn, leNat ((s.mod.pkg.drop 8).take 4)), (trsStatusIdentity, nb s.mod.seed.isSome), (trsStatusPufTower, s.mod.pufTower)
      , (trsStatusVerified, nb s.mod.verified), (trsStatusComponents, leNat ((s.mod.pkg.drop 6).take 2))]
  | .trsRelease => BitVec.ofNat 64 (word64 s.mod.pkg 16)
  | .trsFpr => BitVec.ofNat 64 (s.fingerprint.toNat / 2 ^ (64 * l.i))
  | .trsMeas => BitVec.ofNat 64 ((SMap.get 0#384 s.mod.meas l.i).toNat / 2 ^ (64 * l.j))
  | .mgtStatus =>
    ov w [(mgtStatusIbi, nb s.mod.ibi), (mgtStatusDynamic, s.mod.dynAddr.toNat)
      , (mgtStatusStatic, 0x50 + s.mod.straps.geo), (mgtStatusEid, s.mod.eid.toNat)]
  | .mgtLog => ov w [(mgtLogNewest, s.mod.newest), (mgtLogAcked, s.mod.acked)]
  | .mgtId => BitVec.ofNat 64 Config.enterprise.toNat
  | _ => w

/-- Registers whose reads draw free values. (DESIGN CHOICE, log entry 73.) -/
def RegName.measured : RegName → Bool
  | .arrFreezeCause | .arrFreezeCnt | .arrFillerCnt | .teBankStall | .lnkPortStatus | .pwrSupply => true
  | _ => false

end Sys2Proof.Machine
end

