-- ==== Sys2Proof/Machine/Mmio.lean ====
section
/-! DEFINITION. Register reads and writes through the MMIO window (R8-R13, R269): access codes, the latch of a high half,
commit requests, and the registers with an effect of their own. -/

namespace Sys2Proof.Machine

/-! ## Reads -/

/-- The RC bits of a register. -/
def RegName.rcBits (r : RegName) : W64 := r.bitsWhere fun f => f.acc = .rc
/-- The W1C bits of a register. -/
def RegName.w1cBits (r : RegName) : W64 := r.bitsWhere fun f => f.acc = .w1c
/-- The RW bits of a register. -/
def RegName.rwBits (r : RegName) : W64 := r.bitsWhere fun f => f.acc = .rw
/-- A 64-bit register with an RO or RC field, whose low half latches the high half (R13). -/
def RegName.latches (r : RegName) : Bool :=
  r.place.width = 64 && (r.bitsWhere fun f => f.acc = .ro || f.acc = .rc) != 0#64

/-- PAN_DEAD_LOG: the oldest entry leaves, and its stamp is latched (R298). -/
def State.popDead (s : State) (t : Nat) : State :=
  match (s.tower t).deadLog with
  | [] => s
  | d :: rest => (s.modTower t fun w => { w with deadLog := rest }).setReg ⟨.panDeadStamp, t, 0, 0, 0⟩ d.stamp

/-- PWR_VMIN: the lowest voltage sampled is a measured value, free, and so is its stamp, at most the present one (R387). -/
def State.popVmin (s : State) (t d : Nat) : State :=
  (s.setReg ⟨.pwrVminStamp, t, 0, d, 0⟩ (BitVec.ofNat 64 (Config.freeNat (s.free + 1) % (s.stamp t + 1)))).drawn 2

/-- A read clears the register's RC fields (R10), each in its own way. -/
def State.readClear (s : State) (l : Loc) : State :=
  match l.r with
  | .panDeadLog => s.popDead l.t
  | .pwrVmin => s.popVmin l.t l.i
  | r => if r.rcBits = 0#64 then s else s.setReg l (s.reg l &&& ~~~r.rcBits)

/-- What a register reads as when it is read, before any clearing. -/
def State.readValue (s : State) (l : Loc) : W64 :=
  match l.r with
  | .pwrVmin => if isDomain s.mod.variant l.t l.i then BitVec.ofNat 64 (s.free1 % 65536) else 0#64
  | _ => s.view l

/-- Discard the latch of a register. (DEDUCED, log entry 118.) -/
def State.unlatch (s : State) (k : Nat) : State := { s with latch := s.latch.filter fun a => a.key ≠ k }

/-- The part of a register that an access names: all of it, or a 32-bit half. -/
inductive Part where
  | full | low | high
  deriving DecidableEq, Repr

/-- A read of a register by a requester (R10, R13). -/
def State.regRead (s : State) (rq : Nat) (l : Loc) (p : Part) : W64 × State :=
  let v := s.readValue l
  let lo := v &&& 0xFFFFFFFF#64
  let hi := v >>> 32
  let d (x : State) : State := if l.r.measured then x.drawn 3 else x
  match p with
  | .full => (v, d ((s.readClear l).unlatch l.key))
  | .low =>
    let s1 := d ((s.readClear l).unlatch l.key)
    (lo, if l.r.latches then { s1 with latch := s1.latch ++ [⟨rq, l.key, BitVec.ofNat 32 hi.toNat⟩] } else s1)
  | .high =>
    match s.latch.find? fun a => a.key = l.key && a.rq = rq with
    | some a => (BitVec.ofNat 64 a.hi.toNat, s.unlatch l.key)
    | none => (hi, d (s.unlatch l.key))

/-- Bytes of the MMIO region of a tower: accesses of a whole register, of 32-bit halves, or of single bytes, which have no
read effect (DEDUCED, log entry 46); an offset that names no register reads as zero (R269). -/
def State.mmioBytes : Nat → State → Nat → Nat → Nat → Nat → List Byte × State
  | 0, s, _, _, _, _ => ([], s)
  | f + 1, s, rq, t, off, n =>
    if n = 0 then ([], s)
    else
      match locate t off with
      | none =>
        let (bs, s1) := State.mmioBytes f s rq t (off + 1) (n - 1)
        (0#8 :: bs, s1)
      | some (l, b) =>
        let w := l.r.place.width / 8
        if b = 0 ∧ w ≤ n then
          let (v, s1) := s.regRead rq l .full
          let (bs, s2) := State.mmioBytes f s1 rq t (off + w) (n - w)
          (leBytes w v.toNat ++ bs, s2)
        else if b % 4 = 0 ∧ 4 ≤ n then
          let (v, s1) := s.regRead rq l (if b = 0 then .low else .high)
          let (bs, s2) := State.mmioBytes f s1 rq t (off + 4) (n - 4)
          (leBytes 4 v.toNat ++ bs, s2)
        else
          let (bs, s1) := State.mmioBytes f (s.unlatch l.key) rq t (off + 1) (n - 1)
          (BitVec.ofNat 8 ((s.readValue l).toNat / 256 ^ b) :: bs, s1)

/-- A read of n bytes of a tower's MMIO region. -/
def State.mmioRead (s : State) (rq t off n : Nat) : List Byte × State := s.mmioBytes (n + 1) rq t off n

/-! ## Commit requests (R11) -/

/-- The WS registers that a commit register of a unit covers. -/
def commitSet (r : RegName) (t u : Nat) : List Loc :=
  match r with
  | .arrCommit => [⟨.arrPower, t, u, 0, 0⟩, ⟨.arrLfsrSeed, t, u, 0, 0⟩]
  | .celCommit => [⟨.celSplit, t, 0, 0, 0⟩, ⟨.celSplit, t, 1, 0, 0⟩, ⟨.celScrubCtl, t, 0, 0, 0⟩, ⟨.celScrubCtl, t, 1, 0, 0⟩]
  | .panCommit => [⟨.panPolicy, t, 0, 0, 0⟩]
  | .hbmCommit => [⟨.hbmRegBudget, t, 0, 0, 0⟩, ⟨.hbmRegCtl, t, 0, 0, 0⟩]
  | .lnkCommit => [⟨.lnkCfg, t, 0, 0, 0⟩, ⟨.lnkHostBridge, t, 0, 0, 0⟩]
  | .cmdCommit =>
    [RegName.cmdQring, .cmdQcring, .cmdQcfg, .cmdQctx].flatMap (fun k => k.locs t 0) ++ [⟨.cmdDispatch, t, 0, 0, 0⟩]
  | .pwrCommit => [⟨.pwrPolicy, t, 0, 0, 0⟩]
  | _ => []

/-- The commit registers; each has pending in bit 1 and commit in bit 0. -/
def RegName.isCommit : RegName → Bool
  | .arrCommit | .celCommit | .panCommit | .hbmCommit | .lnkCommit | .cmdCommit | .pwrCommit => true
  | _ => false

/-- A commit request takes the staged copies of its block and stays pending until the block's boundary. -/
def State.requestCommit (s : State) (r : RegName) (t u : Nat) : State :=
  let s1 := (commitSet r t u).foldl (fun s l => s.lockOne l) s
  let l : Loc := ⟨r, t, u, 0, 0⟩
  s1.setReg l (setFld (s1.reg l) 1 1 1)

/-- A commit request of a block waits. -/
def State.commitPending (s : State) (r : RegName) (t u : Nat) : Bool := bit (s.reg ⟨r, t, u, 0, 0⟩) 1

/-- The boundary: what the request took becomes active. -/
def State.commitDone (s : State) (r : RegName) (t u : Nat) : State :=
  let s1 := (commitSet r t u).foldl (fun s l => s.activate l) s
  let l : Loc := ⟨r, t, u, 0, 0⟩
  s1.setReg l (setFld (s1.reg l) 1 1 0)

/-! ## Checks of staged queue and dispatch values (R374, Tables 12-8 and 12-9) -/

/-- A staged field brought into its range. -/
def State.stgRange (s : State) (f : Fld) (lo hi t i : Nat) : State :=
  let l : Loc := ⟨f.reg, t, 0, i, 0⟩
  let w := s.stg l
  let v := fld w f.hi f.lo
  if lo ≤ v ∧ v ≤ hi then s else s.setStg l (setFld w f.hi f.lo (clampN lo hi v))

/-- The registers of a queue that a QUEUE record sets. -/
def queueLocs (t i : Nat) : List Loc := [⟨.cmdQring, t, 0, i, 0⟩, ⟨.cmdQcring, t, 0, i, 0⟩, ⟨.cmdQcfg, t, 0, i, 0⟩, ⟨.cmdQctx, t, 0, i, 0⟩]

/-- A staged copy of a queue's registers changes its rings while the queue is enabled and stays enabled. -/
def State.ringMoves (s : State) (t i : Nat) : Bool :=
  let a := s.reg ⟨.cmdQcfg, t, 0, i, 0⟩
  let b := s.stg ⟨.cmdQcfg, t, 0, i, 0⟩
  fld a 31 31 = 1 && fld b 31 31 = 1 &&
  (s.reg ⟨.cmdQring, t, 0, i, 0⟩ != s.stg ⟨.cmdQring, t, 0, i, 0⟩ || s.reg ⟨.cmdQcring, t, 0, i, 0⟩ != s.stg ⟨.cmdQcring, t, 0, i, 0⟩ ||
    fld a 24 15 != fld b 24 15)

/-- The staged values of a queue that direct writes left: an inject bit that no management queue set is dropped, master is 0 or
2, sizes come into their ranges, and values that a QUEUE record could not set in one step are dropped. (DEDUCED, log entry 25.) -/
def State.saneQueue (s : State) (t i : Nat) : State :=
  if s.ringMoves t i then (queueLocs t i).foldl (fun s l => s.setStg l (s.reg l)) s
  else
    let s1 := (s.stgRange cmdQcfgSizeLog2 4 16 t i).stgRange cmdQcfgCsizeLog2 4 16 t i
    let l : Loc := ⟨.cmdQcfg, t, 0, i, 0⟩
    let w := s1.stg l
    let w1 := if bit w 30 ∧ !bit (s.reg l) 30 ∧ !bit (s.lck l) 30 then setFld w 30 30 0 else w
    let m := fld w1 29 28
    let w2 := if m % 2 = 1 then setFld w1 29 28 (m - 1) else w1
    if w2 = w then s1 else s1.setStg l w2

/-- The staged values of a tower's dispatchers that direct writes left. -/
def State.saneCmd (s : State) (t : Nat) : State :=
  let s1 := (List.range 256).foldl (fun s i => s.saneQueue t i) s
  (((s1.stgRange cmdDispatchSliceUs 10 1000 t 0).stgRange cmdDispatchClass7QueueLimit 1 64 t 0).stgRange cmdDispatchGrantBoundUs 10 1000 t 0).stgRange
    cmdDispatchDeferLimitUs 10 100000 t 0

/-! ## Writes -/

/-- Registers of a management queue that the management block alone writes (R353). -/
def RegName.ofQueue : RegName → Bool
  | .cmdQring | .cmdQcring | .cmdQcfg | .cmdQctx => true
  | _ => false

/-- Bits of a register taken from a written value under a mask. -/
def merge (old v mask : W64) : W64 := (old &&& ~~~mask) ||| (v &&& mask)

/-- A write to a tally's registers (R180): a SET from the command path with the other half unchanged; auto alone changes in
the cycle of the write; sat is cleared by writing 1. -/
def State.tallyWrite (s : State) (t c n : Nat) (a : TallyWrite) : State :=
  let y := s.tally t c n
  match a with
  | .val v => s.setT t c n (BitVec.ofNat 32 v.toNat) (BitVec.ofNat 32 (v.toNat / 2 ^ 32)) y.auto
  | .count v => s.setT t c n v y.target y.auto
  | .target v => s.setT t c n y.count v y.auto
  | .ctl v => s.modTally t c n fun z => { z with auto := v.getLsbD 1, sat := z.sat && !v.getLsbD 3 }

/-- The acknowledged sequence number advances (R465): never backwards, never past the newest entry. -/
def State.ackLog (s : State) (n : Nat) : State :=
  s.modMod fun m => ({ m with acked := max m.acked (min n m.newest) } : Module).alert

/-- A write of bits under a mask to a register (R8, R9, R11, R12), with the effects that registers of their own have. (DEDUCED, log entry 127.) -/
def State.regWrite (s : State) (l : Loc) (v mask : W64) : State :=
  let s0 := s.unlatch l.key
  let t := l.t
  let q := t * 256 + l.i
  let set (i : Nat) : Bool := bit (v &&& mask) i
  match l.r with
  | .cluTallyVal =>
    let lo := fld mask 31 0 != 0
    let hi := fld mask 63 32 != 0
    let y := s.tally t l.u l.i
    let w := merge (BitVec.ofNat 64 (y.count.toNat + y.target.toNat * 2 ^ 32)) v mask
    let c : W32 := BitVec.ofNat 32 w.toNat
    let g : W32 := BitVec.ofNat 32 (w.toNat / 2 ^ 32)
    s0.tallyWrite t l.u l.i (if lo && hi then .val w else if lo then .count c else .target g)
  | .cluTallyCtl =>
    if fld mask 7 0 = 0 then s0 else s0.tallyWrite t l.u l.i (.ctl (BitVec.ofNat 32 (v &&& mask).toNat))
  | .arrCommit => if set 0 then s0.requestCommit .arrCommit t l.u else s0
  | .celCommit => if set 0 ∧ l.u = 0 then s0.requestCommit .celCommit t 0 else s0
  | .panCommit => if set 0 then s0.requestCommit .panCommit t 0 else s0
  | .hbmCommit => if set 0 then s0.requestCommit .hbmCommit t 0 else s0
  | .lnkCommit => if set 0 then s0.requestCommit .lnkCommit t 0 else s0
  | .cmdCommit => if set 0 then (s0.saneCmd t).requestCommit .cmdCommit t 0 else s0
  | .pwrCommit => if set 0 then s0.requestCommit .pwrCommit t 0 else s0
  | .cvuCommit => if set 0 then s0.cvuCommitAll t l.u else s0
  | .cvuRun => (s0.setStg l (merge (s0.stg l) v mask)).setCtx t l.u l.i { s0.ctx t l.u l.i with newRun := true }
  | .cmdQdb => if fld mask 31 0 = 0 ∨ l.i = 255 then s0 else s0.doorbell q (BitVec.ofNat 32 (merge (s.view l) v mask).toNat)
  | .cmdQcptr => if fld mask 31 0 = 0 then s0 else s0.putChead q (BitVec.ofNat 32 (merge (s.view l) v mask).toNat)
  | .mgtLog => if fld mask 31 0 = 0 then s0 else s0.ackLog (fld (merge (s.view l) v mask) 31 0)
  | .hltState => if set 3 then s0.modMod fun m => { m with stateEvent := false } else s0
  | .hltTriggers => if set 31 then s0.modMod fun m => { m with trigEvent := false } else s0
  | .hltPgSummary =>
    s0.modMod fun m =>
      { m with epochChange := m.epochChange && !set 1
               ovfEvent := (List.range 4).map fun i => m.ovfEvent.getD i false && !(i = t && set 0) }
  | r =>
    if r.ofQueue ∧ l.i = 255 then s0
    else
    let ws := r.wsBits
    let s1 := if ws &&& mask = 0#64 then s0 else s0.setStg l (merge (s0.stg l) v (ws &&& mask))
    let w := s1.reg l
    let w1 := merge w v (r.rwBits &&& mask) &&& ~~~(v &&& mask &&& r.w1cBits)
    if w1 = w then s1 else s1.setReg l w1

/-- A write of bytes (position from `off`, byte) of a tower's MMIO region: each register takes the bytes that fall on it at
once; bytes that name no register are ignored (R269). -/
def State.mmioWrite (s : State) (t off : Nat) (bs : List (Nat × Byte)) : State :=
  let hits := bs.filterMap fun b => (locate t (off + b.1)).map fun h => (h.1, h.2, b.2)
  let regs := (hits.map fun h => h.1).dedup
  regs.foldl (fun s l =>
    let mine := hits.filter fun h => h.1 = l
    let v := (mine.map fun h => h.2.2.toNat * 256 ^ h.2.1).sum
    let m := (mine.map fun h => 255 * 256 ^ h.2.1).sum
    s.regWrite l (BitVec.ofNat 64 v) (BitVec.ofNat 64 m)) s

/-! ## The commands on registers -/

/-- A module address in the MMIO window: tower and offset. -/
def mmioOf (addr : Nat) : Option (Nat × Nat) :=
  if 0x1F0000000000 ≤ addr ∧ addr < 0x1F0400000000 then some (bitsOf addr 33 32, addr % 2 ^ 32) else none

/-- An offset of a tower's region that registers can be read at: the tower runs, and the block exists there (R268, R269). -/
def State.mmioOpen (s : State) (t off : Nat) : Bool :=
  (s.tower t).fence = 0 && !(s.tower t).inTower && !(off < 0x08000000 && (s.clu t (off / 0x100000)).absent) &&
  !(decide (0x14000000 ≤ off ∧ off < 0x15000000) && decide (2 ≤ t))

/-- Sizes that a register access may have, aligned (R13). -/
def sizeOk (addr size : Nat) : Bool := (size = 4 || size = 8) && addr % size = 0

/-- A read of a register by a requester, whose value leaves the block. -/
def State.readOut (s : State) (rq addr size : Nat) : State :=
  match mmioOf addr with
  | none => s
  | some (t, off) =>
    if s.mmioOpen t off ∧ sizeOk addr size then
      let (bs, s1) := s.mmioRead rq t off size
      s1.emit (.regRead rq (BitVec.ofNat 64 (leNat bs)))
    else s

/-- A register's read by name, by requester 0. -/
def State.readReg (s : State) (l : Loc) : State :=
  let (v, s1) := s.regRead 0 l .full
  s1.emit (.regRead 0 v)

/-- TALLY_REGISTER_WRITE (R180). -/
def execTallyRegisterWrite (r : CluRef) (n : Fin 128) (a : TallyWrite) (s : State) : Out :=
  .next (if s.mmioOpen r.t (r.c * 0x100000) then s.tallyWrite r.t r.c n a else s)

/-- CEL_FLIPMASK_WRITE (R261). -/
def execCelFlipmaskWrite (t : Fin 4) (die : Fin 2) (bay : Fin 136) (v : W64) (s : State) : Out :=
  .next (if s.mmioOpen t 0x10000000 then s.regWrite ⟨.celFlipmask, t, die, bay, 0⟩ v (BitVec.allOnes 64) else s)

/-- SHF_FLIPMASK_WRITE (R262). -/
def execShfFlipmaskWrite (r : CluRef) (v : W64) (s : State) : Out :=
  .next (if s.mmioOpen r.t (r.c * 0x100000) then s.regWrite ⟨.shfFlipmask, r.t, r.c, 0, 0⟩ v (BitVec.allOnes 64) else s)

/-- PAN_DEAD_LOG_READ (R298). -/
def execPanDeadLogRead (t : Fin 4) (s : State) : Out :=
  .next (if s.mmioOpen t 0x10000000 then s.readReg ⟨.panDeadLog, t, 0, 0, 0⟩ else s)

/-- PWR_VMIN_READ (R387). -/
def execPwrVminRead (t : Fin 4) (domain : Nat) (s : State) : Out :=
  .next (if s.mmioOpen t 0x10000000 ∧ isDomain s.mod.variant t domain then s.readReg ⟨.pwrVmin, t, 0, domain, 0⟩ else s)

/-- READ_CLEAR_REGISTER_READ (R10). -/
def execReadClearRegisterRead (rq addr size : Nat) (s : State) : Out := .next (s.readOut rq addr size)

/-- LOW_HALF_READ (R13): a 32-bit read at a register's low half. -/
def execLowHalfRead (rq addr : Nat) (s : State) : Out := .next (s.readOut rq addr 4)

/-- REGISTER_WRITE (R8, R11, R12). -/
def execRegisterWrite (_rq addr size : Nat) (v : W64) (s : State) : Out :=
  match mmioOf addr with
  | none => .next s
  | some (t, off) =>
    .next (if s.mmioOpen t off ∧ sizeOk addr size then s.mmioWrite t off ((leBytes size v.toNat).zipIdx.map fun b => (b.2, b.1)) else s)

/-- A write of a commit register of a tower: writing 1 requests a commit. -/
def State.commitWrite (s : State) (l : Loc) (off : Nat) (v : W32) : State :=
  if s.mmioOpen l.t off then s.regWrite l (BitVec.ofNat 64 v.toNat) 0xFFFFFFFF#64 else s

/-- ARR_COMMIT_WRITE (R119). -/
def execArrCommitWrite (r : CluRef) (v : W32) (s : State) : Out :=
  .next (s.commitWrite ⟨.arrCommit, r.t, r.c, 0, 0⟩ (r.c * 0x100000) v)
/-- CEL_COMMIT_WRITE (R267). -/
def execCelCommitWrite (t : Fin 4) (v : W32) (s : State) : Out := .next (s.commitWrite ⟨.celCommit, t, 0, 0, 0⟩ 0x10000000 v)
/-- PAN_COMMIT_WRITE (R301). -/
def execPanCommitWrite (t : Fin 4) (v : W32) (s : State) : Out := .next (s.commitWrite ⟨.panCommit, t, 0, 0, 0⟩ 0x10000000 v)
/-- HBM_COMMIT_WRITE (R318). -/
def execHbmCommitWrite (t : Fin 4) (v : W32) (s : State) : Out := .next (s.commitWrite ⟨.hbmCommit, t, 0, 0, 0⟩ 0x10000000 v)
/-- LNK_COMMIT_WRITE (R347). -/
def execLnkCommitWrite (t : Fin 4) (v : W32) (s : State) : Out := .next (s.commitWrite ⟨.lnkCommit, t, 0, 0, 0⟩ 0x10000000 v)
/-- CMD_COMMIT_WRITE (R11). -/
def execCmdCommitWrite (t : Fin 4) (v : W32) (s : State) : Out := .next (s.commitWrite ⟨.cmdCommit, t, 0, 0, 0⟩ 0x10000000 v)
/-- PWR_COMMIT_WRITE (R416). -/
def execPwrCommitWrite (t : Fin 4) (v : W32) (s : State) : Out := .next (s.commitWrite ⟨.pwrCommit, t, 0, 0, 0⟩ 0x10000000 v)

/-- MGT_LOG_ACK_WRITE (R465). -/
def execMgtLogAckWrite (v : W32) (s : State) : Out := .next (s.ackLog v.toNat)

/-- DOORBELL (R356). -/
def execDoorbell (q : Fin 1024) (tail : W32) (s : State) : Out := .next (s.doorbell q tail)
/-- CHEAD_WRITE (R357). -/
def execCheadWrite (q : Fin 1024) (v : W32) (s : State) : Out := .next (s.putChead q v)

end Sys2Proof.Machine
end

