-- ==== Sys2Proof/Machine/Access.lean ====
section
/-! DEFINITION. Module and global addresses (R268-R274) and accesses performed at their homes. -/

namespace Sys2Proof.Machine

/-- Where a byte address has its home (Table 09-1, R271, R272). -/
inductive Home where
  | hbm (t a : Nat)
  | bay (t c die off : Nat)
  | shelf (t c off : Nat)
  | mmio (t off : Nat)
  | remote (m a : Nat)
  | unmapped
  | lost
  | held
  deriving DecidableEq, Repr

/-- The path between two towers: 0 open, 1 held at a bridge, 2 lost (R19, R300). (DEDUCED, log entry 125.) -/
def State.path (s : State) (rt t : Nat) : Nat :=
  if rt ≠ t ∧ rt + t = 3 then
    let a := if rt = 0 ∨ rt = 3 then 1 else 0
    let ws := [s.tower a, s.tower (3 - a)]
    if ws.any fun w => w.fence = 0 ∧ !w.inTower ∧ !w.transitStop then 0
    else if ws.any fun w => w.inTower || w.transitStop then 1 else 2
  else 0

/-- A tower as a home: 0 reachable, 1 held by its TOWER reset or by the path, 2 lost. -/
def State.reach (s : State) (rt t : Nat) : Nat :=
  if (s.tower t).fence ≠ 0 then 2 else if (s.tower t).inTower then 1 else s.path rt t

/-- A home of a tower, or what its tower's state makes of it. -/
def State.atTower (s : State) (rt t : Nat) (h : Home) : Home :=
  match s.reach rt t with
  | 0 => h
  | 1 => .held
  | _ => .lost

/-- An offset of a bay die lies in the cluster's save area (R179). -/
def State.inSave (s : State) (t die off : Nat) : Bool :=
  let pu := s.priv t 0
  let pl := s.priv t 1
  let g := off / 2 ^ 20
  if 1 ≤ pu ∧ 1 ≤ pl then (if die = 0 then g = pu - 1 else g = pl - 1)
  else if 2 ≤ pu then die = 0 && (g = pu - 1 || g = pu - 2)
  else if 2 ≤ pl then die = 1 && (g = pl - 1 || g = pl - 2)
  else false

/-- Bytes of a cluster's directly addressed shelf part; the rest is its shelf cache. -/
def State.direct (s : State) (t c : Nat) : Nat :=
  2 ^ 20 - (match (s.clu t c).team with | some tm => tm.cacheKib * 1024 | none => 0)

/-- A die's arrays are in reset. -/
def State.dieReset (s : State) (t die : Nat) : Bool := if die = 0 then (s.tower t).inCelU else (s.tower t).inCelL

/-- The pantry set of a local line lies on a die in reset: accesses to it are held (R299). -/
def State.lineHeld (s : State) (t line : Nat) : Bool :=
  let (half, set) := s.panSet t line
  (s.dieReset t 0 || s.dieReset t 1) && s.dieReset t (s.waySite t half set 0).1

/-- The home of a byte of the module (Table 09-1) as seen by a requester on tower `rt`. -/
def State.localHome (s : State) (rt a : Nat) : Home :=
  if a < 0x020000000000 then
    let t := bitsOf a 40 39
    if 0x7FF0000000 ≤ a % 2 ^ 39 ∧ s.priv t 0 + s.priv t 1 < 2 then .unmapped
    else s.atTower rt t (if s.lineHeld t (a / 128 % 2 ^ 32) then .held else .hbm t (a % 2 ^ 39))
  else if 0x100000000000 ≤ a ∧ a < 0x100800000000 then
    let t := bitsOf a 34 33
    let c := bitsOf a 31 25
    let die := bitsOf a 24 24
    let off := a % 2 ^ 24
    if bitsOf a 32 32 = 0 ∧ off < 0xC00000 ∧ off / 2 ^ 20 < s.priv t die ∧ !s.inSave t die off then
      s.atTower rt t (if s.dieReset t die then .held else .bay t c die off)
    else .unmapped
  else if 0x110000000000 ≤ a ∧ a < 0x110080000000 then
    let t := bitsOf a 30 29
    let c := bitsOf a 27 21
    let off := a % 2 ^ 21
    if bitsOf a 28 28 = 0 ∧ off < 0x100000 then
      s.atTower rt t (if (s.clu t c).absent || (s.clu t c).dom = .retention then .lost
        else if off < s.direct t c then .shelf t c off else .unmapped)
    else .unmapped
  else if 0x1F0000000000 ≤ a ∧ a < 0x1F0400000000 then
    let t := bitsOf a 33 32
    let off := a % 2 ^ 32
    let absent := off < 0x08000000 && (s.clu t (off / 0x100000)).absent
    let brg := decide (0x14000000 ≤ off ∧ off < 0x15000000 ∧ 2 ≤ t)
    if absent || brg || (s.tower t).fence ≠ 0 || decide (0x1C000000 ≤ off) || decide (0x08000000 ≤ off ∧ off < 0x10000000) then .unmapped
    else s.atTower rt t (.mmio t off)
  else .unmapped

/-- The home of a global address (R272, R273). -/
def State.home (s : State) (rt : Nat) (ga : W64) : Home :=
  if bit ga 63 then
    if fld ga 62 60 ≠ 0 then .unmapped
    else if s.mod.moduleId = some (BitVec.ofNat 12 (fld ga 59 48)) then s.localHome rt (fld ga 47 0)
    else
      let a := fld ga 47 0
      if a < 0x020000000000 ∨ (0x100000000000 ≤ a ∧ a < 0x100800000000) ∨ (0x110000000000 ≤ a ∧ a < 0x110080000000) then
        .remote (fld ga 59 48) a
      else .unmapped
  else if fld ga 63 48 ≠ 0 then .unmapped
  else s.localHome rt (fld ga 47 0)

/-- Who performs an access: tower, traffic class, owner of its remote parts, hatch (own-bay) or mesh reader, requester code
of PAN_DEAD_LOG, requester number of R13. -/
structure Agent where
  t : Nat
  cls : Nat
  owner : ReqOwner
  src : Nat
  req : Nat
  rq : Nat
  deriving DecidableEq, Repr

/-- What an access gave: a byte, or none where its part was not performed, and the first failing status. -/
structure Got where
  bytes : List (Option (BitVec 9))
  st : Nat
  at_ : Nat
  s : State

/-- Wake a bay die that is in retention (R406). -/
def State.wakeDie (s : State) (t die bay : Nat) : State :=
  s.modTower t fun w => { w with domRet := w.domRet.filter (· ≠ die * 136 + bay) }

/-- Data of a finished remote request of the same owner. -/
def State.fetched (s : State) (o : ReqOwner) (ga n : Nat) : Option (Nat × List (BitVec 9)) :=
  s.reqs.findSome? fun r =>
    match r.op with
    | .load m =>
      if r.owner = o ∧ r.stage = .done ∧ r.addr.toNat ≤ ga ∧ ga + n ≤ r.addr.toNat + m then
        some (r.status, (r.data.drop (ga - r.addr.toNat)).take n)
      else none
    | _ => none

/-- A remote read served from a far line of the requester's tower (R290); a line with an uncorrectable byte is dropped and
misses (R284). -/
def State.farRead (s : State) (t m a n : Nat) : Option (List (BitVec 9)) × State :=
  if a < 0x020000000000 then
    match s.panFind t (a / 128) (some m) with
    | some (w, _) =>
      let (half, set) := s.panSet t (panKeyOf (a / 128) (some m))
      let (bs, s1) := s.wayRead t half set w
      let want := (bs.drop (a % 128)).take n
      if want.any isBad then (none, s1.setWay t half set w none)
      else (some want, (s1.bump panHcntCount 1 t 0 half 6).touch t half set w)
    | none => (none, s)
  else (none, s)

/-- Read n bytes inside one 128-byte line of addresses. -/
def State.readPiece (s : State) (g : Agent) (ga n : Nat) : Got :=
  let ok (r : List (BitVec 9) × State) : Got := ⟨r.1.map some, 0, ga, r.2⟩
  let fail (st : Nat) : Got := ⟨List.replicate n none, st, ga, s⟩
  match s.home g.t (BitVec.ofNat 64 ga) with
  | .hbm t a => ok (s.panRead t (a / 128) (a % 128) n g.cls g.req)
  | .bay t c die off =>
    let p := s.phys t c
    let (bs, s1) := (s.wakeDie t die p).rowRead t die p (off / 512) g.src
    ok ((bs.drop (off % 512)).take n, s1)
  | .shelf t c off => ok (s.shelfRead t c off n)
  | .mmio t off =>
    let (bs, s1) := s.mmioRead g.rq t off n
    ok (bs.map clean, s1)
  | .remote m a =>
    match s.fetched g.owner ga n with
    | some (0, bs) => ok (bs, s)
    | some (st, _) => fail st
    | none =>
      match s.farRead g.t m a n with
      | (some bs, s1) => ok (bs, s1)
      | (none, s1) =>
        let far := decide (a < 0x020000000000) && decide (0 < s.farWays g.t) && !s.bypass g.t g.cls
        { (fail 0) with s := { s1 with needs := s1.needs ++ [if far then (ga - ga % 128, 128) else (ga, n)] } }
  | .unmapped => fail stBadAddress
  | .lost => fail stLost
  | .held => fail stLost

/-- Read n bytes, split at 128-byte boundaries, at which every window, die, granule and line boundary lies (R271). -/
def State.readAt : Nat → State → Agent → Nat → Nat → Got
  | 0, s, _, ga, _ => ⟨[], 0, ga, s⟩
  | f + 1, s, g, ga, n =>
    if n = 0 then ⟨[], 0, ga, s⟩
    else
      let k := min n (128 - ga % 128)
      let r := s.readPiece g ga k
      let r2 := State.readAt f r.s g (ga + k) (n - k)
      if r.st = 0 then { r2 with bytes := r.bytes ++ r2.bytes } else { r2 with bytes := r.bytes ++ r2.bytes, st := r.st, at_ := ga }

/-- Read n bytes at a global address. -/
def State.gread (s : State) (g : Agent) (ga : W64) (n : Nat) : Got := State.readAt (n / 128 + 2) s g ga.toNat n

/-- The bytes of an access, zeros where a part was not performed. -/
def Got.data (r : Got) : List (BitVec 9) := r.bytes.map fun b => b.getD 0#9

/-- What a write gave. -/
structure Put where
  st : Nat
  at_ : Nat
  s : State

/-- Write bytes (position relative to `ga`, byte) inside one 128-byte line of addresses. -/
def State.writePiece (s : State) (g : Agent) (ga : Nat) (bs : List (Nat × BitVec 9)) (n : Nat) : Put :=
  match s.home g.t (BitVec.ofNat 64 ga) with
  | .hbm t a => ⟨0, ga, s.panWrite t (a / 128) g.cls (bs.map fun b => (a % 128 + b.1, b.2))⟩
  | .bay t c die off =>
    let p := s.phys t c
    ⟨0, ga, (s.wakeDie t die p).rowWrite t die p (off / 512) (bs.map fun b => (off % 512 + b.1, b.2))⟩
  | .shelf t c off => ⟨0, ga, s.shelfPuts t c (bs.map fun b => (off + b.1, b.2))⟩
  | .mmio t off =>
    ⟨0, ga, s.mmioWrite t off (bs.map fun b => (b.1, dataOf b.2))⟩
  | .remote m a =>
    let s1 := s.dropFar g.t fun k l => k = m && l = a / 128
    ⟨0, ga, { s1 with sends := s1.sends ++ [(ga, (List.range n).map fun i => (bs.find? fun b => b.1 = i).map fun b => b.2)] }⟩
  | .unmapped => ⟨stBadAddress, ga, s⟩
  | .lost => ⟨stLost, ga, s⟩
  | .held => ⟨stLost, ga, s⟩

/-- Write bytes under a mask, split at 128-byte boundaries. -/
def State.writeAt : Nat → State → Agent → Nat → List (Option (BitVec 9)) → Put
  | 0, s, _, ga, _ => ⟨0, ga, s⟩
  | f + 1, s, g, ga, bs =>
    if bs.isEmpty then ⟨0, ga, s⟩
    else
      let k := min bs.length (128 - ga % 128)
      let part := (bs.take k).zipIdx.filterMap fun b => b.1.map fun v => (b.2, v)
      let r := if part.isEmpty then ⟨0, ga, s⟩ else s.writePiece g ga part k
      let r2 := State.writeAt f r.s g (ga + k) (bs.drop k)
      if r.st = 0 then r2 else { r2 with st := r.st, at_ := ga }

/-- Write bytes at a global address; none is a masked byte. -/
def State.gwriteM (s : State) (g : Agent) (ga : W64) (bs : List (Option (BitVec 9))) : Put :=
  State.writeAt (bs.length / 128 + 2) s g ga.toNat bs

/-- Write consecutive marked bytes. -/
def State.gwrite (s : State) (g : Agent) (ga : W64) (bs : List (BitVec 9)) : Put := s.gwriteM g ga (bs.map some)

/-- Write plain bytes. -/
def State.gwriteB (s : State) (g : Agent) (ga : W64) (bs : List Byte) : Put := s.gwrite g ga (bs.map clean)

/-- A range of addresses: the first status that an address check of it gives, 0 when every byte is mapped and reachable. -/
def State.checkRange (s : State) (rt : Nat) : Nat → Nat → Nat → Nat
  | 0, _, _ => 0
  | f + 1, ga, n =>
    if n = 0 then 0
    else
      let k := min n (128 - ga % 128)
      match s.home rt (BitVec.ofNat 64 ga) with
      | .unmapped => stBadAddress
      | .lost => stLost
      | _ => State.checkRange s rt f (ga + k) (n - k)

/-- Every byte of a range is mapped and its resource not lost: 0, else the first failing status. -/
def State.rangeStatus (s : State) (rt : Nat) (ga : W64) (n : Nat) : Nat := s.checkRange rt (n / 128 + 2) ga.toNat n

/-- CLU_GLOBAL_ERR records the first failing access of a cluster: cause 1 unmapped, 2 resource lost (R271). -/
def State.globalErr (s : State) (t c te st : Nat) (ga : W64) : State :=
  if s.flag cluGlobalErrValid t c then s
  else
    s.setReg ⟨.cluGlobalErr, t, c, 0, 0⟩
      (BitVec.ofNat 64 (2 ^ 63 + (if st = stBadAddress then 1 else 2) * 2 ^ 60 + te * 2 ^ 56 + fld ga 63 63 * 2 ^ 55 + fld ga 54 0))

/-! ## The shelf cache (R170-R173) -/

/-- The class-4 agent of a cluster's thread engines. -/
def cluAgent (t c cls : Nat) (o : ReqOwner) : Agent := ⟨t, cls, o, 1, t * 256 + c * 2, 1000 + cluKey t c⟩

/-- Bytes of a cached line in order. -/
def CLine.byte (l : CLine) (i : Nat) : BitVec 9 :=
  BitVec.ofNat 9 (l.data.toNat / 256 ^ i % 256 + if l.poison.getLsbD i then 256 else 0)

/-- Write a byte into a cached line. -/
def CLine.put (l : CLine) (i : Nat) (v : BitVec 9) (dirty : Bool) : CLine :=
  let m : BitVec 1024 := BitVec.ofNat 1024 (255 * 256 ^ i)
  { l with data := (l.data &&& ~~~m) ||| BitVec.ofNat 1024 ((dataOf v).toNat * 256 ^ i)
           have_ := l.have_ ||| (1#128 <<< i)
           dirty := if dirty then l.dirty ||| (1#128 <<< i) else l.dirty
           poison := if isBad v then l.poison ||| (1#128 <<< i) else l.poison &&& ~~~(1#128 <<< i) }

/-- The cached line of a line number. -/
def State.cached (s : State) (t c line : Nat) : Option CLine := (s.clu t c).cache.find? fun l => l.line = line

/-- Put a line into the cache, replacing its older form. -/
def State.setLine (s : State) (t c : Nat) (l : CLine) : State :=
  s.modClu t c fun x => { x with cache := x.cache.filter (fun m => m.line ≠ l.line) ++ [l] }

end Sys2Proof.Machine
end

