-- ==== Sys2Proof/Machine/Operands.lean ====
section
/-! DEFINITION. Operand forms of the thread instructions (R183-R186): register fields, groups, uniform instructions, mask
operands, and reading and writing them in a bunch. -/

namespace Sys2Proof.Machine

/-- The field value of tz and of uz. -/
def tz : Nat := 255
def uz : Nat := 127

/-- A 9-bit field names a uniform register. -/
def isUni (f : Nat) : Bool := decide (256 ≤ f)
/-- A 9-bit field names a per-thread register. -/
def isThr (f : Nat) : Bool := decide (f < 255)

/-- A register field is legal for a group of n registers under an allocation (R148, R182, R183, R185). -/
def okReg (alloc n f : Nat) : Bool :=
  if f = tz then true
  else if isUni f then f % 256 % n = 0 && decide (f % 256 + n ≤ 64)
  else f % n = 0 && decide (f + n ≤ min alloc 255)

/-- A mask operand is legal: class 0, [7:3] zero; m0 is no destination (R149, R183, R189). -/
def okMask (f : Nat) : Bool := decide (f ≤ 7)
def okMaskDst (f : Nat) : Bool := decide (1 ≤ f ∧ f ≤ 7)

/-- A uniform field is legal (R184). -/
def okUni (f : Nat) : Bool := decide (f ≤ 63) || f = uz

/-- A uniform destination takes no per-thread source (R186). -/
def uniRule (d : Nat) (srcs : List Nat) : Bool := !isUni d || !srcs.any isThr

/-- Word i of the group that a field names, in a lane. -/
def Bunch.word (x : Bunch) (f i lane : Nat) : W32 :=
  if f = tz then 0#32 else if isUni f then SMap.get 0#32 x.u (f % 256 + i) else SMap.get 0#32 x.t (lane * 256 + f + i)

/-- The value of a group of n registers. -/
def Bunch.val (x : Bunch) : Nat → Nat → Nat → Nat
  | _, 0, _ => 0
  | f, n + 1, lane => Bunch.val x f n lane + (x.word f n lane).toNat * 2 ^ (32 * n)

/-- Write word i of a group; tz discards. -/
def Bunch.setWord (x : Bunch) (f i lane : Nat) (v : W32) : Bunch :=
  if f = tz then x
  else if isUni f then { x with u := SMap.put 0#32 x.u (f % 256 + i) v }
  else { x with t := SMap.put 0#32 x.t (lane * 256 + f + i) v }

/-- Write a group of n registers. -/
def Bunch.setVal (x : Bunch) : Nat → Nat → Nat → Nat → Bunch
  | _, 0, _, _ => x
  | f, n + 1, lane, v => (Bunch.setVal x f n lane v).setWord f n lane (BitVec.ofNat 32 (v / 2 ^ (32 * n)))

/-- The lanes in which an instruction with destination field d executes: once for a uniform one (R186), else the active
lanes (R153). -/
def Bunch.lanesFor (x : Bunch) (d : Nat) : List Nat := if isUni d then [0] else lanesOf x.m0

/-- Write f lane into the destination of every lane that executes. -/
def Bunch.each (x : Bunch) (d n : Nat) (f : Nat → Nat) : Bunch :=
  (x.lanesFor d).foldl (fun y l => y.setVal d n l (f l)) x

/-- A mask register; m0 reads as the active mask (R149). -/
def Bunch.mask (x : Bunch) (k : Nat) : BitVec 64 := if k = 0 then x.m0 else SMap.get 0#64 x.m k
def Bunch.setMask (x : Bunch) (k : Nat) (v : BitVec 64) : Bunch := { x with m := SMap.put 0#64 x.m k v }

/-- A 7-bit uniform field. -/
def Bunch.uni (x : Bunch) (f : Nat) : W32 := if f = uz then 0#32 else SMap.get 0#32 x.u f
def Bunch.setUni (x : Bunch) (f : Nat) (v : W32) : Bunch := if f = uz then x else { x with u := SMap.put 0#32 x.u f v }

/-! ## Fields of the word formats (Table 06-2) -/

def wOpc (w : W64) : Nat := fld w 7 0
def wD (w : W64) : Nat := fld w 16 8
def wA (w : W64) : Nat := fld w 25 17
def wB (w : W64) : Nat := fld w 34 26
def wC (w : W64) : Nat := fld w 43 35
def wImm (w : W64) : Nat := fld w 63 32
/-- The I form carries an immediate in place of b. -/
def isImm (w : W64) : Bool := fld w 7 5 = 1
/-- type and sub of the ALU group, by form (Tables 06-2 and 06-3). -/
def wType (w : W64) : Nat := if isImm w then fld w 31 29 else fld w 63 60
def wSub (w : W64) : Nat := if isImm w then fld w 28 26 else fld w 59 57
/-- The modifier bits of Table 06-3; none in the I form. -/
def wK (w : W64) : Nat := if isImm w then 0 else fld w 56 54
def wNeg (w : W64) (i : Nat) : Bool := !isImm w && bit w i
/-- The C form's mask or uniform field and its target. -/
def wCk (w : W64) : Nat := fld w 14 8
/-- The S form's fields. -/
def wN (w : W64) : Nat := fld w 17 11
def wUa (w : W64) : Nat := fld w 24 18
def wUb (w : W64) : Nat := fld w 31 25
def wSmod (w : W64) : Nat := fld w 10 8

/-- The element types of the ALU group. -/
inductive Ty where
  | f32 | s32 | u32 | b32 | s64 | u64
  deriving DecidableEq, Repr

def tyOf : Nat → Option Ty
  | 0 => some .f32
  | 1 => some .s32
  | 2 => some .u32
  | 3 => some .b32
  | 4 => some .s64
  | 5 => some .u64
  | _ => none

/-- Registers per operand and bits of a type. -/
def Ty.regs : Ty → Nat
  | .s64 => 2
  | .u64 => 2
  | _ => 1
def Ty.bits (t : Ty) : Nat := 32 * t.regs

/-- Is the type signed? -/
def Ty.signed : Ty → Bool
  | .s32 => true
  | .s64 => true
  | _ => false

/-- The immediate as operand b: sign-extended to 64 bits for S64 and U64 (Table 06-3). -/
def immFor (t : Ty) (w : W64) : Nat := if t.regs = 2 then codeOf 64 (signedOf 32 (wImm w)) else wImm w

/-- An F32 source with its absolute-value and negate bits, applied in that order (Table 06-3). -/
def modF (neg abs : Bool) (v : FVal) : FVal :=
  let u := if abs then v.abs else v
  if neg then u.neg else u

/-- An operand as a number of its type. -/
def Ty.num (t : Ty) (v : Nat) : Int := if t.signed then signedOf t.bits v else ((v % 2 ^ t.bits : Nat) : Int)

end Sys2Proof.Machine
end

