-- ==== Sys2Proof/Machine/Flags.lean ====
section
/-! DEFINITION. Comparisons and mask results of the thread instructions (R153, R188, R189). The hardware has no flag
register: a comparison writes mask bits. -/

namespace Sys2Proof.Machine

/-- SETP's comparison of two F32 values (R188): EQ NE LT LE GT GE UN. -/
def cmpF (sub : Nat) (a b : FVal) : Bool :=
  let un := a.isNan || b.isNan
  match sub with
  | 0 => !un && a.eqv b
  | 1 => un || !a.eqv b
  | 2 => !un && a.lt b
  | 3 => !un && (a.lt b || a.eqv b)
  | 4 => !un && b.lt a
  | 5 => !un && (b.lt a || a.eqv b)
  | _ => un

/-- SETP's comparison of two integers. -/
def cmpI (sub : Nat) (a b : Int) : Bool :=
  match sub with
  | 0 => a = b
  | 1 => a ≠ b
  | 2 => a < b
  | 3 => a ≤ b
  | 4 => b < a
  | _ => b ≤ a

/-- A mask with the bits of the given lanes replaced by a test; the other bits stay (R189). -/
def maskWith (old : BitVec 64) (lanes : List Nat) (p : Nat → Bool) : BitVec 64 :=
  lanes.foldl (fun m l => if p l then m ||| (1#64 <<< l) else m &&& ~~~(1#64 <<< l)) old

/-- The active threads' bits of a mask: some is 1, none is 0, none is 1 (R153, R197). -/
def anyOf (m0 mk : BitVec 64) : Bool := (m0 &&& mk) != 0#64
def allOf (m0 mk : BitVec 64) : Bool := (m0 &&& ~~~mk) == 0#64
def noneOf (m0 mk : BitVec 64) : Bool := (m0 &&& mk) == 0#64

/-- MOP's mask functions (Table 06-4). -/
def mopMask (sub : Nat) (a b : BitVec 64) : BitVec 64 :=
  match sub with
  | 0 => a &&& b
  | 1 => a ||| b
  | 2 => a ^^^ b
  | 3 => a &&& ~~~b
  | _ => a

end Sys2Proof.Machine
end

