-- ==== Sys2Proof/Machine/Thread.lean ====
section
/-! DEFINITION. Issuing one thread instruction (R146, R153, R174, R181, R182): readiness, the fetch checks, the decode
checks, the effect, the program counter and the issue count. -/

namespace Sys2Proof.Machine

/-- What an instruction's effect gives: the state and the bunch's next pc, a precise fault, or a stall at the instruction. -/
inductive Ran where
  | ok (s : State) (pc : W32)
  | fault (s : State) (i : FaultInfo)
  | stall
  | gone (s : State)                  -- the bunch has retired

/-- The bunch, its team and the word of an instruction about to issue. -/
structure Th where
  b : BunchRef
  x : Bunch
  tm : Team
  w : W64

/-- Opcodes that the tables of chapter 6 list. -/
def opListed (o : Nat) : Bool :=
  [0x00, 0x01, 0x02, 0x03, 0x04, 0x05, 0x06, 0x08, 0x09, 0x0A, 0x0B, 0x0C, 0x0D, 0x0E, 0x0F, 0x10, 0x11, 0x12, 0x13, 0x14, 0x15,
   0x16, 0x17, 0x20, 0x21, 0x22, 0x23, 0x25, 0x26, 0x28, 0x29, 0x2A, 0x2C, 0x2D, 0x32, 0x33, 0x40].contains o ||
  decide (0x60 ≤ o ∧ o ≤ 0x6A) || decide (0x80 ≤ o ∧ o ≤ 0x85) || decide (0xA0 ≤ o ∧ o ≤ 0xAC) || decide (0xC0 ≤ o ∧ o ≤ 0xCA)

/-- The code word at an address cannot be fetched: unmapped, lost or uncorrectable (R181). -/
def State.codeBad (s : State) (t : Nat) (ga : W64) : Bool :=
  match s.home t ga with
  | .hbm ht a =>
    let un := a / 32
    let p := hbmPlace (un * 32)
    let stored : List (BitVec 9) :=
      let u := SMap.get zeroUnit s.mem.hbm (unitKey ht un)
      let r := unitRead u.data u.check
      (List.range 32).map fun i => BitVec.ofNat 9 ((unitByte r.data i).toNat + if r.bad || u.poison then 256 else 0)
    let fromHbm := ((overlay un (SMap.get [] s.mem.wq (pcKey ht p.stack p.pc)) stored).drop (a % 32)).take 8
    match s.panFind ht (a / 128) none with
    | some (w, l) =>
      if (List.range 8).all fun i => (presentMask l).getLsbD (a % 128 + i) then
        let (half, set) := s.panSet ht (a / 128)
        let (die, c, row, b0) := s.waySite ht half set w
        let k := rowKey ht die (s.phys ht c) (s.physRow ht die (s.phys ht c) row) * 512 + b0 + a % 128
        (List.range 8).any fun i => (byteRead (SMap.get 0#13 s.mem.cells (k + i))).bad
      else fromHbm.any isBad
    | none => s.chanFailed ht p.stack (p.pc / 2) || fromHbm.any isBad
  | .unmapped => true
  | .lost => true
  | _ => false

/-- The bunch can issue: it is ready and its launch has not been stopped. -/
def State.canIssue (s : State) (b : BunchRef) : Bool :=
  (s.bunch (bkey b)).run = .ready &&
  (match (s.clu b.t b.c).team with | some tm => !tm.stopped && s.home b.t (BitVec.ofNat 64 (tm.codeBase + (s.bunch (bkey b)).pc.toNat)) ≠ .held | none => false)

/-- Why the fetch of an instruction faults, if it does (R181). -/
def State.fetchFault (s : State) (h : Th) : Option FaultInfo :=
  if h.tm.codeLen ≤ h.x.pc.toNat then some ⟨.illegalInstruction, 0, 0⟩
  else
    let ga := BitVec.ofNat 64 (h.tm.codeBase + h.x.pc.toNat)
    if s.codeBad h.b.t ga then some ⟨.uncorrectableData, 0, ga.toNat⟩ else none

/-- The fetch of a ready bunch's next instruction is held at its home (R181, R300). -/
def State.fetchHeld (s : State) (b : BunchRef) : Bool :=
  (s.bunch (bkey b)).run = .ready &&
  (match (s.clu b.t b.c).team with | some tm => !tm.stopped && s.home b.t (BitVec.ofNat 64 (tm.codeBase + (s.bunch (bkey b)).pc.toNat)) = .held | none => false)

/-- Address of a bunch's next instruction. -/
def State.fetchAddr (s : State) (b : BunchRef) : Nat :=
  match (s.clu b.t b.c).team with | some tm => tm.codeBase + (s.bunch (bkey b)).pc.toNat | none => 0

/-- A bunch that cannot issue: a held fetch waits, and raises UNCORRECTABLE_DATA once it has been held for 10 ms (R181). (DEDUCED, log entry 134.) -/
def State.holdFetch (s : State) (b : BunchRef) : State :=
  let k := b.e.val * 16 + b.k.val
  let since := SMap.get 0 (s.clu b.t b.c).fetchAt k
  if !s.fetchHeld b then s
  else if since = 0 then s.modClu b.t b.c fun x => { x with fetchAt := SMap.put 0 x.fetchAt k (s.stamp b.t + 1) }
  else if since + 2000000 ≤ s.stamp b.t + 1 then s.bunchFault b ⟨.uncorrectableData, 0, s.fetchAddr b⟩
  else s

/-- Issue one instruction whose mnemonic owns the opcodes `own`. A bunch that is not ready, or a word of another mnemonic,
leaves the state unchanged (DESIGN CHOICE, log entry 3). (DESIGN CHOICE, log entry 133.) -/
def issue (own : List Nat) (legal : Th → Bool) (run : Th → State → Ran)
    (b : BunchRef) (w : W64) (s : State) : State :=
  if !s.canIssue b then s.holdFetch b
  else
    match (s.clu b.t b.c).team with
    | none => s
    | some tm =>
      let h : Th := ⟨b, s.bunch (bkey b), tm, w⟩
      match s.fetchFault h with
      | some i => s.bunchFault b i
      | none =>
        if !opListed (wOpc w) then s.bunchFault b ⟨.illegalInstruction, 0, 0⟩
        else if !own.contains (wOpc w) then s
        else if !legal h then s.bunchFault b ⟨.illegalInstruction, 0, 0⟩
        else
          match run h s with
          | .stall => s
          | .gone s1 => s1.bump teIssueCntCount 1 b.t b.c b.e
          | .fault s1 i => s1.bunchFault b i
          | .ok s1 pc => (s1.modBunch (bkey b) fun y => { y with pc := pc }).bump teIssueCntCount 1 b.t b.c b.e

/-- The next instruction's pc. -/
def Th.next (h : Th) : W32 := h.x.pc + 8

/-- An effect that writes only the bunch, and goes on. -/
def Th.bunch (h : Th) (s : State) (y : Bunch) : Ran := .ok (s.setBunch (bkey h.b) y) h.next

end Sys2Proof.Machine
end

