-- ==== Sys2Proof/Machine/Alu.lean ====
section
/-! DEFINITION. The ALU and conversion instructions (R187-R191, Tables 06-3 to 06-6). -/

namespace Sys2Proof.Machine

/-! ## Decoding the ALU group -/

/-- What an ALU mnemonic allows: types, legal sub values, the sizes of d, a, b and c in registers for a type (0: unused, and
the field holds tz), and which sources take F32 modifiers. -/
structure AluForm where
  types : List Ty
  subs : Nat := 1
  d : Ty → Nat
  a : Ty → Nat
  b : Ty → Nat := fun _ => 0
  c : Ty → Nat := fun _ => 0
  hi : Bool := false
  k : Bool := false
  mods : Nat := 0                   -- how many of a, b, c take negate and absolute bits

/-- A field that is unused holds tz; a used one is legal for its size. -/
def okField (alloc n f : Nat) : Bool := if n = 0 then f = tz else okReg alloc n f

/-- The decode checks of R182 for the ALU group. -/
def AluForm.legal (F : AluForm) (h : Th) : Bool :=
  let w := h.w
  match tyOf (wType w) with
  | none => false
  | some t =>
    let im := isImm w
    let f32 := t = .f32
    F.types.contains t && decide (wSub w < F.subs) && (F.k || wK w = 0) &&
    (im || fld w 47 44 = 0) &&
    (!wNeg w 53 || (f32 && 1 ≤ F.mods)) && (!wNeg w 52 || (f32 && 1 ≤ F.mods)) &&
    (!wNeg w 51 || (f32 && 2 ≤ F.mods)) && (!wNeg w 50 || (f32 && 2 ≤ F.mods)) && (!wNeg w 49 || (f32 && 3 ≤ F.mods)) &&
    (!wNeg w 48 || (F.hi && (t = .s32 || t = .u32))) &&
    okField h.tm.alloc (F.d t) (wD w) && okField h.tm.alloc (F.a t) (wA w) &&
    (im || (okField h.tm.alloc (F.b t) (wB w) && okField h.tm.alloc (F.c t) (wC w))) &&
    uniRule (wD w) ([wA w] ++ if im then [] else [wB w, wC w])

/-- Operand b of a lane: register or immediate. -/
def opB (h : Th) (t : Ty) (n lane : Nat) : Nat := if isImm h.w then immFor t h.w else h.x.val (wB h.w) n lane

/-- F32 sources with their modifiers. -/
def srcA (h : Th) (lane : Nat) : FVal := modF (wNeg h.w 53) (wNeg h.w 52) (f32 (BitVec.ofNat 32 (h.x.val (wA h.w) 1 lane)))
def srcB (h : Th) (lane : Nat) : FVal := modF (wNeg h.w 51) (wNeg h.w 50) (f32 (BitVec.ofNat 32 (opB h .f32 1 lane)))
def srcC (h : Th) (lane : Nat) : FVal := modF (wNeg h.w 49) false (f32 (BitVec.ofNat 32 (h.x.val (wC h.w) 1 lane)))

/-- An ALU instruction whose result in each lane is a number of n registers. -/
def AluForm.run (F : AluForm) (f : Th → Ty → Nat → Nat) (h : Th) (s : State) : Ran :=
  match tyOf (wType h.w) with
  | none => .stall
  | some t => h.bunch s (h.x.each (wD h.w) (F.d t) (f h t))

/-- Issue an ALU instruction. -/
def AluForm.issue (F : AluForm) (ops : List Nat) (f : Th → Ty → Nat → Nat) (b : BunchRef) (w : W64) (s : State) : Out :=
  .next (Machine.issue ops F.legal (F.run f) b w s)

def same (t : Ty) : Nat := t.regs
def one_ (_ : Ty) : Nat := 1
def arith : List Ty := [.f32, .s32, .u32, .s64, .u64]
def logic : List Ty := [.b32, .u64]
def ints : List Ty := [.s32, .u32, .s64, .u64]

/-- MOV: the immediate form holds tz in a (Table 06-5); it is a move and takes no modifiers (R188, DEDUCED, log entry 20). -/
def movForm : AluForm := { types := [.f32, .s32, .u32, .b32, .s64, .u64], d := same, a := same }
def movLegal (h : Th) : Bool := movForm.legal h && (!isImm h.w || wA h.w = tz)
def movRes (h : Th) (t : Ty) (lane : Nat) : Nat := if isImm h.w then immFor t h.w else h.x.val (wA h.w) t.regs lane
def execMov (b : BunchRef) (w : W64) (s : State) : Out := .next (issue [0x00, 0x20] movLegal (movForm.run movRes) b w s)

def binForm : AluForm := { types := arith, d := same, a := same, b := same, mods := 2 }

/-- The sum or difference of a lane (R188). -/
def addRes (h : Th) (t : Ty) (lane : Nat) : Nat :=
  if t = .f32 then (toF32 ((srcA h lane).add (srcB h lane))).toNat
  else (h.x.val (wA h.w) t.regs lane + opB h t t.regs lane) % 2 ^ t.bits
def execAdd (b : BunchRef) (w : W64) (s : State) : Out := binForm.issue [0x01, 0x21] addRes b w s

def subRes (h : Th) (t : Ty) (lane : Nat) : Nat :=
  if t = .f32 then (toF32 ((srcA h lane).add (srcB h lane).neg)).toNat
  else codeOf t.bits ((h.x.val (wA h.w) t.regs lane : Int) - (opB h t t.regs lane : Int))
def execSub (b : BunchRef) (w : W64) (s : State) : Out := binForm.issue [0x02, 0x22] subRes b w s

def mulForm : AluForm := { types := [.f32, .s32, .u32], d := same, a := same, b := same, mods := 2, hi := true }
def mulRes (h : Th) (t : Ty) (lane : Nat) : Nat :=
  if t = .f32 then (toF32 ((srcA h lane).mul (srcB h lane))).toNat
  else
    let p := codeOf 64 (t.num (h.x.val (wA h.w) 1 lane) * t.num (opB h t 1 lane))
    if wNeg h.w 48 then p / 2 ^ 32 else p % 2 ^ 32
def execMul (b : BunchRef) (w : W64) (s : State) : Out := mulForm.issue [0x03, 0x23] mulRes b w s

def fmaForm : AluForm := { types := arith, d := same, a := one_, b := one_, c := same, mods := 3 }
def fmaRes (h : Th) (t : Ty) (lane : Nat) : Nat :=
  if t = .f32 then (toF32 ((srcA h lane).fma (srcB h lane) (srcC h lane))).toNat
  else
    let n (v : Nat) : Int := if t.signed then signedOf 32 v else ((v % 2 ^ 32 : Nat) : Int)
    codeOf t.bits (n (h.x.val (wA h.w) 1 lane) * n (opB h t 1 lane) + (h.x.val (wC h.w) t.regs lane : Int))
def execFma (b : BunchRef) (w : W64) (s : State) : Out := fmaForm.issue [0x04] fmaRes b w s

/-- An F32 operand as its bits after its modifiers, for MIN and MAX, which return an operand. -/
def bitsF (neg abs : Bool) (v : Nat) : W32 :=
  let u := if abs then v % 2 ^ 31 else v % 2 ^ 32
  BitVec.ofNat 32 (if neg then (u + 2 ^ 31) % 2 ^ 32 else u)
def minmaxRes (wantMax : Bool) (h : Th) (t : Ty) (lane : Nat) : Nat :=
  let a := h.x.val (wA h.w) t.regs lane
  let b := opB h t t.regs lane
  if t = .f32 then (fminmax wantMax (bitsF (wNeg h.w 53) (wNeg h.w 52) a) (bitsF (wNeg h.w 51) (wNeg h.w 50) b)).toNat
  else if decide (t.num a < t.num b) != wantMax then a else b
def execMin (b : BunchRef) (w : W64) (s : State) : Out := binForm.issue [0x05, 0x25] (minmaxRes false) b w s
def execMax (b : BunchRef) (w : W64) (s : State) : Out := binForm.issue [0x06, 0x26] (minmaxRes true) b w s

def logForm : AluForm := { types := logic, d := same, a := same, b := same }
def logRes (f : Nat → Nat → Nat) (h : Th) (t : Ty) (lane : Nat) : Nat := f (h.x.val (wA h.w) t.regs lane) (opB h t t.regs lane)
def execAndB (b : BunchRef) (w : W64) (s : State) : Out := logForm.issue [0x08, 0x28] (logRes fun x y => x &&& y) b w s
def execOrB (b : BunchRef) (w : W64) (s : State) : Out := logForm.issue [0x09, 0x29] (logRes fun x y => x ||| y) b w s
def execXorB (b : BunchRef) (w : W64) (s : State) : Out := logForm.issue [0x0A, 0x2A] (logRes fun x y => x ^^^ y) b w s

def notForm : AluForm := { types := logic, d := same, a := same }
def notRes (h : Th) (t : Ty) (lane : Nat) : Nat := 2 ^ t.bits - 1 - h.x.val (wA h.w) t.regs lane
def execNotB (b : BunchRef) (w : W64) (s : State) : Out := notForm.issue [0x0B] notRes b w s

/-- Shifts by b[7:0]; b is a 32-bit operand for every type (DEDUCED, log entry 20). -/
def shForm : AluForm := { types := ints, d := same, a := same, b := one_ }
def shlRes (h : Th) (t : Ty) (lane : Nat) : Nat := h.x.val (wA h.w) t.regs lane * 2 ^ (opB h t 1 lane % 256) % 2 ^ t.bits
def execShl (b : BunchRef) (w : W64) (s : State) : Out := shForm.issue [0x0C, 0x2C] shlRes b w s
def shrRes (h : Th) (t : Ty) (lane : Nat) : Nat :=
  codeOf t.bits (t.num (h.x.val (wA h.w) t.regs lane) / (2 ^ (opB h t 1 lane % 256) : Nat))
def execShr (b : BunchRef) (w : W64) (s : State) : Out := shForm.issue [0x0D, 0x2D] shrRes b w s

def unForm : AluForm := { types := [.b32], d := same, a := same }
def unRes (f : Nat → Nat) (h : Th) (_ : Ty) (lane : Nat) : Nat := f (h.x.val (wA h.w) 1 lane)
def execPopc (b : BunchRef) (w : W64) (s : State) : Out := unForm.issue [0x0E] (unRes (popN 32)) b w s
def execClz (b : BunchRef) (w : W64) (s : State) : Out := unForm.issue [0x0F] (unRes (clzN 32)) b w s
def execBrev (b : BunchRef) (w : W64) (s : State) : Out := unForm.issue [0x10] (unRes (revN 32)) b w s

/-- SEL. A uniform SEL tests one thread's bit, which R186 does not name: a free choice where m_k's bits differ (DEDUCED, log entry 20). -/
def selForm : AluForm := { types := logic, d := same, a := same, b := same, k := true }
def selBit (s : State) (h : Th) (lane : Nat) : Bool :=
  let m := h.x.mask (wK h.w)
  if isUni (wD h.w) then (if m = 0#64 then false else if m = BitVec.allOnes 64 then true else s.freeB) else m.getLsbD lane
def selRun (h : Th) (s : State) : Ran :=
  selForm.run (fun h t lane => if selBit s h lane then h.x.val (wA h.w) t.regs lane else h.x.val (wB h.w) t.regs lane) h
    (if isUni (wD h.w) then s.drawn 1 else s)
def execSel (b : BunchRef) (w : W64) (s : State) : Out := .next (issue [0x11] selForm.legal selRun b w s)

/-- SETP: the destination is a mask; UN is F32 only (Table 06-4). -/
def setpForm : AluForm := { types := arith, subs := 7, d := fun _ => 0, a := same, b := same, mods := 2 }
def setpLegal (h : Th) : Bool :=
  let plain : Th := { h with w := (h.w &&& ~~~0x1FF00#64) ||| 0xFF00#64 }   -- the other fields, d read as tz
  setpForm.legal plain && okMaskDst (wD h.w) && (wSub h.w != 6 || wType h.w = 0)
def setpBit (h : Th) (t : Ty) (lane : Nat) : Bool :=
  if t = .f32 then cmpF (wSub h.w) (srcA h lane) (srcB h lane)
  else cmpI (wSub h.w) (t.num (h.x.val (wA h.w) t.regs lane)) (t.num (opB h t t.regs lane))
def setpRun (h : Th) (s : State) : Ran :=
  match tyOf (wType h.w) with
  | none => .stall
  | some t => h.bunch s (h.x.setMask (wD h.w) (maskWith (h.x.mask (wD h.w)) (lanesOf h.x.m0) (setpBit h t)))
def execSetp (b : BunchRef) (w : W64) (s : State) : Out := .next (issue [0x12, 0x32] setpLegal setpRun b w s)

/-- SHFL: the source thread of Table 06-4. -/
def shflLane (sub lane b : Nat) : Nat :=
  match sub with
  | 0 => b % 64
  | 1 => lane ^^^ (b % 64)
  | 2 => if lane < b then lane else lane - b
  | _ => if 63 < lane + b then lane else lane + b
def shflForm : AluForm := { types := [.b32], subs := 4, d := same, a := same, b := one_ }
def shflRes (h : Th) (t : Ty) (lane : Nat) : Nat := h.x.val (wA h.w) 1 (shflLane (wSub h.w) lane (opB h t 1 lane))
def execShfl (b : BunchRef) (w : W64) (s : State) : Out := shflForm.issue [0x13, 0x33] shflRes b w s

def frndForm : AluForm := { types := [.f32], subs := 4, d := same, a := same, mods := 1 }
def frndRes (h : Th) (_ : Ty) (lane : Nat) : Nat :=
  (match srcA h lane with
   | .fin neg q =>
     let i := roundInt (wSub h.w) q
     toF32 (.fin (if i = 0 then neg else decide (i < 0)) i)
   | v => toF32 v).toNat
def execFrnd (b : BunchRef) (w : W64) (s : State) : Out := frndForm.issue [0x14] frndRes b w s

/-- SEED: writes the ALU lanes' LFSRs from threads 0-15 or the converter lanes' from threads 0-63 (R190); d, b and c hold
tz. -/
def seedForm : AluForm := { types := [.b32], subs := 2, d := fun _ => 0, a := one_ }
def seedLanes (h : Th) (m : SMap W32) (lanes : List Nat) : SMap W32 :=
  lanes.foldl (fun m l => lanePut m l (lfsrSeed (h.x.word (wA h.w) 0 l))) m
def seedRun (h : Th) (s : State) : Ran :=
  .ok (s.modTe h.b.t h.b.c h.b.e fun y =>
    if wSub h.w = 0 then { y with alu := seedLanes h y.alu ((lanesOf h.x.m0).filter (· < 16)) }
    else { y with conv := seedLanes h y.conv (lanesOf h.x.m0) }) h.next
def execSeed (b : BunchRef) (w : W64) (s : State) : Out := .next (issue [0x15] seedForm.legal seedRun b w s)

/-- PRMT: each result byte is one of the 8 bytes {b, a}, or 0. -/
def prmtForm : AluForm := { types := [.b32], d := same, a := same, b := same, c := one_ }
def prmtRes (h : Th) (_ : Ty) (lane : Nat) : Nat :=
  let src := h.x.val (wA h.w) 1 lane + h.x.val (wB h.w) 1 lane * 2 ^ 32
  let c := h.x.val (wC h.w) 1 lane
  let byte (i : Nat) : Nat := if bitsOf c (4 * i + 3) (4 * i + 3) = 1 then 0 else src / 256 ^ bitsOf c (4 * i + 2) (4 * i) % 256
  byte 0 + byte 1 * 2 ^ 8 + byte 2 * 2 ^ 16 + byte 3 * 2 ^ 24
def execPrmt (b : BunchRef) (w : W64) (s : State) : Out := prmtForm.issue [0x16] prmtRes b w s

/-- MOP: once per bunch on all 64 bits (R189). -/
def mopLegal (h : Th) : Bool :=
  let w := h.w
  let sub := wSub w
  wType w = 3 && wK w = 0 && fld w 53 44 = 0 && wC w = tz &&
  (if sub ≤ 4 then okMaskDst (wD w) && okMask (wA w) && (if sub = 4 then wB w = tz else okMask (wB w))
   else if sub = 5 then okMask (wA w) && wB w = tz && isUni (wD w) && okReg h.tm.alloc 1 (wD w)
   else if sub = 6 then okMask (wA w) && wB w = tz && isUni (wD w) && okReg h.tm.alloc 2 (wD w)
   else okMaskDst (wD w) && wB w = tz && isUni (wA w) && okReg h.tm.alloc 2 (wA w))
def mopRun (h : Th) (s : State) : Ran :=
  let x := h.x
  match wSub h.w with
  | 5 => h.bunch s (x.setVal (wD h.w) 1 0 (popN 64 (x.mask (wA h.w)).toNat))
  | 6 => h.bunch s (x.setVal (wD h.w) 2 0 (x.mask (wA h.w)).toNat)
  | 7 => h.bunch s (x.setMask (wD h.w) (BitVec.ofNat 64 (x.val (wA h.w) 2 0)))
  | sub => h.bunch s (x.setMask (wD h.w) (mopMask sub (x.mask (wA h.w)) (if sub = 4 then 0#64 else x.mask (wB h.w))))
def execMop (b : BunchRef) (w : W64) (s : State) : Out := .next (issue [0x17] mopLegal mopRun b w s)

/-! ## CVT (R190, R191, Table 06-6) -/

def cvtDfmt (w : W64) : Nat := fld w 63 60
def cvtDint (w : W64) : Bool := bit w 59
def cvtSfmt (w : W64) : Nat := fld w 58 55
def cvtSint (w : W64) : Bool := bit w 54
def cvtSr (w : W64) : Bool := bit w 53
def cvtMode (w : W64) : Nat := fld w 52 51
def cvtLegal (h : Th) : Bool :=
  let w := h.w
  decide (if cvtDint w then cvtDfmt w ≤ 5 else cvtDfmt w ≤ 4) && decide (if cvtSint w then cvtSfmt w ≤ 5 else cvtSfmt w ≤ 4) &&
  (!cvtSr w || !cvtDint w) && (cvtMode w = 0 || (cvtDint w && !cvtSint w)) && fld w 50 44 = 0 && wB w = tz && wC w = tz &&
  okReg h.tm.alloc 1 (wD w) && okReg h.tm.alloc 1 (wA w) && uniRule (wD w) [wA w]

/-- The converted value of a source word, with rounding r for float results. -/
def cvtVal (w : W64) (r : Rnd) (a : W32) : W32 :=
  let v : FVal :=
    if cvtSint w then ofQ (readInt (cvtSfmt w) a)
    else (match fmtOf (cvtSfmt w) with | some f => f.decode (a.toNat % 2 ^ f.width) | none => .nan)
  if cvtDint w then
    (match v with
     | .nan => 0#32
     | .inf neg => (match intLimits (cvtDfmt w) with | some (lo, hi, _) => satInt (cvtDfmt w) (if neg then lo else hi) | none => 0#32)
     | .fin _ q => satInt (cvtDfmt w) (roundInt (cvtMode w) q))
  else (match fmtOf (cvtDfmt w) with | some f => BitVec.ofNat 32 (f.round r v).1 | none => 0#32)

/-- One lane of a CVT: physical lane j mod 16 draws from its ALU LFSR when sr is set. -/
def cvtLane (h : Th) (acc : Bunch × SMap W32) (lane : Nat) : Bunch × SMap W32 :=
  let a := h.x.word (wA h.w) 0 lane
  if cvtSr h.w then
    let (u, m) := laneDraw acc.2 (lane % 16)
    (acc.1.setWord (wD h.w) 0 lane (cvtVal h.w (.sr u) a), m)
  else (acc.1.setWord (wD h.w) 0 lane (cvtVal h.w .rne a), acc.2)
def cvtRun (h : Th) (s : State) : Ran :=
  let y := s.te h.b.t h.b.c h.b.e
  let (x, m) := (h.x.lanesFor (wD h.w)).foldl (cvtLane h) (h.x, y.alu)
  .ok ((s.modTe h.b.t h.b.c h.b.e fun y => { y with alu := m }).setBunch (bkey h.b) x) h.next
def execCvt (b : BunchRef) (w : W64) (s : State) : Out :=
  .next (issue [0x40] cvtLegal cvtRun b w s)

end Sys2Proof.Machine
end

