-- ==== Sys2Proof/Machine/Tensor.lean ====
section
/-! DEFINITION. Whole tensors written on the fly and read back (R54, R58, R66, R72, R123, R137, R208): the planes that a
quantising write produces, and the counts it makes. -/

namespace Sys2Proof.Machine

/-- A quantising write of rows: format, MX flag, sprouts, stochastic rounding, τ, tensor scale, element-plane row stride,
block number of row 0, stream start and capacity, bytes of the segment index, and whether it is escalated (R137). -/
structure QPar where
  fmt : Nat
  mx : Bool
  sprout : Bool
  stoch : Bool
  tau : ℚ
  ts : ℚ
  stride : Nat
  firstBlock : Nat
  start : Nat
  cap : Nat
  index : Nat
  esc : Bool

/-- What a quantising write has produced: bytes of the element and scale planes by offset, stream bytes, segment index
entries, counts and lanes. -/
structure QAcc where
  elems : List (Nat × Byte)
  scales : List (Nat × Byte)
  stream : List Byte
  segs : List (Nat × Nat)
  cnt : QCount
  lanes : SMap W32

def QAcc.init (lanes : SMap W32) : QAcc := ⟨[], [], [], [], QCount.zero, lanes⟩

/-- Bytes at consecutive offsets. -/
def placed (off : Nat) (bs : List Byte) : List (Nat × Byte) := (List.range bs.length).zip bs |>.map fun e => (off + e.1, e.2)

/-- The energies of one stored element: an infinite or NaN input is left out of both sums (R123). -/
def energies (x : FVal) (st : ℚ) : ℚ × ℚ :=
  match x with
  | .fin _ q => (q * q, (q - st) * (q - st))
  | _ => (0, 0)

/-- One element written as F8E4M3 under escalation (R137). -/
def escElem (k : QPar) (a : QAcc) (row j : Nat) (x : FVal) : QAcc :=
  let t : ℚ := if k.fmt = 6 ∧ k.mx then 1 else k.ts
  let q : FVal := match x with | .fin n v => .fin n (v / t) | v => v
  let (c, clip) := fmtE4M3.round .rne q
  let (e, n) := energies x ((fmtE4M3.decode c).toQ * t)
  { a with elems := a.elems ++ placed (row * k.stride + j) [BitVec.ofNat 8 c]
           cnt := a.cnt.plus ⟨1, if clip then 1 else 0, 0, if x.isNan then 1 else 0, e, n⟩ }

/-- One Q8 element (R61, R72). -/
def q8Elem (k : QPar) (a : QAcc) (row j : Nat) (x : FVal) : QAcc :=
  let (r, l) := drawFor k.stoch a.lanes (j % 64)
  let (c, v, clip) := quantQ8 r x k.ts
  let (e, n) := energies x (v * k.ts)
  { a with elems := a.elems ++ placed (row * k.stride + j) [BitVec.ofNat 8 c], lanes := l
           cnt := a.cnt.plus ⟨1, if clip then 1 else 0, 0, if x.isNan then 1 else 0, e, n⟩ }

/-- One block of a block-scaled format; a block whose sprouts would reach past the capacity has none (R208). -/
def quantOne (k : QPar) (a : QAcc) (row bi : Nat) (xs : List FVal) : QAcc :=
  let B := blockLen k.fmt
  let P := k.stride / blockBytes k.fmt
  let col := bi * B
  let b0 := quantBlock k.fmt k.mx k.sprout true k.stoch k.tau k.ts col xs a.lanes
  let b := if k.sprout ∧ k.cap < k.start + a.stream.length + b0.stream.length then
      quantBlock k.fmt k.mx k.sprout false k.stoch k.tau k.ts col xs a.lanes else b0
  let seg := (k.firstBlock + row * P + bi) / 256
  { elems := a.elems ++ placed (row * k.stride + bi * blockBytes k.fmt) (packBlock k.fmt b.codes)
    scales := a.scales ++ placed (row * P + bi) [BitVec.ofNat 8 b.scale]
    stream := a.stream ++ b.stream.map (BitVec.ofNat 8)
    segs := if k.sprout ∧ !(a.segs.any fun e => e.1 = seg) then a.segs ++ [(seg, k.index + k.start + a.stream.length)] else a.segs
    cnt := a.cnt.plus ⟨xs.length, b.clips, b.sprouts, b.nans, b.energy, b.noise⟩
    lanes := b.lanes }

/-- The blocks of a row in order. -/
def quantBlocks (k : QPar) (row : Nat) : Nat → Nat → List FVal → QAcc → QAcc
  | 0, _, _, a => a
  | f + 1, bi, xs, a =>
    if xs.isEmpty then a
    else quantBlocks k row f (bi + 1) (xs.drop (blockLen k.fmt)) (quantOne k a row bi (xs.take (blockLen k.fmt)))

/-- One row of a quantising write. -/
def quantRow (k : QPar) (a : QAcc) (row : Nat) (xs : List FVal) : QAcc :=
  if k.esc then xs.zipIdx.foldl (fun a x => escElem k a row x.2 x.1) a
  else if k.fmt = 5 then xs.zipIdx.foldl (fun a x => q8Elem k a row x.2 x.1) a
  else quantBlocks k row (xs.length + 1) 0 xs a

/-- All rows in order. -/
def quantRows (k : QPar) (lanes : SMap W32) (rows : List (List FVal)) : QAcc :=
  rows.zipIdx.foldl (fun a r => quantRow k a r.2 r.1) (QAcc.init lanes)

/-- The offset that follows the last stream byte, from the stream start. -/
def QAcc.streamEnd (a : QAcc) (k : QPar) : Nat := k.start + a.stream.length

/-- Bytes of a quantising write: (element plane, scale plane, sprout plane) offsets with their bytes. -/
def QAcc.sproutBytes (a : QAcc) (k : QPar) : List (Nat × Byte) :=
  (a.segs.flatMap fun e => placed (4 * e.1) (leBytes 4 e.2)) ++ placed (k.index + k.start) a.stream

/-- Values rounded into a float format, element column j on lane j mod 64 (R69-R71, R206). -/
def roundRow (fo : FFmt) (stoch : Bool) (lanes : SMap W32) (xs : List FVal) : List Byte × SMap W32 :=
  xs.zipIdx.foldl (fun a x =>
    let (r, l) := drawFor stoch a.2 (x.2 % 64)
    (a.1 ++ leBytes (fo.width / 8) (fo.round r x.1).1, l)) ([], lanes)

/-- Sprouts, clips and invalid codes among decoded elements; a T byte counts once (R125). -/
def decodeCounts (rows : List (List Elem)) : Nat × Nat × Nat :=
  let es := rows.flatten
  let tb := (rows.map fun r => ((r.map Elem.clipByte).filter (· ≠ 0)).dedup.length).sum
  ((es.filter fun e => e.kind = .sprout && !e.invalid).length, tb, (es.filter fun e => e.invalid && e.clipByte = 0).length + tb)

end Sys2Proof.Machine
end

