-- ==== Sys2Proof/Machine/Array.lean ====
section
/-! DEFINITION. The matrix array (R84-R119, R125-R130, R138): tile descriptors and their checks, the arithmetic of a chunk,
the drain, shadow sampling, and the start, end, filler and ramps of jobs. -/

namespace Sys2Proof.Machine

/-! ## The tile descriptor (Table 03-4) -/

/-- A row or column of the descriptor that names one operand. -/
structure Opnd where
  fmt : Nat
  mx : Bool
  sprout : Bool
  esc : Bool
  elem : Nat
  scale : Nat
  stride : Nat
  ts : W32
  firstBlock : Nat
  spr : Nat
  sprLen : Nat
  deriving DecidableEq, Repr

def dTag (d : List W64) : Nat := fld (wordAt d 0) 55 40
def dTally (d : List W64) : Nat := fld (wordAt d 0) 38 32
def dStoch (d : List W64) : Bool := bit (wordAt d 0) 26
def dAccum (d : List W64) : Bool := bit (wordAt d 0) 25
def dBin (d : List W64) : Nat := fld (wordAt d 0) 20 17
def dBinsLog2 (d : List W64) : Nat := fld (wordAt d 0) 16 14
def dShape (d : List W64) : Nat := fld (wordAt d 0) 13 12
def dCfmt (d : List W64) : Nat := fld (wordAt d 0) 11 8
def dK (d : List W64) : Nat := fld (wordAt d 1) 47 32 + 1
def dN (d : List W64) : Nat := fld (wordAt d 1) 31 16 + 1
def dM (d : List W64) : Nat := fld (wordAt d 1) 15 0 + 1
def dCstride (d : List W64) : Nat := fld (wordAt d 4) 33 14
def dCaddr (d : List W64) : Nat := fld (wordAt d 4) 13 0 * 64

/-- Operand A; under an escalated tag an F4 or Q4 one is a plane of F8E4M3 bytes (R138). -/
def dA (d : List W64) (esc : Bool) : Opnd :=
  let f := fld (wordAt d 0) 3 0
  let e := esc && (f = 6 || f = 7)
  { fmt := if e then 3 else f, mx := !e && f = 6 && bit (wordAt d 0) 23, sprout := !e && (f = 6 || f = 7) && bit (wordAt d 0) 21
    esc := e, elem := fld (wordAt d 2) 13 0 * 64, scale := fld (wordAt d 2) 27 14 * 64, stride := fld (wordAt d 2) 47 28
    ts := BitVec.ofNat 32 (fld (wordAt d 5) 31 0), firstBlock := fld (wordAt d 6) 57 34, spr := fld (wordAt d 6) 13 0 * 64
    sprLen := fld (wordAt d 6) 33 14 }

/-- Operand B. -/
def dB (d : List W64) : Opnd :=
  let f := fld (wordAt d 0) 7 4
  { fmt := f, mx := f = 6 && bit (wordAt d 0) 24, sprout := (f = 6 || f = 7) && bit (wordAt d 0) 22, esc := false
    elem := fld (wordAt d 3) 13 0 * 64, scale := fld (wordAt d 3) 27 14 * 64, stride := fld (wordAt d 3) 47 28
    ts := BitVec.ofNat 32 (fld (wordAt d 5) 63 32), firstBlock := fld (wordAt d 7) 57 34, spr := fld (wordAt d 7) 13 0 * 64
    sprLen := fld (wordAt d 7) 33 14 }

/-- The tensor scale applies: to Q8, Q4, Q2, T, to F4 without the MX flag, and to an escalated operand (R88, R138). -/
def Opnd.scaled (o : Opnd) : Bool := o.esc || (decide (5 ≤ o.fmt) && !o.mx)

/-- Block-scaled and not escalated: it has a scale plane. -/
def Opnd.hasScale (o : Opnd) : Bool := isBlockFmt o.fmt && !o.esc

/-- A descriptor's reserved bits are zero. -/
def descReserved (d : List W64) : Bool :=
  fld (wordAt d 0) 39 39 = 0 && fld (wordAt d 0) 31 27 = 0 && fld (wordAt d 1) 63 48 = 0 && fld (wordAt d 2) 63 48 = 0 &&
  fld (wordAt d 3) 63 48 = 0 && fld (wordAt d 4) 63 34 = 0 && fld (wordAt d 6) 63 58 = 0 && fld (wordAt d 7) 63 58 = 0

/-- The checks of R102 on one descriptor. -/
def descOk (d : List W64) (esc : Bool) : Bool :=
  let a := dA d esc
  let b := dB d
  let c := dCfmt d
  fld (wordAt d 0) 63 56 = 3 && descReserved d &&
  decide (1 ≤ a.fmt ∧ a.fmt ≤ 9) && decide (1 ≤ b.fmt ∧ b.fmt ≤ 9) && decide (c ≤ 4) &&
  (dShape d = 0 || dBinsLog2 d = 0) && decide (dBinsLog2 d ≤ 4) && decide (dBin d < 2 ^ dBinsLog2 d) &&
  (!a.scaled || validScale a.ts) && (!b.scaled || validScale b.ts) &&
  a.stride % 64 = 0 && b.stride % 64 = 0 && dCstride d % 64 = 0 &&
  decide (rowBytes a.fmt (dK d) ≤ a.stride) && decide (rowBytes b.fmt (dK d) ≤ b.stride) &&
  decide (dN d * (elemBits c / 8) ≤ dCstride d)

/-- End of a region of rows. -/
def regionEnd (start rows stride len : Nat) : Nat := start + (rows - 1) * stride + len

/-- Ends of the regions that an operand of `rows` rows names. -/
def Opnd.ends (o : Opnd) (rows k : Nat) : List Nat :=
  let P := o.stride / max 1 (blockBytes o.fmt)
  let last := o.firstBlock + (rows - 1) * P + cdiv k (blockLen o.fmt) - 1
  [regionEnd o.elem rows o.stride (rowBytes o.fmt k)] ++
  (if o.hasScale then [regionEnd o.scale rows (o.stride / blockBytes o.fmt) (cdiv k (blockLen o.fmt))] else []) ++
  (if o.sprout then [o.spr + o.sprLen, o.spr + 4 * (last / 256 + 1)] else [])

/-- Every region of a descriptor lies in the first `lim` bytes of the shelf (R102). -/
def descInside (d : List W64) (esc : Bool) (lim : Nat) : Bool :=
  ((dA d esc).ends (dM d) (dK d) ++ (dB d).ends (dN d) (dK d) ++
    [regionEnd (dCaddr d) (dM d) (dCstride d) (dN d * (elemBits (dCfmt d) / 8))]).all fun e => decide (e ≤ lim)

/-! ## Configurations (Tables 03-1 and 03-2) -/

/-- Rate class of a format: 0 16-bit, 1 8-bit, 2 4-bit, 3 2-bit. -/
def fmtClass (f : Nat) : Nat := if f ≤ 2 then 0 else if f ≤ 5 then 1 else if f ≤ 7 then 2 else 3
/-- Rate class of a job: the wider of its two. -/
def jobClass (d : List W64) (esc : Bool) : Nat := min (fmtClass (dA d esc).fmt) (fmtClass (dB d).fmt)

/-- C_b and Mc of a configuration. -/
def confCols (shape bl : Nat) : Nat :=
  match shape with
  | 0 => (match bl with | 0 => 128 | 1 => 128 | 2 => 64 | 3 => 64 | _ => 32)
  | 1 => 256
  | 2 => 512
  | _ => 1024
def confRows (shape bl : Nat) : Nat :=
  match shape with
  | 0 => (match bl with | 0 => 256 | 1 => 128 | 2 => 128 | 3 => 64 | _ => 64)
  | 1 => 128
  | 2 => 64
  | _ => 32

/-- Chunks of a job: column chunks outside, row chunks inside (R98). -/
def chunkCount (d : List W64) : Nat :=
  cdiv (dN d) (confCols (dShape d) (dBinsLog2 d)) * cdiv (dM d) (confRows (dShape d) (dBinsLog2 d))
/-- First column, columns, first row, rows of a chunk. -/
def chunkAt (d : List W64) (i : Nat) : Nat × Nat × Nat × Nat :=
  let cb := confCols (dShape d) (dBinsLog2 d)
  let mc := confRows (dShape d) (dBinsLog2 d)
  let rows := cdiv (dM d) mc
  let n0 := i / rows * cb
  let m0 := i % rows * mc
  (n0, min cb (dN d - n0), m0, min mc (dM d - m0))

/-! ## Reading operands -/

/-- A shelf byte as a unit reads it: none when it is uncorrectable. -/
def State.shelfByte (s : State) (t c off : Nat) : Option Nat :=
  let r := byteRead (SMap.get 0#13 s.mem.shelf (s.shelfKey t c off))
  if r.bad then none else some r.val.toNat

/-- Little-endian bytes of the shelf as a number. -/
def State.shelfNat (s : State) (t c off : Nat) : Nat → Option Nat
  | 0 => some 0
  | n + 1 =>
    match s.shelfByte t c off, s.shelfNat t c (off + 1) n with
    | some b, some r => some (b + 256 * r)
    | _, _ => none

/-- An operand in the shelf as a plane (R101). -/
def State.plane (s : State) (t c : Nat) (o : Opnd) : Plane :=
  let at_ (base : Nat) (i : Int) : Option Nat :=
    let a := (base : Int) + i
    if 0 ≤ a ∧ a < 2 ^ 20 then s.shelfByte t c a.toNat else none
  { fmt := o.fmt, sprout := o.sprout, esc := o.esc, blocks := if o.hasScale then o.stride / blockBytes o.fmt else 0
    stride := o.stride, firstBlock := o.firstBlock, strEnd := o.sprLen
    elem := at_ o.elem, scale := fun i => at_ o.scale i
    index := fun g => s.shelfNat t c (o.spr + 4 * g) 4, stream := fun i => at_ o.spr i }

/-- A region is read: its errors are corrected and counted. -/
def State.shelfTouch (s : State) (t c off n : Nat) : State := (s.shelfRead t c off n).2

/-- The rows of an operand that a chunk reads. -/
def State.touchRows (s : State) (t c : Nat) (o : Opnd) (r0 rows k : Nat) : State :=
  let s1 := (List.range rows).foldl (fun s i => s.shelfTouch t c (o.elem + (r0 + i) * o.stride) (rowBytes o.fmt k)) s
  if o.hasScale then
    (List.range rows).foldl (fun s i =>
      s.shelfTouch t c (o.scale + (r0 + i) * (o.stride / blockBytes o.fmt)) (cdiv k (blockLen o.fmt))) s1
  else s1

/-! ## Arithmetic (R88-R90) -/

/-- A value rounded to F32. -/
def r32 (v : FVal) : FVal := f32 (toF32 v)

/-- Insert by a free key, and an order of a list that nothing constrains (R89, R15). -/
def insertKey {α : Type} (k : Nat) (a : α) : List (Nat × α) → List (Nat × α)
  | [] => [(k, a)]
  | e :: l => if k ≤ e.1 then (k, a) :: e :: l else e :: insertKey k a l
def freeOrder {α : Type} (seed : Nat) (l : List α) : List α :=
  match l with
  | [] => []
  | [a] => [a]
  | _ => (l.zipIdx.foldl (fun acc a => insertKey (Config.freeNat (seed + a.2)) a.1 acc) []).map Prod.snd

/-- h of a format (R87). -/
def hOf (f : Nat) : ℚ := if f = 6 ∨ f = 8 then 1 / 2 else 1

/-- What a job's factors need: float operands, h of both formats, t := RNE(T_A × T_B). -/
structure JobK where
  bothFloat : Bool
  hA : ℚ
  hB : ℚ
  t : FVal

def jobK (a b : Opnd) : JobK :=
  let ts (o : Opnd) : FVal := if o.scaled then f32 o.ts else .fin false 1
  { bothFloat := decide (a.fmt ≤ 4) && decide (b.fmt ≤ 4) && !a.esc, hA := if a.esc then 1 else hOf a.fmt, hB := hOf b.fmt
    t := r32 ((ts a).mul (ts b)) }

/-- One group of a K-block applied to the accumulator (R88). -/
def applyGroup (j : JobK) (seed : Nat) (ga gb : Bool) (ps : List (Elem × Elem)) (acc : FVal) : FVal :=
  let g := ps.filter fun p => decide (p.1.kind = .grid) == ga && decide (p.2.kind = .grid) == gb
  match g with
  | [] => acc
  | p :: _ =>
    let sum : FVal :=
      if ga && gb then g.foldl (fun s q => s.add (q.1.x.mul q.2.x)) (.fin false 0)
      else (freeOrder seed g).foldl (fun s q => r32 (s.add (q.1.x.mul q.2.x))) (.fin false 0)
    let h (grid : Bool) (v : ℚ) : FVal := .fin false (if grid then v else 1)
    let f := r32 ((((p.1.b.mul p.2.b).mul (h ga j.hA)).mul (h gb j.hB)).mul j.t)
    r32 (sum.fma f acc)

/-- One K-block of at most 16 pairs. -/
def applyBlock (j : JobK) (seed : Nat) (ps : List (Elem × Elem)) (acc : FVal) : FVal :=
  if j.bothFloat then (freeOrder seed ps).foldl (fun a q => r32 (a.add (q.1.x.mul q.2.x))) acc
  else
    let present := [(true, true), (true, false), (false, true), (false, false)].filter fun g =>
      ps.any fun p => decide (p.1.kind = .grid) == g.1 && decide (p.2.kind = .grid) == g.2
    (freeOrder (seed + 48) present).foldl (fun a g => applyGroup j seed g.1 g.2 ps a) acc

/-- An accumulator over K: K-blocks of 16 in order, from +0. -/
def dotAcc (j : JobK) : Nat → Nat → List (Elem × Elem) → FVal → FVal
  | 0, _, _, acc => acc
  | f + 1, seed, ps, acc => if ps.isEmpty then acc else dotAcc j f (seed + 64) (ps.drop 16) (applyBlock j seed (ps.take 16) acc)

def Elem.finite (e : Elem) : Bool :=
  (match e.x with | .fin _ _ => true | _ => false) && (match e.b with | .fin _ _ => true | _ => false)

/-- The accumulators of a chunk, row by row, and for each whether it overflowed from finite operands. (DESIGN CHOICE, log entry 122.) -/
def chunkAccs (j : JobK) (seed k : Nat) (as bs : List (List Elem)) : List (List (FVal × Bool)) :=
  let per := (cdiv k 16) * 64
  as.zipIdx.map fun a => bs.zipIdx.map fun b =>
    let v := dotAcc j (cdiv k 16 + 1) (seed + (a.2 * bs.length + b.2) * per) (a.1.zip b.1) (.fin false 0)
    (v, (match v with | .inf _ => a.1.all Elem.finite && b.1.all Elem.finite | _ => false))

/-! ## The drain (R92, R93) -/

/-- What draining a row gathers. -/
structure Drain where
  lanes : SMap W32
  drawn : Nat
  clips : Nat
  ovf : Bool
  badC : Bool
  bytes : List Byte

/-- One output element: C_in added, converted, rounded. -/
def drainElem (fo : FFmt) (stoch : Bool) (free : Nat) (cin : Option (Option Nat)) (v : FVal × Bool) (a : Drain) : Drain :=
  let cv : Option FVal := cin.map fun c => match c with | some w => fo.decode w | none => .nan
  let out := match cv with | some c => r32 (v.1.add c) | none => v.1
  let lane := Config.freeNat (free + a.drawn) % 512
  let (r, l) : Rnd × SMap W32 := if stoch then (let (u, l) := laneDraw a.lanes lane; (.sr u, l)) else (.rne, a.lanes)
  let (code, clip) := fo.round r out
  let fin (x : FVal) : Bool := match x with | .fin _ _ => true | _ => false
  let inf (x : FVal) : Bool := match x with | .inf _ => true | _ => false
  let ovf := v.2 || (fin v.1 && (match cv with | some c => fin c | none => true) && (inf out || inf (fo.decode code)))
  { lanes := l, drawn := if stoch then a.drawn + 1 else a.drawn, clips := if clip then a.clips + 1 else a.clips
    ovf := a.ovf || ovf, badC := a.badC || cin = some none
    bytes := a.bytes ++ leBytes (fo.width / 8) code }

/-! ## Errors and counts -/

/-- ARR_ERR keeps the first error and signals the dispatcher (R108). -/
def State.arrErr (s : State) (t c cause : Nat) (j : Job) : State :=
  let s1 := if s.flag arrErrValid t c then s
    else s.setReg ⟨.arrErr, t, c, 0, 0⟩ (BitVec.ofNat 64 (2 ^ 63 + cause * 2 ^ 60 + j.off))
  s1.signal j.owner stUncorrectable 0

/-! ## Shadow sampling (R127-R129) -/

/-- A job is eligible for shadow sampling. -/
def State.eligible (s : State) (j : Job) : Bool :=
  let tag := dTag j.words
  let f := fld (wordAt j.words 0) 3 0
  tag ≠ noTag && (s.pol tag).shadowLog2 ≠ 0 && (f = 6 || f = 7) && !j.esc

/-- The histogram bin of one output element (Table 04-1). -/
def shadowBin (ms : ℚ) (c cs : FVal) : Nat :=
  match c, cs with
  | .fin _ x, .fin _ y =>
    let num := (r32 (.fin false |x - y|))
    let den := max |y| (r32 (.fin false (ms / 256))).toQ
    if den = 0 then (if x = 0 then 0 else 15)
    else
      match num with
      | .fin _ q =>
        (match r32 (.fin false (q / den)) with
         | .fin _ e =>
           if e < pow2 (-12) then 0 else if 4 ≤ e then 15 else (ilog2 e + 13).toNat
         | _ => 15)
      | _ => 15
  | _, _ => 15

/-- Sample a chunk: its accumulators are compared with those of the shadow tile. -/
def State.shadow (s : State) (t c : Nat) (j : Job) (i : Nat) (accs : List (List (FVal × Bool))) : State :=
  let d := j.words
  let tag := dTag d
  let p := s.pol tag
  let a := dA d false
  let k := dK d
  let start : Int := (a.elem : Int) + p.shadowDelta
  if start < 0 ∨ (s.direct t c : Int) < start + (((dM d - 1) * (2 * a.stride) + k : Nat) : Int) then
    s.modTag t tag fun y => { y with shSkipped := satAdd 64 y.shSkipped 1 }
  else
    let (n0, n, m0, m) := chunkAt d i
    let sh : Opnd := { a with fmt := p.shadowFmt, mx := false, sprout := false, esc := false, elem := start.toNat, stride := 2 * a.stride }
    let pa := s.plane t c sh
    let pb := s.plane t c (dB d)
    let as := (List.range m).map fun r => (List.range k).map fun x => pa.at (m0 + r) x
    let bs := (List.range n).map fun r => (List.range k).map fun x => pb.at (n0 + r) x
    let ref := chunkAccs (jobK sh (dB d)) s.free k as bs
    let mags := ref.flatten.filterMap fun v => match v.1 with | .fin _ q => some |q| | _ => none
    let ms := mags.foldl max 0
    let bins := (accs.flatten.zip ref.flatten).map fun v => shadowBin ms v.1.1 v.2.1
    (s.drawn (m * n * cdiv k 16 * 64)).modTag t tag fun y =>
      { y with shChunks := satAdd 64 y.shChunks 1
               hist := bins.foldl (fun h b => SMap.put 0 h b (satAdd 32 (SMap.get 0 h b) 1)) y.hist }

/-! ## Chunks -/

/-- A chunk is computed and drained: its rows of C are in the shelf. -/
def State.drainChunk (s : State) (t c bin : Nat) (r : RunJob) : State :=
  let d := r.job.words
  let a := dA d r.job.esc
  let b := dB d
  let k := dK d
  let (n0, n, m0, m) := chunkAt d r.chunk
  let pa := s.plane t c a
  let pb := s.plane t c b
  let as := (List.range m).map fun i => (List.range k).map fun x => pa.at (m0 + i) x
  let bs := (List.range n).map fun i => (List.range k).map fun x => pb.at (n0 + i) x
  let accs := chunkAccs (jobK a b) s.free k as bs
  let s0 := s.drawn (m * n * cdiv k 16 * 64)
  let s1 := (s0.touchRows t c a m0 m k).touchRows t c b n0 n k
  let bad := (as ++ bs).any fun row => row.any Elem.uncorr
  let s2 := if bad then s1.arrErr t c 1 r.job else s1
  let (sp, cl, inv) := decodeCounts (if a.esc then bs else as ++ bs)
  -- shadow sampling of an eligible job's chunk
  let el := s2.eligible r.job
  let cnt := (s2.clu t c).arr.shadowCnt
  let s3 := if el ∧ cnt.toNat % 2 ^ (s2.pol (dTag d)).shadowLog2 = 0 then s2.shadow t c r.job r.chunk accs else s2
  let s4 := if el then s3.modArr t c fun y => { y with shadowCnt := y.shadowCnt + 1 } else s3
  match fmtOf (dCfmt d) with
  | none => s4
  | some fo =>
    let e := fo.width / 8
    let rowAt (i : Nat) : Nat := dCaddr d + (m0 + i) * dCstride d + n0 * e
    let step (x : State × Drain) (i : Nat) : State × Drain :=
      let (st, dr) := x
      let dr1 := (accs.getD i []).zipIdx.foldl (fun (q : Drain) v =>
        drainElem fo (dStoch d) st.free (if dAccum d then some (s4.shelfNat t c (rowAt i + v.2 * e) e) else none) v.1 q)
        { dr with bytes := [] }
      let st1 := if dAccum d then st.shelfTouch t c (rowAt i) (n * e) else st
      (st1.shelfWrite t c (rowAt i) (dr1.bytes.map clean), dr1)
    let (s5, dr) := (List.range m).foldl step (s4, ⟨(s4.clu t c).arr.lanes, 0, 0, false, false, []⟩)
    let s6 := (s5.drawn dr.drawn).modArr t c fun y => { y with lanes := dr.lanes }
    let s7 := if dr.badC then s6.arrErr t c 2 r.job else s6
    let s8 := if dr.ovf && !r.ovf then s7.overflow t (dTag d) else s7
    let s9 := s8.noteDecode t (dTag d) sp cl inv dr.clips
    s9.modArr t c fun y =>
      { y with bins := SMap.put default y.bins bin { SMap.get default y.bins bin with
          run := some { r with chunk := r.chunk + 1, ovf := r.ovf || dr.ovf } } }

/-! ## Commands on the array -/

def State.bin (s : State) (t c b : Nat) : Bin := SMap.get default (s.clu t c).arr.bins b
def State.modBin (s : State) (t c b : Nat) (f : Bin → Bin) : State :=
  s.modArr t c fun y => { y with bins := SMap.put default y.bins b (f (SMap.get default y.bins b)) }

/-- Jobs in the queue, running ones included. -/
def Arr.jobs (a : Arr) : Nat := a.queue.length + (a.bins.filter fun b => b.2.run.isSome).length

/-- The configuration that a job needs. -/
def Job.conf (j : Job) : Nat × Nat := (dShape j.words, dBinsLog2 j.words)

/-- The job that a bin would start next: the first of the bin, with no job before it that needs a reshape (R97, R104). -/
def nextJob (bin : Nat) (conf : Nat × Nat) : List Job → Option Job
  | [] => none
  | j :: js => if j.conf ≠ conf then none else if dBin j.words = bin then some j else nextJob bin conf js

/-- The current a job's request names (R392, R130). -/
def State.jobCurrent (s : State) (j : Job) : Nat :=
  let own := macCurrent (jobClass j.words j.esc)
  let need := if s.eligible j then max own (macCurrent 1) else own
  cdiv need (2 ^ dBinsLog2 j.words)

/-- The array's staged values become active at a job or stall-run boundary (R118, R119); the drain lanes are reseeded. -/
def State.commitArr (s : State) (t c : Nat) : State :=
  if !s.flag arrCommitPending t c then s
  else
    let s1 := ((s.activate ⟨.arrPower, t, c, 0, 0⟩).activate ⟨.arrLfsrSeed, t, c, 0, 0⟩).fset arrCommitPending 0 t c
    let seed := BitVec.ofNat 32 (s1.fget arrLfsrSeedSeed t c)
    let s2 := s1.modArr t c fun y =>
      { y with lanes := (List.range 512).foldl (fun l j => lanePut l j (lfsrLane seed j)) [] }
    s2.arrived (.array t c)

/-- JOB_START (R104, R105, R114): the bin is free, no reshape is due, and the bin holds a grant of at least the job's
current. -/
def execJobStart (r : CluRef) (bin : Fin 16) (s : State) : Out :=
  let x := s.clu r.t r.c
  let b := s.bin r.t r.c bin
  if b.run.isSome ∨ x.absent ∨ x.dom ≠ .on then .next s
  else
    match nextJob bin (x.arr.shape, x.arr.binsLog2) x.arr.queue, s.held r.t (binReq r.c bin) with
    | some j, some g =>
      if g.req.domain.toNat = s.phys r.t r.c ∧ s.jobCurrent j ≤ g.req.current.toNat then
        let s0 := s.commitArr r.t r.c
        let ceil := s0.ceiling r.t r.c
        let old := (s0.clu r.t r.c).arr
        let duty := min ceil (match b.mode with
          | .rampDown => max 1 (min old.duty (16 - b.step))
          | .gated => if old.duty = 0 then 1 else old.duty
          | _ => max 1 old.duty)
        let s1 := s0.modArr r.t r.c fun y => { y with queue := y.queue.erase j, duty := duty }
        .next (s1.modBin r.t r.c bin fun y =>
          { y with run := some ⟨j, 0, false⟩, mode := if duty < min 16 ceil then .rampUp else .run, step := 0
                   cls := jobClass j.words j.esc, last := some j.owner })
      else .next s
    | _, _ => .next s

/-- RESHAPE (R97): the first queued job needs another configuration and every earlier job has completed. -/
def execReshape (r : CluRef) (s : State) : Out :=
  let a := (s.clu r.t r.c).arr
  match a.queue with
  | [] => .next s
  | j :: _ =>
    if j.conf = (a.shape, a.binsLog2) ∨ (a.bins.any fun b => b.2.run.isSome) then .next s
    else
      let keep := a.queue.map fun x => dBin x.words
      let s1 := (List.range 16).foldl (fun s b => if keep.contains b then s else s.release r.t (binReq r.c b)) s
      .next (s1.modArr r.t r.c fun y => { y with shape := j.conf.1, binsLog2 := j.conf.2, bins := [] })

/-- CHUNK_DRAIN (R92, R98): the running job's next chunk. -/
def execChunkDrain (r : CluRef) (bin : Fin 16) (s : State) : Out :=
  match (s.bin r.t r.c bin).run with
  | none => .next s
  | some j => if j.chunk < chunkCount j.job.words then .next (s.drainChunk r.t r.c bin j) else .next s

/-- A command of the array path completes once none of its jobs is left; MATRIX is the one that waits so (R367). -/
def State.matrixDone (s : State) (owner : Nat) : State :=
  match s.running? owner with
  | some (_, p) => if hOpcode p.words = 0x21 ∧ p.begun ∧ !s.jobsLeft owner then s.complete owner (endStatus p.clamp stOK) p.detail p.clamp else s
  | none => s

/-- JOB_COMPLETE (R106, R112): the tally's arrival; a bin with no next job to stream begins its filler. -/
def execJobComplete (r : CluRef) (bin : Fin 16) (s : State) : Out :=
  match (s.bin r.t r.c bin).run with
  | none => .next s
  | some j =>
    let d := j.job.words
    if j.chunk < chunkCount d then .next s
    else
      let s1 := s.bump arrMacCntCount (dM d * dN d * dK d) r.t r.c
      let s2 := s1.modBin r.t r.c bin fun y =>
        { y with run := none, mode := if s.fget arrPowerFillerWindow r.t r.c = 0 then .rampDown else .filler
                 step := if s.fget arrPowerFillerWindow r.t r.c = 0 then 1 else 0 }
      let s3 := s2.arriveT r.t r.c (dTally d) 1
      let idle := (s3.clu r.t r.c).arr.bins.all fun b => b.2.run.isNone
      .next ((if idle then s3.commitArr r.t r.c else s3).matrixDone j.job.owner)

/-- FILLER_WINDOW_EXPIRE (R113): the filler of an idle bin starts its ramp-down. -/
def execFillerWindowExpire (r : CluRef) (bin : Fin 16) (s : State) : Out :=
  let b := s.bin r.t r.c bin
  if b.run.isNone ∧ b.mode = .filler then .next (s.modBin r.t r.c bin fun y => { y with mode := .rampDown, step := 1 })
  else .next s

/-- RAMP_DOWN_STEP (R113, R398): after step 16 the PEs are gated and the bin's grant is released. -/
def execRampDownStep (r : CluRef) (bin : Fin 16) (s : State) : Out :=
  let b := s.bin r.t r.c bin
  if b.run.isNone ∧ b.mode = .rampDown then
    if b.step < 16 then .next (s.modBin r.t r.c bin fun y => { y with step := y.step + 1 })
    else
      let s1 := (s.modBin r.t r.c bin fun y => { y with mode := .gated, step := 0 }).release r.t (binReq r.c bin)
      .next (s1.modArr r.t r.c fun y => { y with duty := if y.bins.all fun e => e.2.mode = .gated then 0 else y.duty })
  else .next s

/-- RAMP_UP_STEP (R114, R395): the duty rises by one sixteenth, up to its ceiling. -/
def execRampUpStep (r : CluRef) (s : State) : Out :=
  let a := (s.clu r.t r.c).arr
  let top := min 16 (s.ceiling r.t r.c)
  if (a.bins.any fun b => b.2.run.isSome) ∧ a.duty < top then
    .next (s.modArr r.t r.c fun y =>
      { y with duty := y.duty + 1
               bins := y.bins.map fun b => (b.1, if b.2.mode = .rampUp ∧ top ≤ y.duty + 1 then { b.2 with mode := .run } else b.2) })
  else .next s

/-- ARRAY_POWER_COMMIT (R118): the array's next job or stall-run boundary. -/
def execArrayPowerCommit (r : CluRef) (s : State) : Out := .next (s.commitArr r.t r.c)

end Sys2Proof.Machine
end

