-- ==== Sys2Proof/Machine/Atomic.lean ====
section
/-! DEFINITION. The atomic operations of R196, as the shelf, the homes and the link packets perform them. -/

namespace Sys2Proof.Machine

/-- An operation and type of R196 are legal for a width in bytes. -/
def amoLegal (op typ n : Nat) : Bool :=
  decide (op ≤ 7) && (n = 4 || n = 8) && (typ = 0 || typ = 1 || (typ = 2 && op = 0 && n = 4))

/-- The value an atomic leaves: old value, operand (for CAS the new value) and compare value of n bytes. -/
def amoNew (op typ n old b cmp : Nat) : Nat :=
  let bits := 8 * n
  let num (v : Nat) : Int := if typ = 1 then signedOf bits v else ((v % 2 ^ bits : Nat) : Int)
  match op with
  | 0 => if typ = 2 then (toF32 ((f32 (BitVec.ofNat 32 old)).add (f32 (BitVec.ofNat 32 b)))).toNat else (old + b) % 2 ^ bits
  | 1 => if num b < num old then b else old
  | 2 => if num old < num b then b else old
  | 3 => old &&& b
  | 4 => old ||| b
  | 5 => old ^^^ b
  | 6 => b
  | _ => if old = cmp then b else old

end Sys2Proof.Machine
end

