-- ==== Sys2Proof/Machine/Links.lean ====
section
/-! DEFINITION. Link packets and their routing (R322, R325, R330-R340): headers, slots, virtual channels, credits, the choice
of a port, sending requests and replies, and the remote parts of accesses. -/

namespace Sys2Proof
open Machine

/-! ## Packet fields (Table 11-3) -/

def LinkPkt.hops (p : LinkPkt) : Nat := fld p.w0 63 60
def LinkPkt.src (p : LinkPkt) : Nat := fld p.w0 59 48
def LinkPkt.dst (p : LinkPkt) : Nat := fld p.w0 47 36
def LinkPkt.agent (p : LinkPkt) : Nat := fld p.w0 35 26
def LinkPkt.tag (p : LinkPkt) : Nat := fld p.w0 25 10
def LinkPkt.op (p : LinkPkt) : Nat := fld p.w0 7 0
def LinkPkt.count (p : LinkPkt) : Nat := fld p.w1 63 52 + 1
def LinkPkt.poison (p : LinkPkt) : Bool := bit p.w1 48
def LinkPkt.addr (p : LinkPkt) : Nat := fld p.w1 47 0
def LinkPkt.status (p : LinkPkt) : Nat := fld p.w1 47 32
def LinkPkt.detail (p : LinkPkt) : Nat := fld p.w1 31 0
/-- The address bits of an operation whose word 1 also holds a detail (DEDUCED, log entry 31). -/
def LinkPkt.hiAddr (p : LinkPkt) : Nat := fld p.w1 47 32

/-- A packet's slots with its header slot. -/
def LinkPkt.all (p : LinkPkt) : List (BitVec 128) := BitVec.ofNat 128 (p.w0.toNat + p.w1.toNat * 2 ^ 64) :: p.slots

end Sys2Proof

namespace Sys2Proof.Machine

/-- The operations of Table 11-4 by code. -/
def opRD : Nat := 0x01
def opWR : Nat := 0x02
def opWRM : Nat := 0x03
def opAMO : Nat := 0x04
def opRDR : Nat := 0x08
def opACK : Nat := 0x09
def opAMR : Nat := 0x0A
def opCMP : Nat := 0x0B
def opMNR : Nat := 0x0C
def opCMD : Nat := 0x10
def opDBF : Nat := 0x11
def opTSIG : Nat := 0x18
def opCFL : Nat := 0x20
def opHRD : Nat := 0x28
def opHWR : Nat := 0x29
def opHIRQ : Nat := 0x2A
def opMNT : Nat := 0x30

def linkOps : List Nat :=
  [opRD, opWR, opWRM, opAMO, opRDR, opACK, opAMR, opCMP, opMNR, opCMD, opDBF, opTSIG, opCFL, opHRD, opHWR, opHIRQ, opMNT]

/-- Responses travel on VC1. -/
def isReply (op : Nat) : Bool := decide (8 ≤ op ∧ op ≤ 0xC)
/-- The operations that are answered when they fail (R333): an RDR, ACK or AMR. -/
def replyOp (op : Nat) : Option Nat :=
  if op = opRD ∨ op = opHRD then some opRDR
  else if op = opAMO then some opAMR
  else if op = opWR ∨ op = opWRM ∨ op = opCMD ∨ op = opTSIG ∨ op = opCFL ∨ op = opHWR then some opACK
  else if op = opMNT then some opMNR
  else none

/-- The virtual channel of an operation (Table 11-4); memory requests after a dateline use VC7 (R337). -/
def vcOf (op : Nat) (late : Bool) : Nat :=
  if op ≤ 4 then (if late then 7 else 0)
  else if isReply op then 1
  else if op = opCMD ∨ op = opDBF then 2
  else if op = opTSIG then 3
  else if op = opCFL then 4
  else if op = opMNT then 6
  else 5

/-- Receive buffers of Table 11-2, in slots. -/
def vcBuf (vc : Nat) : Nat := if vc = 2 ∨ vc = 3 ∨ vc = 5 ∨ vc = 6 then 512 else 1024

/-! ## Slots -/

def slotBytes (l : List (BitVec 128)) : List Byte := l.flatMap fun w => leBytes 16 w.toNat
def bytesSlots : Nat → List Byte → List (BitVec 128)
  | 0, _ => []
  | n + 1, bs => BitVec.ofNat 128 (leNat (bs.take 16)) :: bytesSlots n (bs.drop 16)
/-- Data padded to whole slots. -/
def dataSlots (bs : List Byte) : List (BitVec 128) := bytesSlots (cdiv bs.length 16) bs

/-- The poison slot (R331): bit i for the i-th 32-byte unit from the one that holds the first byte. -/
def poisonSlot (addr : Nat) (bs : List (BitVec 9)) : BitVec 128 :=
  BitVec.ofNat 128 ((List.range 128).map fun u =>
    if (numbered (addr % 32) bs).any fun b => b.1 / 32 = u && isBad b.2 then 2 ^ u else 0).sum

/-- Data slots of marked bytes at an address, with the poison slot when a byte is poisoned. -/
def markedSlots (addr : Nat) (bs : List (BitVec 9)) : Bool × List (BitVec 128) :=
  let bad := bs.any isBad
  (bad, dataSlots (bs.map dataOf) ++ if bad then [poisonSlot addr bs] else [])

/-- The marked bytes of data slots: every byte of a unit whose poison bit is set arrives poisoned (R331). -/
def slotData (addr n : Nat) (poison : Bool) (slots : List (BitVec 128)) : List (BitVec 9) :=
  let k := cdiv n 16
  let ps := if poison then slots.getD k 0#128 else 0#128
  (numbered (addr % 32) (((slotBytes (slots.take k)).take n).map clean)).map fun b =>
    if ps.getLsbD (b.1 / 32) then b.2 ||| 256#9 else b.2

/-- Bytes of the compressed data of a CFL packet, from its parameter slot (Table 11-5, R342). (DEDUCED, log entry 24.) -/
def cflBytes (ps : BitVec 128) : Nat :=
  let v := ps.toNat
  let f := bitsOf v 3 0
  let n := bitsOf v 30 20 + 1
  let blocks := cdiv n (if f = 6 then 32 else 16)
  blocks * (if f = 6 then 16 else 8) + blocks + bitsOf v 39 31

/-- Slots of a packet with its header, as far as the slots at hand tell it (Table 11-4); none needs more slots. -/
def pktLen (slots : List (BitVec 128)) : Option Nat :=
  match slots with
  | [] => none
  | h :: rest =>
    let p : LinkPkt := ⟨BitVec.ofNat 64 h.toNat, BitVec.ofNat 64 (h.toNat / 2 ^ 64), rest⟩
    let d := cdiv p.count 16
    let po := if p.poison then 1 else 0
    let op := p.op
    if op = opWR ∨ op = opHWR then some (1 + d + po)
    else if op = opWRM then some (10 + po)
    else if op = opAMO then some 3
    else if op = opRDR then some (if p.status = 0 then 1 + d + po else 1)
    else if op = opAMR then some 2
    else if op = opCMP then some 3
    else if op = opMNR ∨ op = opMNT ∨ op = opCMD then some (1 + d)
    else if op = opCFL then (match rest with | [] => none | ps :: _ => some (2 + cdiv (cflBytes ps) 16))
    else some 1

/-- The packet that slots spell. -/
def pktOf (slots : List (BitVec 128)) : LinkPkt :=
  let h := slots.headD 0#128
  ⟨BitVec.ofNat 64 h.toNat, BitVec.ofNat 64 (h.toNat / 2 ^ 64), slots.drop 1⟩

/-- Well formed as R333 asks: a listed op, reserved fields zero, a length that its op allows. -/
def pktOk (p : LinkPkt) : Bool :=
  linkOps.contains p.op && fld p.w0 9 8 = 0 && fld p.w1 51 49 = 0 && (pktLen p.all = some (p.slots.length + 1)) &&
  (if p.op = opWRM then p.count = 128 && p.addr % 128 = 0
   else if p.op = opAMO then
     amoLegal (fld (BitVec.ofNat 64 (p.slots.headD 0#128).toNat) 7 0) (fld (BitVec.ofNat 64 (p.slots.headD 0#128).toNat) 15 8) p.count &&
     (p.slots.headD 0#128).toNat < 2 ^ 16 && !p.poison
   else if p.op = opCMD then p.count % 64 = 0 && decide (p.count ≤ 1024) && !p.poison
   else if p.op = opRD ∨ p.op = opWR then decide (p.addr % 4096 + p.count ≤ 4096)
   else true)

/-- A request's header. -/
def mkHdr (op src dst agent tag : Nat) : W64 :=
  BitVec.ofNat 64 (src % 4096 * 2 ^ 48 + dst % 4096 * 2 ^ 36 + agent % 1024 * 2 ^ 26 + tag % 65536 * 2 ^ 10 + op)
/-- Word 1 of a request. -/
def mkReqW (count addr : Nat) (poison : Bool) : W64 :=
  BitVec.ofNat 64 ((count - 1) % 4096 * 2 ^ 52 + (if poison then 2 ^ 48 else 0) + addr % 2 ^ 48)
/-- Word 1 of a response, or of a request with a detail. -/
def mkRspW (count status detail : Nat) (poison : Bool) : W64 :=
  BitVec.ofNat 64 ((count - 1) % 4096 * 2 ^ 52 + (if poison then 2 ^ 48 else 0) + status % 65536 * 2 ^ 32 + detail % 2 ^ 32)

/-! ## Ports, credits, routes -/

/-- Free credits of a port on a channel (R325). -/
def Port.credit (x : Port) (vc : Nat) : Nat :=
  vcBuf vc - (SMap.get 0 x.sent vc + 16384 - SMap.get 0 x.returned vc) % 16384

/-- The ports of a destination's routing entry that are up, with their dateline bits (R334, R348). -/
def State.routePorts (s : State) (dst : Nat) : List (Bool × Nat × Nat) :=
  let w := s.reg ⟨.lnkRoute, s.mod.lead, 0, dst, 0⟩
  if bit w 31 then
    ((List.range (fld w 25 24 + 1)).map fun i =>
      let e := fld w (6 * i + 5) (6 * i)
      (decide (32 ≤ e), e / 8 % 4, e % 8)).filter fun e => (s.port e.2.1 e.2.2).mode = .up
  else []

/-- Among ports, the one with the most free credits on a channel; the first on a tie (R335). -/
def State.bestPort (s : State) (vc : Nat) (ps : List (Bool × Nat × Nat)) : Option (Bool × Nat × Nat) :=
  ps.foldl (fun best e =>
    match best with
    | none => some e
    | some b => if (s.port b.2.1 b.2.2).credit vc < (s.port e.2.1 e.2.2).credit vc then some e else some b) none

/-- The module that a request names, or the own module (R272). -/
def State.selfId (s : State) : Nat := (s.mod.moduleId.map BitVec.toNat).getD 0xFFF

/-- The agent number of a requester: its tower and, in eight bits, its unit (DEDUCED, log entry 32). -/
def agentOf (o : ReqOwner) (t : Nat) : Nat :=
  t * 256 + (match o with
    | .bunch k => k / 64 % 128
    | .hatch _ c _ _ => 128 + c % 127
    | _ => 255)

/-- The destination module of an outstanding request: a global address names it, a host address goes to the group's
bridging module (R352). -/
def State.dstOf (s : State) (ga : Nat) : Option Nat :=
  if ga / 2 ^ 62 = 1 then
    (if s.flag lnkHostBridgeNone s.mod.lead then none else some (s.fget lnkHostBridgeModule s.mod.lead))
  else if ga / 2 ^ 63 = 1 then some (ga / 2 ^ 48 % 4096)
  else none

/-- The channel on which a request leaves its module. -/
def reqChan (r : Req) : Nat :=
  match r.op with
  | .packet op _ _ => vcOf op false
  | _ => if r.addr.toNat / 2 ^ 62 = 1 then 5 else 0

/-- The port that a flow keeps while it has a request without a reply (R335). -/
def State.flowPort (s : State) (agent dst vc : Nat) : Option Nat :=
  s.reqs.findSome? fun r =>
    match r.stage with
    | .sent p =>
      if agentOf r.owner r.tower = agent ∧ s.dstOf r.addr.toNat = some dst ∧ reqChan r = vc then some p else none
    | _ => none

/-- Put a packet on a port's queue of a channel. -/
def State.enqueue (s : State) (t p vc : Nat) (pkt : LinkPkt) : State :=
  s.modPort t p fun x => { x with txq := SMap.put [] x.txq vc (SMap.get [] x.txq vc ++ [pkt]) }

/-- Count a dropped packet or a late reply. -/
def State.dropped (s : State) (t p : Nat) : State := s.bump lnkErrCntDropped 1 t 0 p

/-- Send a packet of this module: the port's number, or none when no port of the entry is up (R334, R335, R347). A packet to
the own module is delivered locally: it waits beside the receive buffers of the lead tower's port 0, on no channel (DEDUCED, log entry 37). -/
def State.sendPkt (s : State) (pkt : LinkPkt) : Option Nat × State :=
  if s.mod.moduleId.isNone ∧ pkt.op ≠ opMNT ∧ pkt.op ≠ opMNR then (none, s)
  else if s.mod.moduleId = some (BitVec.ofNat 12 pkt.dst) then
    (some 32, s.modPort s.mod.lead 0 fun x => { x with rxq := x.rxq ++ [(8, pkt)] })
  else
    let vc0 := vcOf pkt.op false
    let ps := s.routePorts pkt.dst
    let kept := if isReply pkt.op then none else
      (s.flowPort pkt.agent pkt.dst vc0).bind fun k => ps.find? fun e => portKey e.2.1 e.2.2 = k
    match (match kept with | some e => some e | none => s.bestPort vc0 ps) with
    | none => (none, s)
    | some (late, t, p) => (some (portKey t p), s.enqueue t p (vcOf pkt.op late) pkt)

/-- Answer a request: the response keeps agent, tag and count (R330). A response that finds no route is dropped. -/
def State.answer (s : State) (l : PortRef) (rq : LinkPkt) (status detail : Nat) (poison : Bool) (slots : List (BitVec 128)) : State :=
  match replyOp rq.op with
  | none => s
  | some op =>
    let pkt : LinkPkt := ⟨mkHdr op s.selfId rq.src rq.agent rq.tag, mkRspW rq.count status detail poison, slots⟩
    match s.sendPkt pkt with
    | (some _, s1) => s1
    | (none, s1) => s1.dropped l.t l.p

/-! ## Requests of this module -/

/-- The packet of a request. -/
def State.reqPkt (s : State) (r : Req) (dst : Nat) : LinkPkt :=
  let a := r.addr.toNat % 2 ^ 48
  let host := decide (r.addr.toNat / 2 ^ 62 = 1)
  let hdr (op : Nat) : W64 := mkHdr op s.selfId dst (agentOf r.owner r.tower) r.id
  match r.op with
  | .load n => ⟨hdr (if host then opHRD else opRD), mkReqW n a false, []⟩
  | .store bs =>
    if bs.all Option.isSome then
      let (bad, sl) := markedSlots a (bs.map fun b => b.getD 0#9)
      ⟨hdr (if host then opHWR else opWR), mkReqW bs.length a bad, sl⟩
    else
      let line : List (Option (BitVec 9)) := List.replicate (a % 128) none ++ bs ++ List.replicate (128 - a % 128 - bs.length) none
      let mask : BitVec 128 := BitVec.ofNat 128 (((List.range 128).map fun i => if (line.getD i none).isSome then 2 ^ i else 0).sum)
      let (bad, sl) := markedSlots 0 (line.map fun b => b.getD 0#9)
      ⟨hdr opWRM, mkReqW 128 (a - a % 128) bad, mask :: sl⟩
  | .atomic op typ n x c =>
    ⟨hdr opAMO, mkReqW n a false, [BitVec.ofNat 128 (op + typ * 256), BitVec.ofNat 128 (x.toNat + c.toNat * 2 ^ 64)]⟩
  | .packet op w1 slots => ⟨hdr op, w1, slots⟩

/-- A request leaves on a link, or completes at once with FAULT_LINK when no port takes it (R334, R340). -/
def State.launchReq (s : State) (r : Req) : State :=
  let r1 := { r with sentAt := s.stamp r.tower }
  match s.dstOf r.addr.toNat with
  | none => { s with reqs := s.reqs ++ [{ r1 with stage := .done, status := stFaultLink }] }
  | some d =>
    match s.sendPkt (s.reqPkt r d) with
    | (some p, s1) => { s1 with reqs := s1.reqs ++ [{ r1 with stage := .sent p }] }
    | (none, s1) => { s1 with reqs := s1.reqs ++ [{ r1 with stage := .done, status := stFaultLink }] }

/-- A fresh request record. -/
def State.mkReq (s : State) (addr : Nat) (op : ReqOp) (cls : Nat) (o : ReqOwner) (t : Nat) : Req :=
  { id := s.mod.nextId, addr := BitVec.ofNat 64 addr, op := op, cls := cls, owner := o, tower := t, stage := .issued,
    held := none, sentAt := 0, data := [], status := 0 }

/-- Send the remote parts that an access left (`needs` and `sends`) and forget them; true when there was one. -/
def State.issueRemote (s : State) (g : Agent) : Bool × State :=
  let s0 := { s with needs := [], sends := [] }
  let s1 := s.needs.foldl (fun (x : State) (e : Nat × Nat) =>
    if x.reqs.any fun r => r.owner = g.owner && r.addr.toNat = e.1 then x
    else (x.launchReq (x.mkReq e.1 (.load e.2) g.cls g.owner g.t)).newId) s0
  let s2 := s.sends.foldl (fun (x : State) (e : Nat × List (Option (BitVec 9))) =>
    (x.launchReq (x.mkReq e.1 (.store e.2) g.cls g.owner g.t)).newId) s1
  (!(s.needs.isEmpty && s.sends.isEmpty), s2)

/-- Every request of an owner has been answered. -/
def State.allBack (s : State) (o : ReqOwner) : Bool := s.reqs.all fun r => r.owner ≠ o || r.stage = .done

/-- Forget the answered requests of an owner. -/
def State.forget (s : State) (o : ReqOwner) : State := { s with reqs := s.reqs.filter fun r => r.owner ≠ o }

/-- A request number completes with a status and data. -/
def State.finishReq (s : State) (id st : Nat) (data : List (BitVec 9)) : State :=
  { s with reqs := s.reqs.map fun r => if r.id = id then { r with stage := .done, status := st, data := data } else r }

/-! ## Atomics at their home -/

/-- The places of all bytes of an access are one and mapped (R271); none of them held or lost is answered by the access. -/
def State.onePlace (s : State) (rt ga n : Nat) : Bool :=
  let h := s.home rt (BitVec.ofNat 64 ga)
  let h1 := s.home rt (BitVec.ofNat 64 (ga + n - 1))
  (match h, h1 with
   | .hbm t _, .hbm t' _ => t = t'
   | .bay t c d _, .bay t' c' d' _ => t = t' && c = c' && d = d'
   | .shelf t c _, .shelf t' c' _ => t = t' && c = c'
   | .mmio t _, .mmio t' _ => t = t'
   | .remote m _, .remote m' _ => m = m' && decide (ga / 4096 = (ga + n - 1) / 4096)
   | .lost, .lost => true
   | .held, .held => true
   | _, _ => false)

/-- An atomic performed at its home: the old value's bytes and the status. -/
def State.amoAt (s : State) (g : Agent) (ga op typ n x c : Nat) : Got :=
  if !s.onePlace g.t ga n then ⟨List.replicate n none, stBadAddress, ga, s⟩
  else
    let r := s.gread g (BitVec.ofNat 64 ga) n
    if r.st ≠ 0 then r
    else
      let bad := r.data.any isBad
      let old := leNat (r.data.map dataOf)
      let v := amoNew op typ n old x c
      let bs := (leBytes n v).map fun b => if bad then clean b ||| 256#9 else clean b
      { r with s := (r.s.gwrite g (BitVec.ofNat 64 ga) bs).s }

/-! ## The shelf cache's write-backs (R170, R171) -/

/-- A line's dirty bytes written back to their home under their mask. One whose home is unmapped, lost or held stays in
flight until SHELF_CACHE_WRITEBACK_DROP drops it or its home returns; a remote one leaves on a link. -/
def State.lineBack (s : State) (t c launch : Nat) (l : CLine) : State :=
  if l.dirty = 0#128 then s
  else
    let bs := (List.range 128).map fun i => if l.dirty.getLsbD i then some (l.byte i) else none
    let o : ReqOwner := .writeBack t c launch
    let r := s.mkReq (l.line * 128) (.store bs) 4 o t
    let pend (h : Option Nat) : State := { s.newId with reqs := s.reqs ++ [{ r with held := h }] }
    match s.home t r.addr with
    | .remote m a => (s.dropFar t fun k x => k = m && x = a / 128).newId.launchReq r
    | .unmapped => pend none
    | .lost => pend none
    | .held => pend (some (s.stamp t))
    | _ => (s.gwriteM (cluAgent t c 4 o) r.addr bs).s

/-- Flush the shelf cache: dirty bytes written back, every line invalidated (R171). (DEDUCED, log entry 58.) -/
def State.flushCache (s : State) (t c launch : Nat) : State :=
  let ls := (s.clu t c).cache
  (ls.foldl (fun s l => s.lineBack t c launch l) s).modClu t c fun x => { x with cache := [] }

/-- Make room for one more line: a free choice of the line replaced (R170). (DESIGN CHOICE, log entry 123.) -/
def State.makeRoom (s : State) (t c launch kib : Nat) : State :=
  let ls := (s.clu t c).cache
  if ls.length < kib * 8 then s
  else
    match ls[s.free1 % (max 1 ls.length)]? with
    | none => s
    | some l => ((s.drawn 1).lineBack t c launch l).modClu t c fun x => { x with cache := x.cache.filter fun m => m.line ≠ l.line }

/-- Write-backs of a launch are still in flight. -/
def State.backsLeft (s : State) (launch : Nat) : Bool :=
  s.reqs.any fun r => match r.owner with | .writeBack _ _ l => l = launch | _ => false

end Sys2Proof.Machine
end

