-- ==== Sys2Proof/Machine/Pk1.lean ====
section
/-! DEFINITION. PK1 packed streams (R75-R81): the header, code tables, the block index and the decoder. -/

namespace Sys2Proof.Machine

/-- A decoded PK1 header (Table 02-9). -/
structure PkHeader where
  fmt : Nat
  tables : Nat
  elements : Nat
  tableOff : Nat
  indexOff : Nat
  payOff : Nat
  payBytes : Nat
  deriving DecidableEq, Repr

/-- The formats PK1 applies to: F8E4M3, F8E5M2, Q8, F4, Q4, Q2. -/
def pkFmt (f : Nat) : Bool := 3 ≤ f && f ≤ 8

/-- The header, none when it is in error (R75): magic, version, format, reserved fields and 64-byte placement. -/
def pkHeader (h : List Byte) : Option PkHeader :=
  let g (o n : Nat) : Nat := leNat ((h.drop o).take n)
  let fb := g 5 1
  let p : PkHeader := ⟨fb % 16, g 6 1 + 1, g 8 8, g 16 8, g 24 8, g 32 8, g 40 8⟩
  if g 0 4 = 0x00314B50 ∧ g 4 1 = 1 ∧ fb / 16 = 0 ∧ pkFmt p.fmt ∧ p.tables ≤ 16 ∧ g 7 1 = 0 ∧ g 48 8 = 0 ∧ g 56 8 = 0 ∧
     p.tableOff % 64 = 0 ∧ p.indexOff % 64 = 0 ∧ p.payOff % 64 = 0 then some p else none

/-- Symbols of a format's alphabet (R76). -/
def pkSyms (f : Nat) : Nat := if f ≤ 5 then 256 else 16
/-- Elements that one symbol holds (R76). -/
def pkPer (f : Nat) : Nat := if f = 8 then 2 else 1
/-- Bytes of one code table (R77). -/
def pkTblBytes (f : Nat) : Nat := pkSyms f / 2
/-- Plain bytes of n elements. -/
def pkPlain (f n : Nat) : Nat := cdiv (n * elemBits f) 8

/-- Code lengths of a table, symbol by symbol (R77). -/
def pkLengths (f : Nat) (tbl : List Byte) : List Nat :=
  (List.range (pkSyms f)).map fun s => (tbl.getD (s / 2) 0).toNat / 16 ^ (s % 2) % 16

/-- A table is valid: lengths at most 12 and a complete code, or exactly one symbol of length 1 (R77). -/
def pkTblValid (ls : List Nat) : Bool :=
  ls.all (· ≤ 12) &&
  (((ls.filter (· ≠ 0)).map fun l => 2 ^ (12 - l)).sum = 4096 || ls.filter (· ≠ 0) = [1])

/-- The canonical codes: (length, code, symbol), by length and then symbol (R78). -/
def pkCodes (ls : List Nat) : List (Nat × Nat × Nat) :=
  let syms := (List.range 12).flatMap fun l0 =>
    ((List.range ls.length).filter fun s => ls.getD s 0 = l0 + 1).map fun s => (l0 + 1, s)
  (syms.foldl (fun (acc : List (Nat × Nat × Nat) × Nat × Nat) ls =>
    let (out, prevLen, nxt) := acc
    let code := nxt * 2 ^ (ls.1 - prevLen)
    (out ++ [(ls.1, code, ls.2)], ls.1, code + 1)) ([], 1, 0)).1

/-- Bit k of a block's bytes, from bit 0 of the first byte upward (R80). -/
def bitAt (bs : List Byte) (k : Nat) : Option Nat := (bs[k / 8]?).map fun b => bitsOf b.toNat (k % 8) (k % 8)

/-- One symbol from bit position `pos`: most significant code bit first; none when no code matches or bits run out. -/
def pkSymbol (codes : List (Nat × Nat × Nat)) (bs : List Byte) (pos : Nat) : Option (Nat × Nat) :=
  let rec go (fuel len code : Nat) : Option (Nat × Nat) :=
    match fuel with
    | 0 => none
    | f + 1 =>
      match bitAt bs (pos + len) with
      | none => none
      | some b =>
        let c := code * 2 + b
        match codes.find? fun e => e.1 = len + 1 ∧ e.2.1 = c with
        | some e => some (e.2.2, pos + len + 1)
        | none => go f (len + 1) c
  go 12 0 0

/-- The symbols of a coded block. -/
def pkDecodeSyms (codes : List (Nat × Nat × Nat)) (bs : List Byte) : Nat → Nat → Option (List Nat)
  | 0, _ => some []
  | n + 1, pos =>
    match pkSymbol codes bs pos with
    | none => none
    | some (s, p) => (pkDecodeSyms codes bs n p).map (s :: ·)

/-- The plain bytes that symbols stand for (R76). -/
def pkPlainBytes (f : Nat) (syms : List Nat) : List Byte :=
  if f ≤ 5 then syms.map (BitVec.ofNat 8)
  else (List.range (cdiv syms.length 2)).map fun i =>
    BitVec.ofNat 8 (syms.getD (2 * i) 0 + 16 * syms.getD (2 * i + 1) 0)

/-- Block i of a stream read through `rd` (offset, bytes from the stream start); none when it is in error (R81). -/
def pkBlock (p : PkHeader) (rd : Nat → Nat → List Byte) (i : Nat) : Option (List Byte) :=
  let n := min 256 (p.elements - 256 * i)
  if p.elements ≤ 256 * i then none
  else
    let e := BitVec.ofNat 64 (leNat (rd (p.indexOff + 8 * i) 8))
    let raw := bit e 47
    let t := fld e 46 43
    let len := fld e 42 32
    let off := fld e 31 0 * 4
    let plain := pkPlain p.fmt n
    if fld e 63 48 ≠ 0 ∨ len = 0 ∨ p.payBytes < off + len then none
    else
      let bs := rd (p.payOff + off) len
      if raw then (if len = plain then some bs else none)
      else if p.tables ≤ t then none
      else
        let ls := pkLengths p.fmt (rd (p.tableOff + t * pkTblBytes p.fmt) (pkTblBytes p.fmt))
        if pkTblValid ls then
          (pkDecodeSyms (pkCodes ls) bs (cdiv n (pkPer p.fmt)) 0).map fun ss => (pkPlainBytes p.fmt ss).take plain
        else none

/-- Blocks first … first + count − 1 in order, up to the first block in error: the plain bytes and the failing block. -/
def pkBlocks (p : PkHeader) (rd : Nat → Nat → List Byte) : Nat → Nat → List Byte × Option Nat
  | _, 0 => ([], none)
  | first, n + 1 =>
    match pkBlock p rd first with
    | none => ([], some first)
    | some bs => let (rest, e) := pkBlocks p rd (first + 1) n; (bs ++ rest, e)

end Sys2Proof.Machine
end

