-- ==== Sys2Proof/Machine/Hatch.lean ====
section
/-! DEFINITION. Hatch transfers (R245-R255, R265): HXF descriptors, their checks, the movement of a job's data, and its start
and end. -/

namespace Sys2Proof.Machine

/-! ## The descriptor (Table 08-5) -/

def xClass (d : List W64) : Nat := fld (wordAt d 0) 47 45
def xDeadline (d : List W64) : Nat := fld (wordAt d 0) 43 32
def xTally (d : List W64) : Nat := fld (wordAt d 0) 29 23
def xEw (d : List W64) : Nat := fld (wordAt d 0) 19 18
def xMode (d : List W64) : Nat := fld (wordAt d 0) 17 16
/-- PUT, from the shelf. -/
def xPut (d : List W64) : Bool := bit (wordAt d 0) 8
def xRows (d : List W64) : Nat := fld (wordAt d 1) 47 32 + 1
def xBytes (d : List W64) : Nat := fld (wordAt d 1) 19 0 + 1
def xRemote (d : List W64) : Nat := (wordAt d 2).toNat
def xShStride (d : List W64) : Nat := fld (wordAt d 3) 33 14
def xShelf (d : List W64) : Nat := fld (wordAt d 3) 13 0 * 64
def xRmStride (d : List W64) : Nat := fld (wordAt d 4) 31 0
def xCount (d : List W64) : Nat := fld (wordAt d 5) 63 32
def xFirst (d : List W64) : Nat := fld (wordAt d 5) 31 0

/-- Bits of a transposed element; columns of the source; bytes of a destination row. -/
def xW (d : List W64) : Nat := 4 * 2 ^ xEw d
def xCols (d : List W64) : Nat := xBytes d * 8 / xW d
def xTBytes (d : List W64) : Nat := xRows d * xW d / 8

/-- Rows and bytes per row on the shelf side, and on the remote side of a job that is not PK1. -/
def xShelfRows (d : List W64) : Nat × Nat := if xMode d = 1 ∧ !xPut d then (xCols d, xTBytes d) else (xRows d, xBytes d)
def xFarRows (d : List W64) : Nat × Nat := if xMode d = 1 ∧ xPut d then (xCols d, xTBytes d) else (xRows d, xBytes d)

def xReserved (d : List W64) : Bool :=
  fld (wordAt d 0) 55 48 = 0 && fld (wordAt d 0) 44 44 = 0 && fld (wordAt d 0) 31 30 = 0 && fld (wordAt d 0) 22 20 = 0 &&
  fld (wordAt d 0) 15 9 = 0 && fld (wordAt d 0) 7 0 = 0 && fld (wordAt d 1) 63 48 = 0 && fld (wordAt d 1) 31 20 = 0 &&
  fld (wordAt d 3) 63 34 = 0 && fld (wordAt d 4) 63 32 = 0 && wordAt d 6 = 0#64 && wordAt d 7 = 0#64

/-- The class and deadline fields agree. -/
def classOk (cls deadline : Nat) : Bool := if cls = 7 then deadline ≠ 0 else deadline = 0

/-! ## PK1 streams in memory -/

/-- The mesh agent that reads without an owner. -/
def peekAgent (t : Nat) : Agent := ⟨t, 3, .host 0, 1, 0, 3000⟩

/-- Bytes at a global address as they stand; zeros where they cannot be read now. -/
def State.peek (s : State) (g : Agent) (ga n : Nat) : List (BitVec 9) := (s.gread g (BitVec.ofNat 64 ga) n).data

/-- The bytes are at hand: no part of them is remote, held, unmapped or lost. -/
def State.atHand (s : State) (g : Agent) (ga n : Nat) : Bool :=
  let r := s.gread g (BitVec.ofNat 64 ga) n
  r.st = 0 && r.s.needs.length = s.needs.length

/-- Decoded bytes of a range of blocks (R76). -/
def pkSize (p : PkHeader) (first count : Nat) : Nat :=
  pkPlain p.fmt (min p.elements (256 * (first + count)) - min p.elements (256 * first))

/-- The header of a stream, when its bytes are at hand. -/
def State.pkHead (s : State) (g : Agent) (ga : Nat) : Option PkHeader :=
  if s.atHand g ga 64 then pkHeader ((s.peek g ga 64).map dataOf) else none

/-- The size check of a PK1 transfer: a stream whose header cannot be read at issue, or is in error, is left to the run
(DEDUCED, log entry 43). -/
def State.pkFits (s : State) (t ga first count want : Nat) : Bool :=
  match s.pkHead (peekAgent t) ga with
  | some p => pkSize p first count = want
  | none => true

/-- The checks of R252 and R254. -/
def State.hxfOk (s : State) (t : Nat) (d : List W64) : Bool :=
  fld (wordAt d 0) 63 56 = 1 && xReserved d && decide (xMode d ≤ 2) && decide (xEw d ≤ 2) &&
  (xMode d = 1 || xEw d = 0) && !(xMode d = 2 && xPut d) && classOk (xClass d) (xDeadline d) &&
  xRemote d % 64 = 0 && xRmStride d % 64 = 0 && xShStride d % 64 = 0 && decide ((xShelfRows d).2 ≤ xShStride d) &&
  (xMode d ≠ 1 || (xRows d % 32 = 0 && xBytes d * 8 % xW d = 0 && xCols d % 32 = 0 &&
    (!xPut d || decide (xTBytes d ≤ xRmStride d)))) &&
  (xMode d ≠ 2 || (xCount d ≠ 0 && s.pkFits t (xRemote d) (xFirst d) (xCount d) (xRows d * xBytes d)))

def hxfInside (d : List W64) (lim : Nat) : Bool :=
  decide (regionEnd (xShelf d) (xShelfRows d).1 (xShStride d) (xShelfRows d).2 ≤ lim)

/-! ## Spans (R245, R248, R250) -/

/-- Distinct 512-byte-aligned spans of rows. -/
def spansOf (start rows stride len : Nat) : Nat :=
  ((List.range rows).flatMap fun i =>
    (List.range ((start + i * stride + len - 1) / 512 - (start + i * stride) / 512 + 1)).map fun k => (start + i * stride) / 512 + k).dedup.length

/-- Spans on the shelf side and on the remote side; a PK1 job's compressed side is not known before it reads, and its
decoded size stands for it (DEDUCED, log entry 44). -/
def xSpans (d : List W64) : Nat × Nat :=
  let a := spansOf (xShelf d) (xShelfRows d).1 (xShStride d) (xShelfRows d).2
  (a, if xMode d = 2 then cdiv (xRows d * xBytes d) 512 else spansOf (xRemote d) (xFarRows d).1 (xRmStride d) (xFarRows d).2)

/-! ## Movement -/

/-- The first part of a range that a reset holds, and the dies whose bays it touches. -/
def State.heldAt (s : State) (t : Nat) : Nat → Nat → Nat → Option Nat × List Nat
  | 0, _, _ => (none, [])
  | f + 1, ga, n =>
    if n = 0 then (none, [])
    else
      let k := min n (128 - ga % 128)
      let (h, ds) := s.heldAt t f (ga + k) (n - k)
      match s.home t (BitVec.ofNat 64 ga) with
      | .held => (some ga, ds)
      | .bay ht _ die _ => (h, if ds.contains (ht * 2 + die) then ds else (ht * 2 + die) :: ds)
      | _ => (h, ds)

/-- The ranges at the remote side of a job. -/
def State.xRanges (s : State) (g : Agent) (d : List W64) : List (Nat × Nat) :=
  if xMode d = 2 then
    (xRemote d, 64) ::
    (match s.pkHead g (xRemote d) with
     | none => []
     | some p =>
       let n := min (xCount d) (cdiv p.elements 256)
       [(xRemote d + p.indexOff + 8 * xFirst d, 8 * n), (xRemote d + p.tableOff, p.tables * pkTblBytes p.fmt)] ++
       (if s.atHand g (xRemote d + p.indexOff + 8 * xFirst d) (8 * n) then
         (List.range n).map fun i =>
           let e := BitVec.ofNat 64 (leNat ((s.peek g (xRemote d + p.indexOff + 8 * (xFirst d + i)) 8).map dataOf))
           (xRemote d + p.payOff + fld e 31 0 * 4, fld e 42 32)
        else []))
  else (List.range (xFarRows d).1).map fun i => (xRemote d + i * xRmStride d, (xFarRows d).2)

/-- A row of a transposed matrix of elements of w bits: destination row j, built from the source rows. -/
def transposeRow (w : Nat) (src : List (List (Option (BitVec 9)))) (j : Nat) : List (Option (BitVec 9)) :=
  if w = 4 then
    (List.range (src.length / 2)).map fun b =>
      match (src.getD (2 * b) []).getD (j / 2) none, (src.getD (2 * b + 1) []).getD (j / 2) none with
      | some x, some y =>
        let nib (v : BitVec 9) : Nat := (dataOf v).toNat / 16 ^ (j % 2) % 16
        some (BitVec.ofNat 9 (nib x + 16 * nib y + if isBad x || isBad y then 256 else 0))
      | _, _ => none
  else
    let k := w / 8
    src.flatMap fun r => (List.range k).map fun b => r.getD (j * k + b) none

/-- The rows of the destination, from the rows of the source. -/
def destRows (d : List W64) (src : List (List (Option (BitVec 9)))) : List (List (Option (BitVec 9))) :=
  if xMode d = 1 then (List.range (xCols d)).map fun j => transposeRow (xW d) src j else src

/-- CLU_HATCH_ERR records the first error of a cluster (R253): cause and detail. -/
def State.hatchErr (s : State) (t c cause detail : Nat) (j : EngJob) : State :=
  if s.flag cluHatchErrValid t c then s
  else s.setReg ⟨.cluHatchErr, t, c, 0, 0⟩ (BitVec.ofNat 64 (2 ^ 63 + cause * 2 ^ 60 + detail % 2 ^ 32 * 2 ^ 20 + j.off))

/-- What a row met: an error to record and to signal. -/
def State.rowMet (s : State) (t c : Nat) (j : EngJob) (row st : Nat) (bad : Bool) : State :=
  let s1 := if st = 0 then s
    else (if st = stBadAddress then s.hatchErr t c 2 row j else s).signal j.owner st 0
  if bad then (s1.hatchErr t c 1 row j).signal j.owner stUncorrectable 0 else s1

/-- Segments moved are counted. -/
def State.countSpans (s : State) (t c : Nat) (d : List W64) : State :=
  let n := max (xSpans d).1 (xSpans d).2
  if xPut d then s.bump cluHatchSpansPut n t c else s.bump cluHatchSpansFetch n t c

/-- The agent of a job: its own bay is read by the hatch, all else over the mesh. -/
def State.hatchAgent (s : State) (t c k : Nat) (d : List W64) : Agent :=
  let own := match s.home t (BitVec.ofNat 64 (xRemote d)) with | .bay ht hc _ _ => ht = t && hc = c | _ => false
  ⟨t, xClass d, .hatch t c k none, if own then 0 else 1, t * 256 + c * 2 + 1, 4000 + cluKey t c⟩

/-- Shelf bytes of the written rows, in destination order. -/
def wroteBytes (rows : List (List (Option (BitVec 9)))) : List (BitVec 9) := rows.flatMap fun r => r.filterMap id

/-- Write a row into the shelf; bytes that were not moved stay. -/
def State.shelfRow (s : State) (t c off : Nat) (row : List (Option (BitVec 9))) : State :=
  s.shelfPuts t c (row.zipIdx.filterMap fun b => b.1.map fun v => (off + b.2, v))

/-- A FETCH in plain or transpose mode; none when parts are still to come over a link. -/
def State.fetchRows (s : State) (t c k : Nat) (j : EngJob) : State :=
  let d := j.words
  let g := s.hatchAgent t c k d
  let (src, s1) := (List.range (xRows d)).foldl (fun (a : List (List (Option (BitVec 9))) × State) i =>
    let r := a.2.gread g (BitVec.ofNat 64 (xRemote d + i * xRmStride d)) (xBytes d)
    (a.1 ++ [r.bytes], r.s.rowMet t c j i r.st (r.data.any isBad))) ([], s)
  let dst := destRows d src
  let s2 := dst.zipIdx.foldl (fun s r => s.shelfRow t c (xShelf d + r.2 * xShStride d) r.1) s1
  (s2.countSpans t c d).cvuHatch t c (xTally d) (wroteBytes dst)

/-- A FETCH in PK1 mode (R81): blocks up to the first one in error. An uncorrectable byte among those that a block reads
marks the block's bytes as poisoned (DEDUCED, log entry 45). -/
def State.fetchPk (s : State) (t c k : Nat) (j : EngJob) : State :=
  let d := j.words
  let g := s.hatchAgent t c k d
  let s1 := (s.xRanges g d).foldl (fun (s : State) r => (s.gread g (BitVec.ofNat 64 r.1) r.2).s) s
  let rd (off n : Nat) : List Byte := (s.peek g (xRemote d + off) n).map dataOf
  let bad := (s.xRanges g d).any fun r => (s.peek g r.1 r.2).any isBad
  let st := (s.xRanges g d).foldl (fun a r => if a = 0 then (s.gread g (BitVec.ofNat 64 r.1) r.2).st else a) 0
  let (bytes, err) : List Byte × Option Nat :=
    match s.pkHead g (xRemote d) with
    | some p => pkBlocks p rd (xFirst d) (xCount d)
    | none => ([], some (xFirst d))
  let marked := (bytes.take (xRows d * xBytes d)).map fun b => if bad then clean b ||| 256#9 else clean b
  let s2 := (numbered 0 marked).foldl (fun (s : State) b =>
    s.shelfPut t c (xShelf d + b.1 / xBytes d * xShStride d + b.1 % xBytes d) b.2) s1
  let s3 := s2.rowMet t c j 0 st bad
  let s4 := match err with
    | some b => (s3.hatchErr t c 3 b j).signal j.owner stInconsistent (b % 2 ^ 32)
    | none => s3
  (s4.countSpans t c d).cvuHatch t c (xTally d) marked

/-- A PUT. -/
def State.putRows (s : State) (t c k : Nat) (j : EngJob) : State :=
  let d := j.words
  let g := s.hatchAgent t c k d
  let (src, s1) := (List.range (xRows d)).foldl (fun (a : List (List (Option (BitVec 9))) × State) i =>
    let (bs, s2) := a.2.shelfRead t c (xShelf d + i * xShStride d) (xBytes d)
    (a.1 ++ [bs.map some], s2.rowMet t c j i 0 (bs.any isBad))) ([], s)
  let (out, s2) := (destRows d src).zipIdx.foldl (fun (a : List (BitVec 9) × State) r =>
    let w := a.2.gwriteM g (BitVec.ofNat 64 (xRemote d + r.2 * xRmStride d)) r.1
    (if w.st = 0 then a.1 ++ r.1.filterMap id else a.1, w.s.rowMet t c j r.2 w.st false)) ([], s1)
  (s2.countSpans t c d).cvuHatch t c (xTally d) out

/-- A job in flight moves its data, unless a part is held by a reset or still on a link. -/
def State.hatchMove (s : State) (t c k : Nat) (r : HatchRun) : State :=
  let d := r.job.words
  let o : ReqOwner := .hatch t c k none
  let g := s.hatchAgent t c k d
  let ranges := s.xRanges g d
  let held := ranges.findSome? fun x => (s.heldAt t (x.2 / 128 + 2) x.1 x.2).1
  let timedOut := s.reqs.any fun q => q.owner = o && q.held.isSome && q.stage = .done
  match (if timedOut then none else held) with
  | some a =>
    if s.reqs.any fun q => q.owner = o && q.held.isSome then s
    else
      let q := s.mkReq a (.load 1) (xClass d) o t
      { s.newId with reqs := s.reqs ++ [{ q with held := some (s.stamp t) }] }
  | none =>
    let s1 := if xPut d then s.putRows t c k r.job else if xMode d = 2 then s.fetchPk t c k r.job else s.fetchRows t c k r.job
    if s1.needs.isEmpty then
      let dies := (ranges.flatMap fun x => (s.heldAt t (x.2 / 128 + 2) x.1 x.2).2).dedup
      let (_, s2) := s1.issueRemote g
      s2.modClu t c fun x => { x with hatchRun := SMap.put default x.hatchRun k { r with moved := true, dies := dies } }
    else ((({ s with needs := s1.needs, sends := [] } : State).issueRemote g).2)

/-- The tower whose storekeeper a job of 256 or more spans needs the hatch's grant from: that of its far bay or HBM; jobs to
link or shelf addresses need none (R250, R392). -/
def State.hatchAsks (s : State) (t : Nat) (d : List W64) : Option Nat :=
  if (xSpans d).2 < 256 then none
  else match s.home t (BitVec.ofNat 64 (xRemote d)) with
    | .bay ht _ _ _ => some ht
    | .hbm ht _ => some ht
    | _ => none

/-- A job has the leave it needs. -/
def State.hatchLeave (s : State) (t c : Nat) (d : List W64) : Bool :=
  match s.hatchAsks t d with | some ht => (s.held ht (hatchReq c)).isSome | none => true

/-- A free slot among the four in flight. -/
def Cluster.hatchSlot (x : Cluster) : Option Nat := (List.range 4).find? fun k => !(x.hatchRun.any fun e => e.1 = k)

/-- HATCH_JOB_START (R249, R250): the first queued job takes a free slot and its data move. -/
def execHatchJobStart (r : CluRef) (s : State) : Out :=
  let x := s.clu r.t r.c
  match x.hatchQ, x.hatchSlot with
  | j :: rest, some k =>
    if x.dom = .on ∧ s.hatchLeave r.t r.c j.words then
      let run : HatchRun := ⟨j, false, [], false⟩
      let s1 := s.modClu r.t r.c fun y => { y with hatchQ := rest, hatchRun := SMap.put default y.hatchRun k run }
      .next (s1.hatchMove r.t r.c k run)
    else .next s
  | _, _ => .next s

/-- HATCH_JOB_COMPLETE (R248, R265, R295): once its data have moved and every remote part is answered, the job arrives. -/
def execHatchJobComplete (r : CluRef) (k : Fin 4) (s : State) : Out :=
  match (s.clu r.t r.c).hatchRun.find? fun e => e.1 = k.val with
  | none => .next s
  | some (_, h0) =>
    let o : ReqOwner := .hatch r.t r.c k none
    let s0 := if h0.moved then s else s.hatchMove r.t r.c k h0
    let h := SMap.get default (s0.clu r.t r.c).hatchRun k
    if h.moved ∧ (s0.reqs.all fun q => q.owner ≠ o || q.stage = .done || q.held.isSome) then
      let bad := s0.reqs.foldl (fun a q => if a = 0 ∧ q.owner = o then q.status else a) 0
      let s1 := (s0.forget o).modClu r.t r.c fun x => { x with hatchRun := x.hatchRun.filter fun e => e.1 ≠ k.val }
      let s2 := if bad = 0 then s1 else s1.signal h.job.owner bad 0
      let s3 := if h.lost then (s2.hatchErr r.t r.c 4 0 h.job).signal h.job.owner stLost 0 else s2
      let s4 := match s3.hatchAsks r.t h.job.words with
        | some ht =>
          if (s3.clu r.t r.c).hatchRun.any fun e => s3.hatchAsks r.t e.2.job.words = some ht then s3 else s3.release ht (hatchReq r.c)
        | none => s3
      .next (s4.arriveT r.t r.c (xTally h.job.words) 1)
    else .next s0

end Sys2Proof.Machine
end

