-- ==== Sys2Proof/Machine/Control.lean ====
section
/-! DEFINITION. Barriers' release, the end of a team, and the control instructions (R145, R152-R155, R162, R197, R198). -/

namespace Sys2Proof.Machine

/-! ## Barriers and retiring -/

/-- The slot of bunch b of a team (R143). -/
def slotOf (t c b : Nat) : Nat := bunchKey t c (b % 4) (b / 4)

/-- A barrier releases: its bunches go on after their BAR, and it is empty again (R162). -/
def State.releaseBar (s : State) (t c n : Nat) : State :=
  let ids := SMap.get [] (s.clu t c).bars n
  (ids.foldl (fun s i => s.modBunch (slotOf t c i) fun y => { y with run := .ready, pc := y.pc + 8 }) s).modClu t c fun x =>
    { x with bars := SMap.put [] x.bars n [], barSince := SMap.put 0 x.barSince n 0 }

/-- Release every barrier whose arrivals equal the unretired bunches (R162). -/
def State.checkBars (s : State) (t c : Nat) : State :=
  match (s.clu t c).team with
  | none => s
  | some tm => (List.range 16).foldl (fun s n =>
      let k := (SMap.get [] (s.clu t c).bars n).length
      if k ≠ 0 ∧ k = tm.team - tm.retired.length then s.releaseBar t c n else s) s

/-- Free a bunch's slot. -/
def State.clearBunch (s : State) (k : Nat) : State := s.setBunch k default

/-- The registers that name the running team read as when none runs. -/
def State.teamRegs (s : State) (t c : Nat) : State :=
  ((s.setReg ⟨.teLaunch, t, c, 0, 0⟩ 0#64).setReg ⟨.teTallyWin, t, c, 0, 0⟩ 0#64)

/-- A cluster's team ends: the shelf cache is flushed and the cluster is free (R145). -/
def State.endTeam (s : State) (t c : Nat) : State :=
  match (s.clu t c).team with
  | none => s
  | some tm => ((s.flushCache t c tm.launch).modClu t c fun x => { x with team := none, bars := [], barSince := [] }).teamRegs t c

/-- A bunch retires (R145): its slot is free, it counts at every barrier, and the last one ends the team. -/
def State.retire (s : State) (b : BunchRef) : State :=
  let x := s.bunch (bkey b)
  let s1 := (s.clearBunch (bkey b)).modClu b.t b.c fun y =>
    { y with team := y.team.map fun tm => { tm with retired := tm.retired ++ [x.idx] } }
  let s2 := s1.checkBars b.t b.c
  match (s2.clu b.t b.c).team with
  | some tm => if tm.retired.length = tm.team then s2.endTeam b.t b.c else s2
  | none => s2

/-! ## Control instructions -/

/-- The C format's reserved bits are zero, k is as asked, and the target is a multiple of 8 or, where unused, zero. -/
def cLegal (k : Nat → Bool) (target : Bool) (h : Th) : Bool :=
  fld h.w 31 15 = 0 && k (wCk h.w) && (if target then wImm h.w % 8 = 0 else wImm h.w = 0)
def kNone (k : Nat) : Bool := k = 0

def wTarget (w : W64) : W32 := BitVec.ofNat 32 (wImm w)
/-- Jump or fall through. -/
def jumpIf (p : Th → Bool) (h : Th) (s : State) : Ran := .ok s (if p h then wTarget h.w else h.next)
def ckMask (h : Th) : BitVec 64 := h.x.mask (wCk h.w)

/-- NOP. -/
def execNop (b : BunchRef) (w : W64) (s : State) : Out := .next (issue [0xA0] (cLegal kNone false) (fun h s => .ok s h.next) b w s)
/-- BRA. -/
def execBra (b : BunchRef) (w : W64) (s : State) : Out := .next (issue [0xA1] (cLegal kNone true) (jumpIf fun _ => true) b w s)
/-- BRA.ANY: some active thread's bit is 1 (R153). -/
def execBraAny (b : BunchRef) (w : W64) (s : State) : Out :=
  .next (issue [0xA2] (cLegal okMask true) (jumpIf fun h => anyOf h.x.m0 (ckMask h)) b w s)
/-- BRA.ALL: no active thread's bit is 0. -/
def execBraAll (b : BunchRef) (w : W64) (s : State) : Out :=
  .next (issue [0xA3] (cLegal okMask true) (jumpIf fun h => allOf h.x.m0 (ckMask h)) b w s)
/-- BRA.NONE: no active thread's bit is 1. -/
def execBraNone (b : BunchRef) (w : W64) (s : State) : Out :=
  .next (issue [0xA4] (cLegal okMask true) (jumpIf fun h => noneOf h.x.m0 (ckMask h)) b w s)
/-- BRA.U.Z. -/
def execBraUZ (b : BunchRef) (w : W64) (s : State) : Out :=
  .next (issue [0xA5] (cLegal okUni true) (jumpIf fun h => h.x.uni (wCk h.w) == 0#32) b w s)
/-- BRA.U.NZ. -/
def execBraUNz (b : BunchRef) (w : W64) (s : State) : Out :=
  .next (issue [0xA6] (cLegal okUni true) (jumpIf fun h => h.x.uni (wCk h.w) != 0#32) b w s)
/-- CALL: the link goes to the uniform (R198). -/
def execCall (b : BunchRef) (w : W64) (s : State) : Out :=
  .next (issue [0xA7] (cLegal okUni true)
    (fun h s => .ok (s.setBunch (bkey h.b) (h.x.setUni (wCk h.w) h.next)) (wTarget h.w)) b w s)
/-- RET: the offset that the uniform holds, which must be a multiple of 8 (R197). -/
def execRet (b : BunchRef) (w : W64) (s : State) : Out :=
  .next (issue [0xA8] (cLegal okUni false)
    (fun h s => if (h.x.uni (wCk h.w)).toNat % 8 = 0 then .ok s (h.x.uni (wCk h.w)) else .fault s ⟨.illegalInstruction, 0, 0⟩) b w s)

/-- Shelf offset of a bunch's i-th spill entry (R154). -/
def spillAt (h : Th) (i : Nat) : Nat := h.tm.spillBase * 64 + (16 * h.b.e + h.b.k) * h.tm.spillDepth * 16 + i * 16

/-- The 16 bytes of a spilled entry. -/
def spillBytes (e : MaskEnt) : List (BitVec 9) := (leBytes 8 e.outer.toNat ++ leBytes 4 e.join.toNat ++ leBytes 4 0).map clean

/-- PUSHM: the oldest of 16 held entries spills first; the stack grows, the mask narrows (R152, R154, R155). -/
def runPushm (h : Th) (s : State) : Ran :=
  let full := decide (16 ≤ h.x.stack.length)
  if full ∧ h.tm.spillDepth ≤ h.x.spilled then .fault s ⟨.maskSpillExhausted, 0, 0⟩
  else
    let m := h.x.m0 &&& ckMask h
    let e : MaskEnt := ⟨h.x.m0, wTarget h.w⟩
    let s1 := if full then s.shelfWrite h.b.t h.b.c (spillAt h h.x.spilled) (spillBytes (h.x.stack.getLastD e)) else s
    let y : Bunch := { h.x with m0 := m, stack := e :: (if full then h.x.stack.dropLast else h.x.stack)
                                spilled := if full then h.x.spilled + 1 else h.x.spilled }
    .ok (s1.setBunch (bkey h.b) y) (if m = 0#64 then e.join else h.next)
def execPushm (b : BunchRef) (w : W64) (s : State) : Out := .next (issue [0xA9] (cLegal okMask true) runPushm b w s)

/-- ANDM (R152). -/
def runAndm (h : Th) (s : State) : Ran :=
  match h.x.stack with
  | [] => .fault s ⟨.illegalInstruction, 0, 0⟩
  | e :: _ =>
    let m := h.x.m0 &&& ckMask h
    .ok (s.setBunch (bkey h.b) { h.x with m0 := m }) (if m = 0#64 then e.join else h.next)
def execAndm (b : BunchRef) (w : W64) (s : State) : Out := .next (issue [0xAA] (cLegal okMask false) runAndm b w s)

/-- A spilled entry read back. (DEDUCED, log entry 22.) -/
def spillEntry (bs : List (BitVec 9)) : MaskEnt :=
  let v := leNat (bs.map dataOf)
  ⟨BitVec.ofNat 64 v, BitVec.ofNat 32 (v / 2 ^ 64)⟩

/-- POPM: the outer mask of the top entry; the newest spilled entry is reloaded (R152, R154). -/
def runPopm (h : Th) (s : State) : Ran :=
  match h.x.stack with
  | [] => .fault s ⟨.illegalInstruction, 0, 0⟩
  | e :: rest =>
    let y : Bunch := { h.x with m0 := e.outer &&& h.x.live, stack := rest }
    if h.x.spilled = 0 then h.bunch s y
    else
      let (bs, s1) := s.shelfRead h.b.t h.b.c (spillAt h (h.x.spilled - 1)) 16
      h.bunch s1 { y with stack := rest ++ [spillEntry bs], spilled := h.x.spilled - 1 }
def execPopm (b : BunchRef) (w : W64) (s : State) : Out := .next (issue [0xAB] (cLegal kNone false) runPopm b w s)

/-- EXIT (R152, R145): a bunch whose live mask becomes empty retires. -/
def runExit (h : Th) (s : State) : Ran :=
  let live := h.x.live &&& ~~~h.x.m0
  if live = 0#64 then .gone (s.retire h.b)
  else
    match h.x.stack with
    | [] => .fault s ⟨.illegalInstruction, 0, 0⟩
    | e :: _ => .ok (s.setBunch (bkey h.b) { h.x with live := live, m0 := 0#64 }) e.join
def execExit (b : BunchRef) (w : W64) (s : State) : Out := .next (issue [0xAC] (cLegal kNone false) runExit b w s)

end Sys2Proof.Machine
end

