-- ==== Sys2Proof/Machine/Convert.lean ====
section
/-! DEFINITION. The converters (R204-R208): QCV descriptors, their checks, and the start and end of a job. -/

namespace Sys2Proof.Machine

/-! ## The descriptor (Table 06-11) -/

def qTag (d : List W64) : Nat := fld (wordAt d 0) 55 40
def qRole (d : List W64) : Nat := fld (wordAt d 0) 33 33
def qStoch (d : List W64) : Bool := bit (wordAt d 0) 32
def qMx (d : List W64) : Bool := bit (wordAt d 0) 30
def qTally (d : List W64) : Nat := fld (wordAt d 0) 29 23
def qDst (d : List W64) : Nat := fld (wordAt d 0) 7 4
def qSrc (d : List W64) : Nat := fld (wordAt d 0) 3 0
def qTs (d : List W64) : W32 := BitVec.ofNat 32 (fld (wordAt d 1) 63 32)
def qRows (d : List W64) : Nat := fld (wordAt d 1) 31 16 + 1
def qN (d : List W64) : Nat := fld (wordAt d 1) 15 0 + 1
def qFirst (d : List W64) : Nat := fld (wordAt d 4) 57 34
def qSprLen (d : List W64) : Nat := fld (wordAt d 4) 33 14
def qSpr (d : List W64) : Nat := fld (wordAt d 4) 13 0 * 64
def qStart (d : List W64) : Nat := fld (wordAt d 5) 63 32
def qIndex (d : List W64) : Nat := fld (wordAt d 5) 19 0

/-- A job quantises, or it dequantises (R205). -/
def qQuant (d : List W64) : Bool := decide (qSrc d ≤ 2) && decide (5 ≤ qDst d ∧ qDst d ≤ 9)
def qDeq (d : List W64) : Bool := decide (qDst d ≤ 2) && decide (5 ≤ qSrc d ∧ qSrc d ≤ 9)
/-- The format of the narrow side. -/
def qNarrow (d : List W64) : Nat := if qQuant d then qDst d else qSrc d
/-- The sprout flag where it counts: F4 and Q4, not escalated. -/
def qSprout (d : List W64) (esc : Bool) : Bool := bit (wordAt d 0) 31 && (qNarrow d = 6 || qNarrow d = 7) && !esc
/-- MX, where it counts. -/
def qMxOn (d : List W64) : Bool := qNarrow d = 6 && qMx d

/-- The source as an operand; a read under escalation takes the tensor scale whatever MX says (R139). -/
def qFrom (d : List W64) (esc : Bool) : Opnd :=
  let e := esc && qDeq d
  { fmt := if e then 3 else qSrc d, mx := qMxOn d && !e, sprout := qSprout d esc && qDeq d, esc := e
    elem := fld (wordAt d 2) 13 0 * 64, scale := fld (wordAt d 2) 27 14 * 64, stride := fld (wordAt d 2) 47 28, ts := qTs d
    firstBlock := qFirst d, spr := qSpr d, sprLen := qSprLen d }

/-- The destination as an operand. -/
def qTo (d : List W64) (esc : Bool) : Opnd :=
  let e := esc && qQuant d
  { fmt := if e then 3 else qDst d, mx := qMxOn d, sprout := false, esc := e
    elem := fld (wordAt d 3) 13 0 * 64, scale := fld (wordAt d 3) 27 14 * 64, stride := fld (wordAt d 3) 47 28, ts := qTs d
    firstBlock := qFirst d, spr := qSpr d, sprLen := qSprLen d }

/-- The tensor scale that applies. -/
def qScale (d : List W64) (esc : Bool) : ℚ := if qMxOn d && !(esc && qDeq d) then 1 else (f32 (qTs d)).toQ

def qReserved (d : List W64) : Bool :=
  fld (wordAt d 0) 39 34 = 0 && fld (wordAt d 0) 22 8 = 0 && fld (wordAt d 2) 63 48 = 0 && fld (wordAt d 3) 63 48 = 0 &&
  fld (wordAt d 4) 63 58 = 0 && fld (wordAt d 5) 31 20 = 0 && wordAt d 6 = 0#64 && fld (wordAt d 7) 63 32 = 0

/-- The checks of R205; rows are those of the format read or written under the escalation in force (DEDUCED, log entry 41). -/
def qcvOk (d : List W64) (esc : Bool) : Bool :=
  let a := qFrom d esc
  let b := qTo d esc
  fld (wordAt d 0) 63 56 = 1 && qReserved d && (qQuant d || qDeq d) &&
  ((qMxOn d && !(esc && qDeq d)) || validScale (qTs d)) &&
  a.stride % 64 = 0 && b.stride % 64 = 0 &&
  decide (rowBytes a.fmt (qN d) ≤ a.stride) && decide (rowBytes b.fmt (qN d) ≤ b.stride) &&
  (!(qQuant d && qSprout d esc) || (qFirst d % 256 = 0 && qIndex d % 64 = 0))

/-- Every region of a descriptor lies in the first `lim` bytes of the shelf. -/
def qcvInside (d : List W64) (esc : Bool) (lim : Nat) : Bool :=
  let b := qTo d esc
  let last := qFirst d + (qRows d - 1) * (b.stride / max 1 (blockBytes b.fmt)) + cdiv (qN d) (blockLen b.fmt) - 1
  ((qFrom d esc).ends (qRows d) (qN d) ++ b.ends (qRows d) (qN d) ++
    (if qQuant d && qSprout d esc then [qSpr d + qIndex d + qSprLen d, qSpr d + 4 * (last / 256 + 1)] else [])).all
    fun e => decide (e ≤ lim)

/-! ## Jobs -/

/-- The escalation that a job reads or writes under (R137, R139): role 0 only. -/
def State.qEsc (s : State) (t : Nat) (d : List W64) : Bool := qRole d = 0 && s.escFor t (qTag d) (qNarrow d)

/-- The elements of a job's source, row by row. -/
def State.qElems (s : State) (t c : Nat) (o : Opnd) (rows n : Nat) : List (List Elem) :=
  let p := s.plane t c o
  (List.range rows).map fun i => (List.range n).map fun j => p.at i j

/-- The converter quantises (R206, R208). -/
def State.qcvQuant (s : State) (t c e : Nat) (j : EngJob) (esc : Bool) : State :=
  let d := j.words
  let k : QPar :=
    { fmt := qDst d, mx := qMxOn d, sprout := qSprout d esc, stoch := qStoch d, tau := s.tau (qTag d), ts := qScale d esc
      stride := (qTo d esc).stride, firstBlock := qFirst d, start := qStart d, cap := qSprLen d, index := qIndex d, esc := esc }
  let es := s.qElems t c (qFrom d esc) (qRows d) (qN d)
  let a := quantRows k (s.te t c e).conv (es.map fun r => r.map fun x => x.value 1)
  let puts (base : Nat) (bs : List (Nat × Byte)) : List (Nat × BitVec 9) := bs.map fun b => (base + b.1, clean b.2)
  let s1 := s.touchRows t c (qFrom d esc) 0 (qRows d) (qN d)
  let s2 := ((s1.shelfPuts t c (puts (qTo d esc).elem a.elems)).shelfPuts t c (puts (qTo d esc).scale a.scales)).shelfPuts t c
    (puts (qSpr d) (a.sproutBytes k))
  let s3 := (s2.modTe t c e fun y => { y with conv := a.lanes }).noteWrite t c j.owner (qTag d) (qRole d) (qDst d) a.cnt
  let run : EngJob := { j with words := d.set 7 (BitVec.ofNat 64 (a.streamEnd k)) }
  (if es.any fun r => r.any Elem.uncorr then s3.signal j.owner stUncorrectable 0 else s3).modTe t c e fun y => { y with qcvRun := some run }

/-- The converter dequantises (R206, R139). -/
def State.qcvDeq (s : State) (t c e : Nat) (j : EngJob) (esc : Bool) : State :=
  let d := j.words
  let o := qFrom d esc
  let es := s.qElems t c o (qRows d) (qN d)
  let s1 := s.touchRows t c o 0 (qRows d) (qN d)
  match fmtOf (qDst d) with
  | none => s1
  | some fo =>
    let w (x : State × SMap W32) (r : List Elem × Nat) : State × SMap W32 :=
      let (bs, l) := roundRow fo (qStoch d) x.2 (r.1.map fun y => y.value (qScale d esc))
      (x.1.shelfWrite t c ((qTo d esc).elem + r.2 * (qTo d esc).stride) (bs.map clean), l)
    let (s2, lanes) := es.zipIdx.foldl w (s1, (s.te t c e).conv)
    let (sp, cl, inv) := if o.esc then (0, 0, 0) else decodeCounts es
    let s3 := (s2.noteDecode t (qTag d) sp cl inv 0).modTe t c e fun y => { y with conv := lanes, qcvRun := some j }
    if es.any fun r => r.any Elem.uncorr then s3.signal j.owner stUncorrectable 0 else s3

/-- QCV_JOB_START (R207): the TE's previous job has ended. -/
def execQcvJobStart (r : CluRef) (e : Fin 4) (s : State) : Out :=
  let y := s.te r.t r.c e
  match y.qcvRun, y.qcv with
  | none, j :: rest =>
    if (s.clu r.t r.c).dom = .on then
      let s1 := s.modTe r.t r.c e fun y => { y with qcv := rest }
      let esc := s1.qEsc r.t j.words
      .next (if qQuant j.words then s1.qcvQuant r.t r.c e j esc else s1.qcvDeq r.t r.c e j esc)
    else .next s
  | _, _ => .next s

/-- QCV_JOB_COMPLETE (R207, R208): spr_end is written where the job wrote sprouts, then the tally's arrival. -/
def execQcvJobComplete (r : CluRef) (e : Fin 4) (s : State) : Out :=
  match (s.te r.t r.c e).qcvRun with
  | none => .next s
  | some j =>
    let d := j.words
    let s1 := s.modTe r.t r.c e fun y => { y with qcvRun := none }
    let s2 := if qQuant d && qSprout d (s.qEsc r.t d) then
        s1.shelfWrite r.t r.c (j.off + 56) ((leBytes 4 (wordAt d 7).toNat).map clean) else s1
    .next (s2.arriveT r.t r.c (qTally d) 1)

end Sys2Proof.Machine
end

