-- ==== Sys2Proof/Machine/Memory.lean ====
section
/-! DEFINITION. The memory instructions (R169-R172, R193-R196, R270, R271, R284) and the return of global accesses. -/

namespace Sys2Proof.Machine

/-! ## Fields of the M format (Table 06-2) -/

def mOff (w : W64) : Int := signedOf 20 (fld w 63 44)
def mW (w : W64) : Nat := fld w 43 41
def mBytes (w : W64) : Nat := 2 ^ mW w
def mOp (w : W64) : Nat := fld w 40 38
def mTyp (w : W64) : Nat := fld w 37 36
/-- Registers of a data group. -/
def mRegs (w : W64) : Nat := cdiv (mBytes w) 4

/-- The shelf offset of a lane: the wrapping sum of its parts (R193); an atomic has no second part. -/
def shelfOff (h : Th) (two : Bool) (lane : Nat) : Nat :=
  codeOf 32 ((h.x.val (wA h.w) 1 lane : Int) + (if two then (h.x.val (wB h.w) 1 lane : Int) else 0) + mOff h.w)

/-- The global address of a lane. -/
def globOff (h : Th) (lane : Nat) : Nat := codeOf 64 ((h.x.val (wA h.w) 2 lane : Int) + mOff h.w)

/-- The value that a load's bytes give: sign-extended to 32 bits with mod[35] at 8 and 16 bits. -/
def loadVal (w : W64) (bs : List (BitVec 9)) : Nat :=
  let v := leNat (bs.map dataOf)
  if mW w ≤ 1 ∧ bit w 35 then codeOf 32 (signedOf (8 * mBytes w) v) else v

/-! ## Decode checks (R182, R193, R196) -/

def ldLegal (glob : Bool) (h : Th) : Bool :=
  let w := h.w
  decide (mW w ≤ 4) && fld w 40 36 = 0 && okReg h.tm.alloc (mRegs w) (wD w) &&
  (if glob then okReg h.tm.alloc 2 (wA w) && wB w = tz else okReg h.tm.alloc 1 (wA w) && okReg h.tm.alloc 1 (wB w)) &&
  uniRule (wD w) [wA w, wB w]

def stLegal (glob : Bool) (h : Th) : Bool :=
  let w := h.w
  decide (mW w ≤ 4) && fld w 40 35 = 0 && okReg h.tm.alloc (mRegs w) (wD w) &&
  (if glob then okReg h.tm.alloc 2 (wA w) && wB w = tz else okReg h.tm.alloc 1 (wA w) && okReg h.tm.alloc 1 (wB w))

def amLegal (glob : Bool) (h : Th) : Bool :=
  let w := h.w
  (mW w = 2 || mW w = 3) && amoLegal (mOp w) (mTyp w) (mBytes w) && !bit w 35 && okReg h.tm.alloc (mRegs w) (wD w) &&
  okReg h.tm.alloc (if mOp w = 7 then 2 * mRegs w else mRegs w) (wB w) && okReg h.tm.alloc (if glob then 2 else 1) (wA w) &&
  uniRule (wD w) [wA w, wB w]

/-- Operand and compare value of an atomic: CAS holds the compare value first (R196). -/
def amOperand (h : Th) (lane : Nat) : Nat × Nat :=
  let n := mRegs h.w
  if mOp h.w = 7 then
    let v := h.x.val (wB h.w) (2 * n) lane
    (v / 2 ^ (32 * n), v % 2 ^ (32 * n))
  else (h.x.val (wB h.w) n lane, 0)

/-! ## Shelf accesses -/

/-- The lanes whose access reaches beyond the directly addressed part, and the lowest such offset (R169). (DEDUCED, log entry 119.) -/
def boundsFault (h : Th) (s : State) (lanes : List Nat) (off : Nat → Nat) : Option FaultInfo :=
  match lanes.filter fun l => decide (s.direct h.b.t h.b.c < off l + mBytes h.w) with
  | [] => none
  | l :: ls => some ⟨.shelfBounds, l, (ls.map off).foldl min (off l)⟩

/-- Read the bytes of every lane from the shelf: the values, the first lane with an uncorrectable byte, the state. -/
def shelfLoads (h : Th) (s : State) (lanes : List Nat) (off : Nat → Nat) : List (Nat × Nat) × Option FaultInfo × State :=
  lanes.foldl (fun (a : List (Nat × Nat) × Option FaultInfo × State) l =>
    let (bs, s1) := a.2.2.shelfRead h.b.t h.b.c (off l) (mBytes h.w)
    (a.1 ++ [(l, loadVal h.w bs)],
     (if a.2.1.isNone && bs.any isBad then some ⟨.uncorrectableData, l, off l⟩ else a.2.1), s1)) ([], none, s)

/-- LDS (R193, R169). -/
def runLds (h : Th) (s : State) : Ran :=
  let lanes := h.x.lanesFor (wD h.w)
  match boundsFault h s lanes (shelfOff h true) with
  | some i => .fault s i
  | none =>
    match shelfLoads h s lanes (shelfOff h true) with
    | (_, some i, s1) => .fault s1 i
    | (vs, none, s1) => h.bunch s1 (vs.foldl (fun y v => y.setVal (wD h.w) (mRegs h.w) v.1 v.2) h.x)
def execLds (b : BunchRef) (w : W64) (s : State) : Out := .next (issue [0x80] (ldLegal false) runLds b w s)

/-- STS (R193, R195): lanes store in ascending order, so the highest-numbered thread's bytes remain. -/
def runSts (h : Th) (s : State) : Ran :=
  let lanes := lanesOf h.x.m0
  match boundsFault h s lanes (shelfOff h true) with
  | some i => .fault s i
  | none =>
    .ok (lanes.foldl (fun s l =>
      s.shelfWrite h.b.t h.b.c (shelfOff h true l) ((leBytes (mBytes h.w) (h.x.val (wD h.w) (mRegs h.w) l)).map clean)) s) h.next
def execSts (b : BunchRef) (w : W64) (s : State) : Out := .next (issue [0x81] (stLegal false) runSts b w s)

/-- One lane of ATOMS: the value before, the shelf after. -/
def shelfAmo (h : Th) (s : State) (l : Nat) : Nat × State :=
  let n := mBytes h.w
  let (bs, s1) := s.shelfRead h.b.t h.b.c (shelfOff h false l) n
  let old := leNat (bs.map dataOf)
  let (x, c) := amOperand h l
  (old, s1.shelfWrite h.b.t h.b.c (shelfOff h false l) ((leBytes n (amoNew (mOp h.w) (mTyp h.w) n old x c)).map clean))

/-- ATOMS (R196): bounds and uncorrectable bytes of every lane are checked first, then the lanes act in ascending order. -/
def runAtoms (h : Th) (s : State) : Ran :=
  let lanes := h.x.lanesFor (wD h.w)
  match boundsFault h s lanes (shelfOff h false) with
  | some i => .fault s i
  | none =>
    match shelfLoads h s lanes (shelfOff h false) with
    | (_, some i, s1) => .fault s1 i
    | (_, none, s1) =>
      let r := lanes.foldl (fun (a : Bunch × State) l =>
        let (old, s2) := shelfAmo h a.2 l
        (a.1.setVal (wD h.w) (mRegs h.w) l old, s2)) (h.x, s1)
      h.bunch r.2 r.1
def execAtoms (b : BunchRef) (w : W64) (s : State) : Out := .next (issue [0x84] (amLegal false) runAtoms b w s)

/-! ## Global accesses in flight -/

/-- An address lies in the issuing cluster's own shelf window (R270). -/
def State.ownShelf (s : State) (b : BunchRef) (ga : Nat) : Option Nat :=
  match s.home b.t (BitVec.ofNat 64 ga) with
  | .shelf t c off => if t = b.t ∧ c = b.c then some off else none
  | _ => none

/-- The bunch of a key. -/
def refOf (k : Nat) : BunchRef :=
  ⟨Fin.ofNat 4 (k / 8192), Fin.ofNat 128 (k / 64 % 128), Fin.ofNat 4 (k / 16 % 4), Fin.ofNat 16 (k % 16)⟩

/-- An access waits for its return before the bunch goes on: a load or an atomic (DEDUCED, log entry 21). -/
def ReqOp.blocks : ReqOp → Bool
  | .load _ => true
  | .atomic _ _ _ _ _ => true
  | _ => false

/-- Pieces of an access, cut at 128-byte lines. (DEDUCED, log entry 124.) -/
def pieces : Nat → Nat → Nat → List (Nat × Nat)
  | 0, _, _ => []
  | f + 1, ga, n =>
    if n = 0 then []
    else
      let k := min n (128 - ga % 128)
      (ga, k) :: pieces f (ga + k) (n - k)

/-- A global access of a bunch is issued: over a link at once for a remote home that no far way can serve, held where its
home is in reset, else on its way to its home. A remote store or atomic drops the tower's far copy (R291). -/
def State.issueReq (s : State) (r : Req) : State :=
  let s1 := s.newId
  match s.home r.tower r.addr with
  | .remote m a =>
    if r.op.blocks && decide (a < 0x020000000000) && decide (0 < s.farWays r.tower) && !s.bypass r.tower r.cls &&
        (match r.op with | .load _ => true | _ => false) then { s1 with reqs := s1.reqs ++ [r] }
    else
      let s2 := match r.op with | .load _ => s1 | _ => s1.dropFar r.tower fun k l => k = m && l = a / 128
      s2.launchReq r
  | .held => { s1 with reqs := s1.reqs ++ [{ r with held := some (s.stamp r.tower) }] }
  | _ => { s1 with reqs := s1.reqs ++ [r] }

/-- The lines that an LDG still has to fetch. -/
def missing (h : Th) (s : State) (lanes : List Nat) : List (Nat × Nat) :=
  (lanes.flatMap fun l => (pieces 3 (globOff h l) (mBytes h.w)).filterMap fun p =>
    if (s.ownShelf h.b p.1).isSome then none
    else if h.tm.cacheKib = 0 then some p
    else
      match s.cached h.b.t h.b.c (p.1 / 128) with
      | some c => if (List.range p.2).all fun i => c.have_.getLsbD (p.1 % 128 + i) then none else some (p.1 - p.1 % 128, 128)
      | none => some (p.1 - p.1 % 128, 128)).dedup

/-- The answered requests of a bunch for loads and atomics, in issue order. -/
def State.bunchReqs (s : State) (k : Nat) : List Req := s.reqs.filter fun r => r.owner = .bunch k && r.op.blocks

/-- Byte `ga` of a load, from its own shelf, the shelf cache or what came back; none where it failed. -/
def loadByte (h : Th) (s : State) (rs : List Req) (ga : Nat) : Option (BitVec 9) :=
  match s.ownShelf h.b ga with
  | some off => (s.shelfRead h.b.t h.b.c off 1).1.head?
  | none =>
    let cached := (s.cached h.b.t h.b.c (ga / 128)).bind fun c =>
      if h.tm.cacheKib ≠ 0 ∧ c.have_.getLsbD (ga % 128) then some (c.byte (ga % 128)) else none
    match cached with
    | some v => some v
    | none => rs.findSome? fun r =>
        if r.status = 0 ∧ r.addr.toNat ≤ ga ∧ ga < r.addr.toNat + r.data.length then r.data[ga - r.addr.toNat]? else none

/-- A failed access is recorded and signalled (R271, R340). -/
def State.accessFailed (s : State) (t c te launch st : Nat) (ga : W64) : State :=
  if st = 0 then s
  else
    let s1 := if st = stFaultLink then s else s.globalErr t c te st ga
    s1.signal launch st 0

/-- Merge fetched lines into the shelf cache: bytes it already holds stay (R170). -/
def State.mergeLines (s : State) (h : Th) (rs : List Req) : State :=
  if h.tm.cacheKib = 0 then s
  else rs.foldl (fun s r =>
    if r.status ≠ 0 then s
    else
      let line := r.addr.toNat / 128
      let s1 := match s.cached h.b.t h.b.c line with
        | some _ => s
        | none => s.makeRoom h.b.t h.b.c h.x.launch h.tm.cacheKib
      let c0 : CLine := (s1.cached h.b.t h.b.c line).getD ⟨line, 0#1024, 0#128, 0#128, 0#128⟩
      let c1 := (List.range 128).foldl (fun (c : CLine) i =>
        if c0.have_.getLsbD i then c else c.put i (r.data.getD i 0#9) false) c0
      s1.setLine h.b.t h.b.c c1) s

/-- The errors that an LDG meets in its own shelf are counted like those of any shelf read (R239). -/
def ownReads (h : Th) (s : State) (lanes : List Nat) : State :=
  lanes.foldl (fun s l => (List.range (mBytes h.w)).foldl (fun s i =>
    match s.ownShelf h.b ((globOff h l + i) % 2 ^ 64) with
    | some off => (s.shelfRead h.b.t h.b.c off 1).2
    | none => s) s) s

/-- An LDG takes its data: failed parts read as zeros, a poisoned byte of an active thread faults (R284), the rest is written. -/
def ldgFinish (h : Th) (s : State) : Ran :=
  let rs := s.bunchReqs (bkey h.b)
  let lanes := h.x.lanesFor (wD h.w)
  let vals : List (Nat × Nat × List (BitVec 9)) := lanes.map fun l =>
    let ga := globOff h l
    (l, ga, (List.range (mBytes h.w)).map fun i => (loadByte h s rs ((ga + i) % 2 ^ 64)).getD 0#9)
  let s1 := rs.foldl (fun s r => s.accessFailed h.b.t h.b.c h.b.e h.x.launch r.status r.addr) (ownReads h s lanes)
  let s2 := s1.mergeLines h rs
  let s3 := { s2 with reqs := s2.reqs.filter fun r => !(r.owner = .bunch (bkey h.b) && r.op.blocks) }
  match vals.find? fun v => v.2.2.any isBad with
  | some v => .fault s3 ⟨.uncorrectableData, v.1, v.2.1⟩
  | none => h.bunch s3 (vals.foldl (fun y v => y.setVal (wD h.w) (mRegs h.w) v.1 (loadVal h.w v.2.2)) { h.x with run := .ready, inst := none })

/-- LDG (R170, R193): missing lines are fetched and the bunch waits for them (DEDUCED, log entry 21). -/
def runLdg (h : Th) (s : State) : Ran :=
  let need := missing h s (h.x.lanesFor (wD h.w))
  if need.isEmpty then ldgFinish h s
  else
    let s1 := need.foldl (fun s p => s.issueReq (s.mkReq p.1 (.load p.2) 4 (.bunch (bkey h.b)) h.b.t)) s
    .ok (s1.modBunch (bkey h.b) fun y => { y with run := .waitAccess, inst := some h.w }) h.x.pc
def execLdg (b : BunchRef) (w : W64) (s : State) : Out := .next (issue [0x82] (ldLegal true) runLdg b w s)

/-- One piece of an STG. -/
def stgPiece (h : Th) (s : State) (ga : Nat) (bs : List (BitVec 9)) : State :=
  match s.ownShelf h.b ga with
  | some off => s.shelfWrite h.b.t h.b.c off bs
  | none =>
    if h.tm.cacheKib = 0 then s.issueReq (s.mkReq ga (.store (bs.map some)) 4 (.bunch (bkey h.b)) h.b.t)
    else
      let line := ga / 128
      let s1 := match s.cached h.b.t h.b.c line with
        | some _ => s
        | none => s.makeRoom h.b.t h.b.c h.x.launch h.tm.cacheKib
      let c0 : CLine := (s1.cached h.b.t h.b.c line).getD ⟨line, 0#1024, 0#128, 0#128, 0#128⟩
      s1.setLine h.b.t h.b.c ((numbered (ga % 128) bs).foldl (fun c b => c.put b.1 b.2 true) c0)

/-- STG (R170, R195): into the shelf cache without a fetch, or to its home. -/
def runStg (h : Th) (s : State) : Ran :=
  .ok ((lanesOf h.x.m0).foldl (fun s l =>
    let bs := (leBytes (mBytes h.w) (h.x.val (wD h.w) (mRegs h.w) l)).map clean
    (pieces 3 (globOff h l) (mBytes h.w)).foldl (fun s p =>
      stgPiece h s p.1 ((bs.drop (p.1 - globOff h l)).take p.2)) s) s) h.next
def execStg (b : BunchRef) (w : W64) (s : State) : Out := .next (issue [0x83] (stLegal true) runStg b w s)

/-- Write back and invalidate the cluster's lines that hold an address range (R172). -/
def dropLines (h : Th) (s : State) (ga n : Nat) : State :=
  (pieces 2 ga n).foldl (fun s p =>
    match s.cached h.b.t h.b.c (p.1 / 128) with
    | none => s
    | some c => (s.lineBack h.b.t h.b.c h.x.launch c).modClu h.b.t h.b.c fun x => { x with cache := x.cache.filter fun m => m.line ≠ c.line }) s

/-- An ATOM takes its old values: a failed one returns zero; a poisoned byte faults. -/
def atomFinish (h : Th) (s : State) : Ran :=
  let rs := s.bunchReqs (bkey h.b)
  let vals := (h.x.lanesFor (wD h.w)).zip rs
  let s1 := rs.foldl (fun s r => s.accessFailed h.b.t h.b.c h.b.e h.x.launch r.status r.addr) s
  let s2 := { s1 with reqs := s1.reqs.filter fun r => !(r.owner = .bunch (bkey h.b) && r.op.blocks) }
  match vals.find? fun v => v.2.status = 0 && v.2.data.any isBad with
  | some v => .fault s2 ⟨.uncorrectableData, v.1, v.2.addr.toNat⟩
  | none => h.bunch s2 (vals.foldl (fun y v =>
      y.setVal (wD h.w) (mRegs h.w) v.1 (if v.2.status = 0 then leNat (v.2.data.map dataOf) else 0)) { h.x with run := .ready, inst := none })

/-- ATOM (R172, R196, R271): every active lane's operation goes to its home in ascending order, and the bunch waits. -/
def runAtom (h : Th) (s : State) : Ran :=
  let n := mBytes h.w
  let lanes := h.x.lanesFor (wD h.w)
  if lanes.isEmpty then .ok s h.next
  else
    let s1 := lanes.foldl (fun s l =>
      let ga := globOff h l
      let (x, c) := amOperand h l
      let s0 := dropLines h s ga n
      let r := s0.mkReq ga (.atomic (mOp h.w) (mTyp h.w) n (BitVec.ofNat 64 x) (BitVec.ofNat 64 c)) 4 (.bunch (bkey h.b)) h.b.t
      if !s0.onePlace h.b.t ga n then { s0.newId with reqs := s0.reqs ++ [{ r with stage := .done, status := stBadAddress }] }
      else s0.issueReq r) s
    .ok (s1.modBunch (bkey h.b) fun y => { y with run := .waitAccess, inst := some h.w }) h.x.pc
def execAtom (b : BunchRef) (w : W64) (s : State) : Out := .next (issue [0x85] (amLegal true) runAtom b w s)

/-! ## Returns -/

/-- Perform an access at its home when no pantry is involved: bays, shelves, registers, and what has no home. -/
def State.perform (s : State) (r : Req) : State :=
  let g : Agent := ⟨r.tower, r.cls, r.owner, 1, r.tower * 256 + 254, 2000 + r.tower⟩
  match r.op with
  | .load n =>
    let x := s.gread g r.addr n
    x.s.finishReq r.id x.st x.data
  | .store bs =>
    let x := s.gwriteM g r.addr bs
    x.s.finishReq r.id x.st []
  | .atomic op typ n a c =>
    let x := s.amoAt g r.addr.toNat op typ n a.toNat c.toNat
    x.s.finishReq r.id x.st x.data
  | .packet _ _ _ => s

/-- The bunch's waiting instruction completes once every access of it is back: its effect, or the fault. -/
def State.bunchBack (s : State) (k : Nat) : State :=
  let b := refOf k
  let x := s.bunch k
  match x.inst, (s.clu b.t b.c).team with
  | some w, some tm =>
    if (s.bunchReqs k).all fun r => r.stage = .back then
      let h : Th := ⟨b, x, tm, w⟩
      match (if wOpc w = 0x82 then ldgFinish h s else atomFinish h s) with
      | .ok s1 pc => s1.modBunch k fun y => { y with pc := pc }
      | .fault s1 i => (s1.modBunch k fun y => { y with inst := none }).bunchFault b i
      | _ => s
    else s
  | _, _ => s

/-! ## Fences that wait (R202, R293) -/

/-- A store in flight keeps a fence of a scope waiting: 0 own bay and shelf, 1 tower, 2 module, 3 and 4 everything. -/
def State.fenceWaits (s : State) (t c scope : Nat) (r : Req) : Bool :=
  let a := r.addr.toNat
  let remote := decide (2 ^ 63 ≤ a) && decide (a / 2 ^ 48 % 4096 ≠ s.selfId)
  let m := a % 2 ^ 48
  let tw := if m < 0x020000000000 then m / 2 ^ 39 else if m < 0x110000000000 then m / 2 ^ 33 % 4 else if m < 0x1F0000000000 then m / 2 ^ 29 % 4 else m / 2 ^ 32 % 4
  match scope with
  | 0 => (match s.home t r.addr with | .bay ht hc _ _ => ht = t && hc = c | .shelf ht hc _ => ht = t && hc = c | _ => false)
  | 1 => !remote && tw = t
  | 2 => !remote
  | _ => true

/-- Some access of the bunch, or write-back of its cluster in the scope, is still on its way. -/
def State.fenceHeld (s : State) (b : BunchRef) (scope : Nat) : Bool :=
  s.reqs.any fun r =>
    match r.owner with
    | .bunch k => k = bkey b
    | .writeBack t c _ => t = b.t && c = b.c && s.fenceWaits t c scope r
    | _ => false

/-- Bunches of a cluster that wait at a FENCE whose accesses have come home go on. -/
def State.wakeFences (s : State) (t c : Nat) : State :=
  (List.range 64).foldl (fun (s : State) k =>
    let key := bunchKey t c (k / 16) (k % 16)
    let x := s.bunch key
    match x.inst with
    | some w =>
      if x.run = .waitAccess ∧ wOpc w = 0xC9 ∧ !s.fenceHeld (refOf key) (wSmod w) then
        let s1 := s.modBunch key fun y => { y with run := .ready, inst := none, pc := y.pc + 8 }
        if wSmod w = 4 then s1.dropEveryFar else s1
      else s
    | none => s) s

/-! ## Accesses of the host (R350, R351) -/

/-- The packet number of a host's requests, and what a DBF carries. -/
def State.sendDbf (s : State) (m q tail : Nat) : State :=
  (s.sendPkt ⟨mkHdr opDBF s.selfId m (s.mod.bridge.getD 0 * 256 + 255) 0, mkRspW 1 q tail false, []⟩).2

/-- A doorbell waits for a BAR2 write that came before it (R350). -/
def State.dbWaits (s : State) (m before : Nat) : Bool :=
  s.reqs.any fun r => decide (r.id < before) && r.addr.toNat / 2 ^ 48 = 2 ^ 15 + m &&
    (match r.owner, r.op with | .host _, .store _ => true | _, _ => false)

/-- Doorbells whose BAR2 writes have been acknowledged leave, in order. -/
def State.flushDb (s : State) : State :=
  let go := s.mod.heldDb.filter fun d => !s.dbWaits d.1 d.2.2.2
  go.foldl (fun s d => s.sendDbf d.1 d.2.1 d.2.2.1) (s.modMod fun m => { m with heldDb := m.heldDb.filter fun d => s.dbWaits d.1 d.2.2.2 })

/-- Status of an upstream completion: 1 Unsupported Request, 2 Completer Abort (R351). -/
def pcieStatus (st : Nat) : Nat := if st = 0 then 0 else if st = stBadAddress then 1 else 2

/-- A host access is answered once all its requests have come back. -/
def State.hostBack (s : State) (o : ReqOwner) : State :=
  let rs := s.reqs.filter fun r => r.owner = o
  if rs.any fun r => r.stage ≠ .done then s
  else
    let st := rs.foldl (fun a r => if a = 0 then r.status else a) 0
    let s1 : State := { s with reqs := s.reqs.filter fun r => r.owner ≠ o }
    let rd := rs.any fun r => match r.op with | .load _ => true | _ => false
    let s2 := if rd then s1.emit (.bar2 (pcieStatus st) (if st = 0 then rs.flatMap fun r => r.data else []))
      else if st ≠ 0 then s1.emit .aer else s1
    s2.flushDb

/-- An access that has been performed reaches its requester (R283, R271, R338). -/
def State.deliver (s : State) (id : Nat) : State :=
  match s.reqs.find? fun r => r.id = id with
  | none => s
  | some r =>
    if r.stage ≠ .done then s
    else
      match r.owner with
      | .bunch k =>
        if r.op.blocks then
          ({ s with reqs := s.reqs.map fun q => if q.id = id then { q with stage := .back } else q } : State).bunchBack k
        else
          let b := refOf k
          (({ s with reqs := s.reqs.filter fun q => q.id ≠ id } : State).accessFailed b.t b.c b.e (s.bunch k).launch r.status r.addr).wakeFences b.t b.c
      | .writeBack t c launch =>
        (({ s with reqs := s.reqs.filter fun q => q.id ≠ id } : State).accessFailed t c 15 launch r.status r.addr).wakeFences t c
      | .link p src agent tag =>
        let l : PortRef := ⟨Fin.ofNat 4 (p / 8), Fin.ofNat 8 (p % 8)⟩
        let op := match r.op with | .load _ => opRD | .store _ => opWR | _ => opAMO
        let n := match r.op with | .load n => n | .store bs => bs.length | .atomic _ _ n _ _ => n | _ => 1
        let rq : LinkPkt := ⟨mkHdr op src s.selfId agent tag, mkReqW n (r.addr.toNat % 2 ^ 48) false, []⟩
        let (bad, sl) := if r.status = 0 ∧ op = opRD then markedSlots (r.addr.toNat % 2 ^ 48) r.data else (false, [])
        let sl1 := if op = opAMO then [BitVec.ofNat 128 (leNat (r.data.map dataOf))] else sl
        ({ s with reqs := s.reqs.filter fun q => q.id ≠ id } : State).answer l rq r.status 0 bad sl1
      | .host _ => s.hostBack r.owner
      | _ => s

/-- GLOBAL_ACCESS_RETURN: an access whose home needs no pantry lookup is performed there; then it returns. An access that is
held, in a fill or on a link has not returned, and nothing happens (DESIGN CHOICE, log entry 3). -/
def execGlobalAccessReturn (id : Nat) (s : State) : Out :=
  match s.reqs.find? fun r => r.id = id with
  | none => .next s
  | some r =>
    if r.stage = .done then .next (s.deliver id)
    else if r.stage ≠ .issued then .next s
    else
      match s.home r.tower r.addr with
      | .hbm _ _ =>
        (match r.owner with
         | .writeBack _ _ _ => .next ((s.perform r).deliver id)
         | .link _ _ _ _ => .next ((s.perform r).deliver id)
         | .host _ => .next ((s.perform r).deliver id)
         | _ => .next s)
      | .remote _ _ => .next s
      | .held => .next s
      | h =>
        match r.owner, h with
        | .writeBack _ _ _, .unmapped => .next s
        | .writeBack _ _ _, .lost => .next s
        | _, _ => .next ((s.perform r).deliver id)

end Sys2Proof.Machine
end

