-- ==== Sys2Proof/Machine/Norm.lean ====
section
/-! DEFINITION. The normalisation unit (R222-R230): NRM descriptors, their checks, row statistics, and the start and end of a
job. -/

namespace Sys2Proof.Machine

/-! ## The descriptor (Table 07-5) -/

def nTally (d : List W64) : Nat := fld (wordAt d 0) 23 17
def nCausal (d : List W64) : Bool := bit (wordAt d 0) 16
def nOp (d : List W64) : Nat := fld (wordAt d 0) 13 12
def nFmt (d : List W64) : Nat := fld (wordAt d 0) 3 0
def nScale (d : List W64) : W32 := BitVec.ofNat 32 (fld (wordAt d 1) 63 32)
def nRows (d : List W64) : Nat := fld (wordAt d 1) 31 16 + 1
def nN (d : List W64) : Nat := fld (wordAt d 1) 15 0 + 1
def nStride (d : List W64) : Nat := fld (wordAt d 2) 47 28
def nSrc (d : List W64) : Nat := fld (wordAt d 2) 13 0 * 64
def nDst (d : List W64) : Nat := fld (wordAt d 3) 13 0 * 64
def nBase (d : List W64) : Int := signedOf 32 (fld (wordAt d 4) 31 0)

def nReserved (d : List W64) : Bool :=
  fld (wordAt d 0) 55 24 = 0 && fld (wordAt d 0) 15 14 = 0 && fld (wordAt d 0) 11 4 = 0 && fld (wordAt d 2) 63 48 = 0 &&
  fld (wordAt d 2) 27 14 = 0 && fld (wordAt d 3) 63 14 = 0 && fld (wordAt d 4) 63 32 = 0 && wordAt d 5 = 0#64 &&
  wordAt d 6 = 0#64 && wordAt d 7 = 0#64

/-- The checks of R223. -/
def nrmOk (d : List W64) : Bool :=
  fld (wordAt d 0) 63 56 = 1 && nReserved d && decide (nFmt d ≤ 4) &&
  (match f32 (nScale d) with | .fin _ _ => true | _ => false) &&
  nStride d % 64 = 0 && decide (rowBytes (nFmt d) (nN d) ≤ nStride d)

/-- Source rows and records lie in the first `lim` bytes of the shelf. -/
def nrmInside (d : List W64) (lim : Nat) : Bool :=
  decide (regionEnd (nSrc d) (nRows d) (nStride d) (rowBytes (nFmt d) (nN d)) ≤ lim) && decide (nDst d + 16 * nRows d ≤ lim)

/-! ## Row statistics (R224-R229) -/

/-- A value rounded to binary64. -/
def r64 (v : FVal) : FVal := fmtF64.decode (fmtF64.round .rne v).1

/-- EXPU (R225): +0 at −∞, 1 at 0, and elsewhere an F32 code of the EX2 path on z·log₂e, which the specification does not
promise bit for bit (DESIGN CHOICE, log entry 42). -/
def expu (z : FVal) : FVal :=
  match z with
  | .inf true => .fin false 0
  | .fin _ q => if q = 0 then .fin false 1 else f32 (Config.expu q)
  | _ => .nan

/-- The state of the loop of R225. -/
structure Moments where
  m : FVal
  cnt : Nat
  S : List FVal
  A : List FVal
  B : List FVal

/-- The larger of two values that are not NaN. (DESIGN CHOICE, log entry 59.) -/
def fmax (a b : FVal) : FVal := if a.lt b then b else a

/-- One group of 64 consecutive elements; an element that is not included is none. -/
def momentsGroup (k : FVal) (x : Moments) (ys : List (Option FVal)) : Moments :=
  let m1 := ys.foldl (fun m y => match y with | some v => fmax m v | none => m) x.m
  let fin := match m1 with | .inf true => false | _ => true
  let lane (l : Nat) : FVal × FVal × FVal :=
    let S0 := x.S.getD l (.fin false 0)
    let S1 := if x.m.lt m1 then r32 (S0.mul (expu (x.m.add m1.neg))) else S0
    let A0 := x.A.getD l (.fin false 0)
    let B0 := x.B.getD l (.fin false 0)
    match ys.getD l none with
    | none => (S1, A0, B0)
    | some y =>
      let d := r64 (y.add k.neg)
      (if fin then r32 (S1.add (expu (y.add m1.neg))) else S1, r64 (A0.add d), r64 (B0.add (r64 (d.mul d))))
  let ls := (List.range 64).map lane
  { m := m1, cnt := x.cnt + (ys.filter Option.isSome).length, S := ls.map fun v => v.1, A := ls.map fun v => v.2.1
    B := ls.map fun v => v.2.2 }

def momentsLoop (k : FVal) : Nat → List (Option FVal) → Moments → Moments
  | 0, _, x => x
  | f + 1, ys, x => if ys.isEmpty then x else momentsLoop k f (ys.drop 64) (momentsGroup k x (ys.take 64))

/-- A pairwise sum of 64 lanes: lane l with l + 32, then l + 16, down to l + 1. -/
def pairSum (rnd : FVal → FVal) : Nat → List FVal → FVal
  | 0, l => l.headD (.fin false 0)
  | f + 1, l =>
    let h := l.length / 2
    pairSum rnd f ((l.take h).zipWith (fun a b => rnd (a.add b)) (l.drop h))

/-- A quotient of a value and a count. -/
def FVal.divN (v : FVal) (n : Nat) : FVal :=
  match v with
  | .fin s q => .fin s (q / n)
  | x => x

/-- A result that the specification bounds and does not promise bit for bit: any F32 code within the bound (R229). -/
def nearby (free : Nat) (exact bound : ℚ) (computed : FVal) : W32 :=
  let w := BitVec.ofNat 32 free
  match f32 w with
  | .fin _ q => if |q - exact| ≤ bound then w else toF32 computed
  | _ => toF32 computed

/-- max, sum, mean and var of a row of included values (R225, R226, R229). -/
def rowStats (free : Nat → Nat) (ys : List (Option FVal)) : W32 × W32 × W32 × W32 :=
  let nan : W32 := 0x7FC00000#32
  let inc := ys.filterMap id
  match inc with
  | [] => (0xFF800000#32, 0#32, nan, nan)
  | k :: _ =>
    if inc.any FVal.isNan then (nan, nan, nan, nan)
    else if inc.any fun v => v = .inf false then
      (0x7F800000#32, toF32 (.fin false ((inc.filter fun v => v = .inf false).length : ℚ)),
       if inc.any fun v => v = .inf true then nan else 0x7F800000#32, nan)
    else
      let z := List.replicate 64 (FVal.fin false 0)
      let x := momentsLoop k (ys.length + 1) ys ⟨.inf true, 0, z, z, z⟩
      let sum := pairSum r32 6 x.S
      let a := pairSum r64 6 x.A
      let b := pairSum r64 6 x.B
      let n := x.cnt
      let ac := r64 (a.divN n)
      let mean := r32 (k.add ac)
      let v0 := r64 ((r64 (b.divN n)).add (r64 (ac.mul ac)).neg)
      let qs := inc.filterMap fun v => match v with | .fin _ q => some q | _ => none
      if qs.length = inc.length then
        let mu := qs.sum / n
        let var := (qs.map fun q => (q - mu) * (q - mu)).sum / n
        let k0 := k.toQ
        let D := (qs.map fun q => |q - k0|).foldl max 0
        let v1 : FVal := if v0.lt (.fin false 0) then .fin false 0 else v0
        (toF32 x.m, toF32 sum, nearby (free 0) mu (pow2 (-24) * |mu| + pow2 (-37) * D) mean,
         nearby (free 1) var (pow2 (-24) * var + pow2 (-36) * (var + (mu - k0) * (mu - k0))) v1)
      else (toF32 x.m, toF32 sum, toF32 mean, if v0.isNan then (if free 1 % 2 = 0 then nan else 0#32) else toF32 (fmax (.fin false 0) v0))

/-- The record bytes that an op writes (R227): offsets from the record's start. -/
def recordBytes (op : Nat) (r : W32 × W32 × W32 × W32) : List (Nat × Byte) :=
  let f (o : Nat) (w : W32) : List (Nat × Byte) := (List.range 4).zip (leBytes 4 w.toNat) |>.map fun e => (o + e.1, e.2)
  match op with
  | 0 => f 0 r.1
  | 1 => f 0 r.1 ++ f 4 r.2.1
  | 2 => f 8 r.2.2.1 ++ f 12 r.2.2.2
  | _ => f 0 r.1 ++ f 4 r.2.1 ++ f 8 r.2.2.1 ++ f 12 r.2.2.2

/-- The source of a job as an operand. -/
def nOpnd (d : List W64) : Opnd :=
  { fmt := nFmt d, mx := false, sprout := false, esc := false, elem := nSrc d, scale := 0, stride := nStride d, ts := 0#32
    firstBlock := 0, spr := 0, sprLen := 0 }

/-- NRM_JOB_START (R228): the cluster's jobs run one at a time in issue order; its records are computed and written. -/
def execNrmJobStart (r : CluRef) (s : State) : Out :=
  let x := s.clu r.t r.c
  match x.nrmRun, x.nrmQ with
  | none, j :: rest =>
    if x.dom = .on then
      let d := j.words
      let p := s.plane r.t r.c (nOpnd d)
      let sc := f32 (nScale d)
      let rows := (List.range (nRows d)).map fun i => (List.range (nN d)).map fun c => p.at i c
      let s1 := s.touchRows r.t r.c (nOpnd d) 0 (nRows d) (nN d)
      let s2 := rows.zipIdx.foldl (fun (s : State) row =>
        let ys := row.1.zipIdx.map fun e =>
          if nCausal d ∧ nBase d + (row.2 : Int) < (e.2 : Int) then none else some (r32 (sc.mul e.1.x))
        let rec_ := rowStats (fun i => Config.freeNat (s.free + i)) ys
        (s.drawn 2).shelfPuts r.t r.c ((recordBytes (nOp d) rec_).map fun b => (nDst d + 16 * row.2 + b.1, clean b.2))) s1
      let bad := rows.any fun row => row.any Elem.uncorr
      let s3 := if bad then
          (if s2.flag nrmErrValid r.t r.c then s2
           else s2.setReg ⟨.nrmErr, r.t, r.c, 0, 0⟩ (BitVec.ofNat 64 (2 ^ 63 + 2 ^ 60 + j.off))).signal j.owner stUncorrectable 0
        else s2
      .next (s3.modClu r.t r.c fun y => { y with nrmQ := rest, nrmRun := some j })
    else .next s
  | _, _ => .next s

/-- NRM_JOB_COMPLETE (R228): rows counted, and the tally's arrival. -/
def execNrmJobComplete (r : CluRef) (s : State) : Out :=
  match (s.clu r.t r.c).nrmRun with
  | none => .next s
  | some j =>
    let s1 := (s.modClu r.t r.c fun y => { y with nrmRun := none }).bump nrmRowCntCount (nRows j.words) r.t r.c
    .next (s1.arriveT r.t r.c (nTally j.words) 1)

end Sys2Proof.Machine
end

