-- ==== Sys2Proof/Machine/Sync.lean ====
section
/-! DEFINITION. The synchronisation and engine instructions (R156-R168, R199-R203), the start of bunches, the end of
launches, suspension, and the events of tallies and barriers. -/

namespace Sys2Proof.Machine

/-! ## Fields and checks of the S format -/

/-- A uniform plus the immediate, modulo 2³² (R199). -/
def uaImm (h : Th) : W32 := h.x.uni (wUa h.w) + BitVec.ofNat 32 (wImm h.w)
def ubImm (h : Th) : W32 := h.x.uni (wUb h.w) + BitVec.ofNat 32 (wImm h.w)

/-- Legal words of the group: which fields are used, the mod values, a barrier number or a count where n or imm is one. -/
def sLegal (ua ub imm : Bool) (mod n count : Nat → Bool) (h : Th) : Bool :=
  (if ua then okUni (wUa h.w) else wUa h.w = uz) && (if ub then okUni (wUb h.w) else wUb h.w = uz) &&
  (imm || count (wImm h.w)) && mod (wSmod h.w) && n (wN h.w)
def any_ (_ : Nat) : Bool := true
def zero_ (n : Nat) : Bool := n = 0
def atMost (m n : Nat) : Bool := decide (n ≤ m)
def countOk (n : Nat) : Bool := decide (1 ≤ n ∧ n ≤ 16)

/-- A tally lies in the team's window (R159). -/
def inWindow (tm : Team) (n : Nat) : Bool := decide (tm.tallyBase ≤ n ∧ n < tm.tallyBase + tm.tallyCount ∧ n ≤ 127)

/-- An effect on a tally of the team's window, or TALLY_RANGE. -/
def onTally (f : Th → State → Ran) (h : Th) (s : State) : Ran :=
  if inWindow h.tm (wN h.w) then f h s else .fault s ⟨.tallyRange, 0, 0⟩

/-! ## Tallies -/

/-- SET (R156). -/
def execSetT (b : BunchRef) (w : W64) (s : State) : Out :=
  .next (issue [0xC0] (sLegal true true true (atMost 1) any_ any_)
    (onTally fun h s => .ok (s.setT h.b.t h.b.c (wN h.w) (h.x.uni (wUa h.w)) (ubImm h) (bit h.w 8)) h.next) b w s)

/-- ARRIVE (R156, R200): earlier shelf stores of the bunch are already visible. -/
def execArrive (b : BunchRef) (w : W64) (s : State) : Out :=
  .next (issue [0xC1] (sLegal true false true zero_ any_ any_)
    (onTally fun h s => .ok (s.arriveT h.b.t h.b.c (wN h.w) (uaImm h).toNat) h.next) b w s)

/-- A wait's condition holds (R156). -/
def State.waitMet (s : State) (t c : Nat) : BunchRun → Bool
  | .waitPh n p => (s.tally t c n).phase = p
  | .waitGe n v => decide (v.toNat ≤ (s.tally t c n).count.toNat)
  | _ => false

/-- A wait that holds goes on; else the bunch waits at the instruction (R158). -/
def waitOn (h : Th) (s : State) (r : BunchRun) : Ran :=
  if s.waitMet h.b.t h.b.c r then .ok s h.next else .ok (s.modBunch (bkey h.b) fun y => { y with run := r }) h.x.pc

/-- WAIT.PH. -/
def execWaitPh (b : BunchRef) (w : W64) (s : State) : Out :=
  .next (issue [0xC2] (sLegal false false false (atMost 1) any_ zero_)
    (onTally fun h s => waitOn h s (.waitPh (wN h.w) (bit h.w 8))) b w s)

/-- WAIT.GE. -/
def execWaitGe (b : BunchRef) (w : W64) (s : State) : Out :=
  .next (issue [0xC3] (sLegal true false true zero_ any_ any_)
    (onTally fun h s => waitOn h s (.waitGe (wN h.w) (uaImm h))) b w s)

/-- The launch of a cluster's team has not been stopped. -/
def State.goes (s : State) (t c : Nat) : Bool := match (s.clu t c).team with | some tm => !tm.stopped | none => false

/-- WAIT_RELEASE (R158): the condition of a waiting bunch holds. -/
def execWaitRelease (b : BunchRef) (s : State) : Out :=
  if s.goes b.t b.c ∧ s.waitMet b.t b.c (s.bunch (bkey b)).run then
    .next (s.modBunch (bkey b) fun y => { y with run := .ready, pc := y.pc + 8 })
  else .next s

/-- TALLY_REPEAT_COMPLETE (R158). -/
def execTallyRepeatComplete (r : CluRef) (n : Fin 128) (s : State) : Out :=
  if (s.tally r.t r.c n).auto then .next (s.modTally r.t r.c n Tally.complete) else .next s

/-! ## Barriers -/

/-- BAR (R161-R163). -/
def runBar (h : Th) (s : State) : Ran :=
  if h.x.m0 ≠ h.x.live ∧ !bit h.w 8 then .fault s ⟨.barrierPartial, 0, 0⟩
  else
    let n := wN h.w
    let old := SMap.get [] (s.clu h.b.t h.b.c).bars n
    let s1 := (s.modBunch (bkey h.b) fun y => { y with run := .waitBar n }).modClu h.b.t h.b.c fun x =>
      { x with bars := SMap.put [] x.bars n (old ++ [h.x.idx])
               barSince := if SMap.get 0 x.barSince n = 0 then SMap.put 0 x.barSince n (s.stamp h.b.t + 1) else x.barSince }
    .ok s1 h.x.pc
/-- The release that an arrival brings (R162). -/
def execBar (b : BunchRef) (w : W64) (s : State) : Out :=
  .next ((issue [0xC4] (sLegal false false false (atMost 1) (atMost 15) zero_) runBar b w s).checkBars b.t b.c)

/-- BARRIER_TIMEOUT (R163): the timer has reached bar_timeout × 1,024 CORE cycles, six of which make one stamp. -/
def execBarrierTimeout (r : CluRef) (n : Fin 16) (s : State) : Out :=
  match (s.clu r.t r.c).team with
  | none => .next s
  | some tm =>
    let ids := SMap.get [] (s.clu r.t r.c).bars n
    let since := SMap.get 0 (s.clu r.t r.c).barSince n
    if ids ≠ [] ∧ !tm.stopped ∧ tm.barTimeout * 1024 ≤ 6 * (s.stamp r.t + 1 - since) then
      let s1 := ids.foldl (fun s i => s.bunchFault (refOf (slotOf r.t r.c i)) ⟨.barrierTimeout, 0, 0⟩) s
      .next (s1.modClu r.t r.c fun x => { x with bars := SMap.put [] x.bars n [], barSince := SMap.put 0 x.barSince n 0 })
    else .next s

/-! ## Engine instructions (R165-R168, R201) -/

/-- The descriptors of a list in the shelf, as words. -/
def readDescs (bs : List (BitVec 9)) (n : Nat) : List (List W64) :=
  (List.range n).map fun i => wordsOf 8 (((bs.drop (64 * i)).take 64).map dataOf)

/-- What an engine's queue needs of its descriptors. -/
structure Engine where
  ok : List W64 → Bool
  tally : List W64 → Nat
  inside : List W64 → Nat → Bool
  room : Nat
  push : State → List (Nat × List W64) → State

/-- MXD, HXF, QCV and NRM in the order of R166: alignment, list bounds, list data, descriptors, tallies, regions; then the
jobs enter the queue, or the bunch stalls while they do not fit (R167). (DEDUCED, log entry 28.) -/
def runEngine (e : Th → State → Engine) (h : Th) (s : State) : Ran :=
  let off := (h.x.uni (wUa h.w)).toNat
  let n := wImm h.w
  let lim := s.direct h.b.t h.b.c
  if off % 64 ≠ 0 then .fault s ⟨.descriptorInvalid, 0, off⟩
  else if lim < off + 64 * n then .fault s ⟨.shelfBounds, 0, off⟩
  else
    let (bs, s1) := s.shelfRead h.b.t h.b.c off (64 * n)
    if bs.any isBad then .fault s1 ⟨.uncorrectableData, 0, off + bs.findIdx isBad⟩
    else
      let ds := (readDescs bs n).zipIdx.map fun d => (off + 64 * d.2, d.1)
      let g := e h s1
      match ds.find? fun d => !g.ok d.2 with
      | some d => .fault s1 ⟨.descriptorInvalid, 0, d.1⟩
      | none =>
        match ds.find? fun d => !inWindow h.tm (g.tally d.2) with
        | some d => .fault s1 ⟨.tallyRange, 0, d.1⟩
        | none =>
          match ds.find? fun d => !g.inside d.2 lim with
          | some d => .fault s1 ⟨.shelfBounds, 0, d.1⟩
          | none => if g.room < n then .stall else .ok (g.push s1 ds) h.next

/-- The escalation state that a job takes at issue (R138). -/
def State.jobEsc (s : State) (t : Nat) (d : List W64) : Bool := s.escFor t (dTag d) (fld (wordAt d 0) 3 0)

/-- Running jobs of an array. -/
def Arr.runs (a : Arr) : Nat := (a.bins.filter fun b => b.2.run.isSome).length

/-- The array's queue of 32 jobs, running ones included. -/
def mxdEngine (h : Th) (s : State) : Engine :=
  let a := (s.clu h.b.t h.b.c).arr
  { ok := fun d => descOk d (s.jobEsc h.b.t d), tally := dTally, inside := fun d lim => descInside d (s.jobEsc h.b.t d) lim
    room := 32 - (a.queue.length + a.runs)
    push := fun s ds => s.modArr h.b.t h.b.c fun y =>
      { y with queue := y.queue ++ ds.map fun d => ⟨d.2, d.1, h.x.launch, s.jobEsc h.b.t d.2⟩ } }

/-- MXD (R165): the mask check comes before any other. -/
def runMxd (h : Th) (s : State) : Ran :=
  if h.x.m0 ≠ h.x.live then .fault s ⟨.matrixPartialMask, 0, 0⟩ else runEngine mxdEngine h s
def eLegal : Th → Bool := sLegal true false false zero_ zero_ countOk
def execMxd (b : BunchRef) (w : W64) (s : State) : Out := .next (issue [0xC5] eLegal runMxd b w s)

/-- A queued job of an engine. -/
def engJob (h : Th) (d : Nat × List W64) : EngJob := ⟨d.2, d.1, h.x.launch, h.b.e⟩

/-- The hatch queue of 32 descriptors, those in flight included. -/
def hxfEngine (h : Th) (s : State) : Engine :=
  let x := s.clu h.b.t h.b.c
  { ok := fun d => s.hxfOk h.b.t d, tally := xTally, inside := hxfInside, room := 32 - (x.hatchQ.length + x.hatchRun.length)
    push := fun s ds => s.modClu h.b.t h.b.c fun y => { y with hatchQ := y.hatchQ ++ ds.map (engJob h) } }
/-- HXF (R201). -/
def execHxf (b : BunchRef) (w : W64) (s : State) : Out := .next (issue [0xC6] eLegal (runEngine hxfEngine) b w s)

/-- A converter's queue of 16 jobs. -/
def qcvEngine (h : Th) (s : State) : Engine :=
  let x := s.te h.b.t h.b.c h.b.e
  { ok := fun d => qcvOk d (s.qEsc h.b.t d), tally := qTally, inside := fun d lim => qcvInside d (s.qEsc h.b.t d) lim
    room := 16 - (x.qcv.length + if x.qcvRun.isSome then 1 else 0)
    push := fun s ds => s.modTe h.b.t h.b.c h.b.e fun y => { y with qcv := y.qcv ++ ds.map (engJob h) } }
/-- QCV (R201, R204). -/
def execQcv (b : BunchRef) (w : W64) (s : State) : Out := .next (issue [0xC7] eLegal (runEngine qcvEngine) b w s)

/-- The normalisation queue of 16 jobs. -/
def nrmEngine (h : Th) (s : State) : Engine :=
  let x := s.clu h.b.t h.b.c
  { ok := nrmOk, tally := nTally, inside := nrmInside, room := 16 - (x.nrmQ.length + if x.nrmRun.isSome then 1 else 0)
    push := fun s ds => s.modClu h.b.t h.b.c fun y => { y with nrmQ := y.nrmQ ++ ds.map (engJob h) } }
/-- NRM (R201, R222). -/
def execNrm (b : BunchRef) (w : W64) (s : State) : Out := .next (issue [0xC8] eLegal (runEngine nrmEngine) b w s)

/-! ## Fences (R202, R203, R293) -/

/-- FENCE (R202): the shelf cache is flushed; the bunch goes on once nothing in its scope is on its way. FENCE.FAR then drops
every far line of the module (R292). -/
def runFence (h : Th) (s : State) : Ran :=
  let sc := wSmod h.w
  let s1 := s.flushCache h.b.t h.b.c h.x.launch
  if s1.fenceHeld h.b sc then
    .ok (s1.modBunch (bkey h.b) fun y => { y with run := .waitAccess, inst := some h.w }) h.x.pc
  else .ok (if sc = 4 then s1.dropEveryFar else s1) h.next
def execFence (b : BunchRef) (w : W64) (s : State) : Out :=
  .next (issue [0xC9] (sLegal false false false (atMost 4) zero_ zero_) runFence b w s)

/-- TFENCE (R203). -/
def execTfence (b : BunchRef) (w : W64) (s : State) : Out :=
  .next (issue [0xCA] (sLegal false false false zero_ zero_ zero_)
    (fun h s => h.bunch s { h.x with bank := (s.clu h.b.t h.b.c).active }) b w s)

/-! ## Starting bunches, and the end of launches -/

/-- BUNCH_START (R144): the registers are zeroed and the bunch takes the state of Table 05-3. -/
def execBunchStart (b : BunchRef) (s : State) : Out :=
  match (s.clu b.t b.c).team with
  | none => .next s
  | some tm =>
    let x := s.bunch (bkey b)
    if x.run ≠ .placed ∨ tm.stopped then .next s
    else
      let live := maskOf ((List.range 64).filter fun j => decide (64 * x.idx + j < tm.threads))
      let t0 (j : Nat) : W32 := BitVec.ofNat 32 (64 * x.idx + j)
      let t1 (j : Nat) : W32 := BitVec.ofNat 32 (tm.index * tm.threads + 64 * x.idx + j)
      let ts := (List.range 64).foldl (fun m j => SMap.put 0#32 (SMap.put 0#32 m (j * 256) (t0 j)) (j * 256 + 1) (t1 j)) []
      let us := ([(0, x.idx), (1, b.c.val), (2, b.t.val), (3, tm.index)].map fun e => (e.1, BitVec.ofNat 32 e.2)) ++
        tm.args.zipIdx.map fun a => (a.2 + 4, a.1)
      .next (s.setBunch (bkey b)
        { x with run := .ready, m0 := live, live := live, t := ts, u := us.foldl (fun m e => SMap.put 0#32 m e.1 e.2) [], m := []
                 stack := [], spilled := 0, bank := (s.clu b.t b.c).active, inst := none })

/-- The launch of a number. -/
def State.launch? (s : State) (id : Nat) : Option Launch := s.mod.launches.find? fun l => l.id = id

/-- A launch leaves the list. -/
def State.dropLaunch (s : State) (id : Nat) : State :=
  s.modMod fun m => { m with launches := m.launches.filter fun l => l.id ≠ id }

/-- A team of a launch is on a cluster or suspended there. -/
def State.teamsLeft (s : State) (id : Nat) : Bool :=
  s.clusters.any fun c =>
    (match c.2.team with | some tm => tm.launch = id | none => false) || c.2.saved.any fun v => v.team.launch = id

/-- Towers of a launch. -/
def Launch.towers (l : Launch) : List Nat := (l.clusters.map fun c => c / 128).dedup

/-- A tower keeps the metered energy, which is free, and the duration of a run under its code base: 256 records, the oldest
given up first (R400, R402). (DEDUCED, log entry 94.) -/
def State.keepEstimate (s : State) (t : Nat) (l : Launch) : State :=
  match s.running? l.id with
  | none => s
  | some (_, p) =>
    let base := (wordAt p.words 1).toNat
    let e : Estimate := ⟨base, s.free1, (s.stamp t - l.started) / 200⟩
    (s.modTower t fun w =>
      let es := w.estimates.filter (fun x => x.codeBase ≠ base) ++ [e]
      { w with estimates := es.drop (es.length - 256) }).drawn 1

/-- The task boundary of a launch: counts folded, far lines of its towers dropped (R122, R292), the estimate of its code kept
(R400), and the command completes. -/
def State.closeLaunch (s : State) (l : Launch) (st detail : Nat) : State :=
  let s1 := l.clusters.foldl (fun s c => s.foldOwner (c / 128) (c % 128) l.id) s
  let s2 := l.towers.foldl (fun s t => (s.dropAllFar t).keepEstimate t l) s1
  let clamp := match s.running? l.id with | some (_, p) => p.clamp | none => 0
  (s2.dropLaunch l.id).complete l.id (if st = stOK then endStatus clamp stOK else st) detail clamp

/-- An access that a bunch of a launch has issued is still on its way (R175, R295). -/
def State.issuedLeft (s : State) (l : Launch) : Bool :=
  s.reqs.any fun r => match r.owner with | .bunch k => l.clusters.contains (k / 64) | _ => false

/-- The bunches of a launch leave their slots, and its teams end with a flush (R175). -/
def State.stopTeams (s : State) (id : Nat) : State :=
  s.clusters.foldl (fun (s : State) e =>
    let t := e.1 / 128
    let c := e.1 % 128
    let s0 := s.modClu t c fun x => { x with saved := x.saved.filter fun v => v.team.launch ≠ id }
    match e.2.team with
    | some tm =>
      if tm.launch = id then
        let s1 := (List.range 64).foldl (fun s k => s.clearBunch (bunchKey t c (k / 16) (k % 16))) s0
        let s2 := { s1 with reqs := s1.reqs.filter fun r => match r.owner with | .bunch k => k / 64 ≠ cluKey t c | _ => true }
        s2.endTeam t c
      else s0
    | none => s0) s

/-- A stopped launch ends (R175): once its issued accesses are back its teams end, and once its array jobs have arrived the
LAUNCH completes. -/
def State.endStopped (s : State) (l : Launch) (close : State → State) : State :=
  if s.issuedLeft l then s
  else
    let s1 := s.stopTeams l.id
    if s1.jobsLeft l.id ∨ s1.backsLeft l.id then s1 else close s1

/-- LAUNCH_END (R145, R295): every team has ended, every job has arrived, and every write has reached its home. A launch that a
reset or its deadline stopped ends with that status (R176, Table 12-4). -/
def execLaunchEnd (id : Nat) (s : State) : Out :=
  match s.launch? id with
  | none => .next s
  | some l =>
    if l.status ≠ 0 then .next (s.endStopped l fun s => s.closeLaunch l l.status 0)
    else if l.fault.isSome ∨ s.teamsLeft id ∨ s.jobsLeft id ∨ s.backsLeft id ∨ s.issuedLeft l then .next s
    else .next (s.closeLaunch l stOK 0)

/-- LAUNCH_FAULT_STOP (R175, R176): once the array jobs have arrived, the LAUNCH completes with FAULT_BUNCH and the event log
takes it. -/
def execLaunchFaultStop (id : Nat) (s : State) : Out :=
  match s.launch? id with
  | none => .next s
  | some l =>
    match l.fault with
    | none => .next s
    | some (_, d) =>
      if l.status ≠ 0 then .next s
      else .next (s.endStopped l fun s => (s.closeLaunch l stFaultBunch d).logEvent 0x0030 0 (bitsOf d 16 15) [l.q, d])

/-! ## Suspension (R177-R179) -/

/-- A team stops at its next instruction boundary (R177): its bunches, barriers and a shelf range go to the save area; the
shelf cache is flushed. A bunch that waits for a global access has not reached its instruction boundary, and nothing happens. (DESIGN CHOICE, log entry 29.) -/
def State.suspend (s : State) (t c shelfStart shelfBytes : Nat) : State :=
  match (s.clu t c).team with
  | none => s
  | some tm =>
    let keys := (List.range 64).map fun k => bunchKey t c (k / 16) (k % 16)
    if tm.stopped ∨ (keys.any fun k => (s.bunch k).run = .waitAccess) ∨ 2 ^ 20 < shelfStart + shelfBytes then s
    else
      let back (x : Bunch) : Bunch := match x.run with
        | .waitPh _ _ => { x with run := .ready }
        | .waitGe _ _ => { x with run := .ready }
        | .waitBar _ => { x with run := .ready }
        | _ => x
      let x := s.clu t c
      let (bs, s1) := s.shelfRead t c shelfStart shelfBytes
      let sv : Saved :=
        { team := tm, bunches := keys.foldl (fun m k => SMap.put default m k (back (s.bunch k))) [], bars := x.bars
          barAge := x.barSince.map fun b => (b.1, s.stamp t + 1 - b.2), shelfStart := shelfStart, shelf := bs.map markedCode }
      let s2 := s1.flushCache t c tm.launch
      let s3 := keys.foldl (fun s k => s.clearBunch k) s2
      (s3.modClu t c fun y => { y with saved := y.saved ++ [sv], team := none, bars := [], barSince := [], fetchAt := [] }).teamRegs t c

/-- TEAM_SUSPEND (R177), with the shelf range that the dispatcher names. -/
def execTeamSuspend (r : CluRef) (shelfStart shelfBytes : Nat) (s : State) : Out := .next (s.suspend r.t r.c shelfStart shelfBytes)

/-- The registers that name a running team (TE_LAUNCH, TE_TALLY_WIN, TE_BAR_TIMEOUT). -/
def State.showTeam (s : State) (t c : Nat) (tm : Team) : State :=
  let size := match tm.cacheKib with | 0 => 0 | 64 => 1 | 128 => 2 | 256 => 3 | _ => 4
  ((s.setReg ⟨.teLaunch, t, c, 0, 0⟩
      (BitVec.ofNat 64 (tm.spillDepth * 2 ^ 40 + tm.spillBase % 2 ^ 14 * 2 ^ 26 + size * 2 ^ 23 + tm.team * 2 ^ 16 + tm.alloc / 8 * 2 ^ 8))).setReg
    ⟨.teTallyWin, t, c, 0, 0⟩ (BitVec.ofNat 64 (tm.tallyCount * 2 ^ 8 + tm.tallyBase))).setReg
    ⟨.teBarTimeout, t, c, 0, 0⟩ (BitVec.ofNat 64 tm.barTimeout)

/-- TEAM_RESUME (R178): the saved state returns; a bunch stopped at a WAIT or BAR executes it again, and a barrier's timer
goes on from where it stood. -/
def execTeamResume (r : CluRef) (id : Nat) (s : State) : Out :=
  let x := s.clu r.t r.c
  match x.team, x.saved.find? fun v => v.team.launch = id with
  | none, some v =>
    if x.absent ∨ x.dom ≠ .on then .next s
    else
      let s1 := v.bunches.foldl (fun s b => s.setBunch b.1 b.2) s
      let s2 := s1.modMem fun m =>
        { m with shelf := v.shelf.zipIdx.foldl (fun h b => SMap.put 0#13 h (s.shelfKey r.t r.c (v.shelfStart + b.2)) b.1) m.shelf }
      .next ((s2.modClu r.t r.c fun y =>
        { y with saved := y.saved.filter (fun w => w.team.launch ≠ id), team := some v.team, bars := []
                 barSince := v.barAge.map fun b => (b.1, s.stamp r.t + 1 - b.2) }).showTeam r.t r.c v.team)
  | _, _ => .next s

/-! ## Write-backs that fail -/

/-- SHELF_CACHE_WRITEBACK_DROP (R171): a write-back to an unmapped or lost home, or one held for 10 ms, is dropped and
recorded with te 0xF; its status goes to the command during which it took place. -/
def execShelfCacheWritebackDrop (r : CluRef) (line : Nat) (s : State) : Out :=
  let mine (q : Req) : Bool := match q.owner with | .writeBack t c _ => t = r.t.val && c = r.c.val && q.addr.toNat / 128 = line | _ => false
  match s.reqs.find? fun q => mine q && q.stage = .issued with
  | none => .next s
  | some q =>
    let st := match s.home r.t q.addr with
      | .unmapped => stBadAddress
      | .lost => stLost
      | .held => (match q.held with | some h => if h + 2000000 ≤ s.stamp r.t then stLost else 0 | none => 0)
      | _ => 0
    if st = 0 then .next s
    else
      let launch := match q.owner with | .writeBack _ _ l => l | _ => 0
      .next ((({ s with reqs := s.reqs.filter fun x => x.id ≠ q.id } : State).accessFailed r.t r.c 15 launch st q.addr).wakeFences r.t r.c)

end Sys2Proof.Machine
end

