-- ==== Sys2Proof/Machine/Packets.lean ====
section
/-! DEFINITION. Command packets (R354, R358-R364, R400, R401): command addresses, the checks of a packet's header and
reserved bytes, energy estimates, starting, and running the work of a packet. -/

namespace Sys2Proof.Machine

/-! ## Command addresses (R354, R352) -/

/-- How host memory is reached: through the module's own active bridge, through one whose link is down, over the links, or
not at all (R352). -/
inductive HostWay where
  | direct | down | link | none
  deriving DecidableEq, Repr

def State.hostWay (s : State) : HostWay :=
  match s.mod.bridge with
  | some _ => if s.mod.linkUp && s.mod.perstN then .direct else .down
  | none => if s.flag lnkHostBridgeNone s.mod.lead then .none else .link

/-- A command address that names host memory. -/
def isHost (a : W64) : Bool := fld a 63 62 = 1

/-- Status of a command's access to a home that a reset holds: the command waits (DEDUCED, log entry 34). -/
def stHeld : Nat := 0xFFFF

/-- Status of a command that is to be tried again later: a grant or room in a queue is missing. -/
def stWait : Nat := 0xFFFE

/-- Bytes of host memory. (DEDUCED, log entry 54.) -/
def State.hostBytes (s : State) (a n : Nat) : List (BitVec 9) :=
  (List.range n).map fun i => clean (SMap.get 0#8 s.mem.host (a % 2 ^ 62 + i))

/-- Pieces of a host range over the links: none crosses a 4,096-byte boundary (R331). -/
def hostPieces : Nat → Nat → Nat → List (Nat × Nat)
  | 0, _, _ => []
  | f + 1, a, n => if n = 0 then [] else let k := min n (4096 - a % 4096); (a, k) :: hostPieces f (a + k) (n - k)

/-- Read n bytes at a command address. -/
def State.cread (s : State) (g : Agent) (a : W64) (n : Nat) : Got :=
  if isHost a then
    match s.hostWay with
    | .direct => ⟨(s.hostBytes a.toNat n).map some, 0, a.toNat, s⟩
    | .down => ⟨List.replicate n none, stFaultLink, a.toNat, s⟩
    | .none => ⟨List.replicate n none, stBadAddress, a.toNat, s⟩
    | .link =>
      (hostPieces (n / 4096 + 2) a.toNat n).foldl (fun (r : Got) e =>
        match r.s.fetched g.owner e.1 e.2 with
        | some (0, bs) => { r with bytes := r.bytes ++ bs.map some }
        | some (st, _) => { r with bytes := r.bytes ++ List.replicate e.2 none, st := if r.st = 0 then st else r.st }
        | none => { r with bytes := r.bytes ++ List.replicate e.2 none, s := { r.s with needs := r.s.needs ++ [e] } })
        ⟨[], 0, a.toNat, s⟩
  else
    let r := s.gread g a n
    if r.st = stLost ∧ s.home g.t (BitVec.ofNat 64 r.at_) = .held then { r with st := stHeld } else r

/-- Write bytes under a mask at a command address. A poisoned byte reaches host memory as a poisoned transfer, whose mark
the host's memory does not keep. (DEDUCED, log entry 57.) (DEDUCED, log entry 69.) -/
def State.cwriteM (s : State) (g : Agent) (a : W64) (bs : List (Option (BitVec 9))) : Put :=
  if isHost a then
    match s.hostWay with
    | .direct =>
      ⟨0, a.toNat, s.modMem fun m =>
        { m with host := bs.zipIdx.foldl (fun h b => match b.1 with | some v => SMap.put 0#8 h (a.toNat % 2 ^ 62 + b.2) (dataOf v) | none => h) m.host }⟩
    | .down => ⟨stFaultLink, a.toNat, s⟩
    | .none => ⟨stBadAddress, a.toNat, s⟩
    | .link =>
      ⟨0, a.toNat, { s with sends := s.sends ++ (hostPieces (bs.length / 4096 + 2) a.toNat bs.length).map fun e =>
        (e.1, (bs.drop (e.1 - a.toNat)).take e.2) }⟩
  else
    let r := s.gwriteM g a bs
    if r.st = stLost ∧ s.home g.t (BitVec.ofNat 64 r.at_) = .held then { r with st := stHeld } else r

/-- Write consecutive plain bytes at a command address. -/
def State.cwriteB (s : State) (g : Agent) (a : W64) (bs : List Byte) : Put := s.cwriteM g a (bs.map fun b => some (clean b))

/-- The address check of a range of command addresses: 0, BAD_ADDRESS or RESOURCE_LOST. (DEDUCED, log entry 38.) -/
def State.crange (s : State) (t : Nat) (a : W64) (n : Nat) : Nat :=
  if isHost a then (if s.hostWay = .none then stBadAddress else 0) else s.rangeStatus t a n

/-- The same for rows at a stride. -/
def State.crows (s : State) (t : Nat) (a : W64) (rows stride n : Nat) : Nat :=
  (List.range rows).foldl (fun st i => if st = 0 then s.crange t (a + BitVec.ofNat 64 (i * stride)) n else st) 0

/-! ## Checks of a packet (R359, Tables 12-1 and 12-5) -/

/-- Bytes of a packet as one number. -/
def pkNat (p : Packet) : Nat := leNat (bytesOf p)

/-- Lengths that Table 12-5 allows an opcode, and the opflags it defines; none for an opcode that is not listed. -/
def opRow (op : Nat) (p : Packet) : Option (Nat × Nat × Nat) :=
  match op with
  | 0x01 => some (0, 0, 1)
  | 0x10 => if pbytes p 40 1 % 8 = 3 then some (1, 1, 0) else some (0, 0, 0)
  | 0x20 => some (1, 1, 0)
  | 0x40 => some (0, 2, 0)
  | 0x80 => some (0, 0, 1)
  | 0x91 => some (1, 15, 1)
  | o => if [0x00, 0x11, 0x13, 0x14, 0x15, 0x16, 0x21, 0x22, 0x30, 0x31, 0x32, 0x41, 0x42, 0x50, 0x51, 0x52, 0x60, 0x61, 0x62, 0x70,
             0x71, 0x72, 0x73, 0x81, 0x90].contains o then some (0, 0, 0) else none

/-- Parameter bytes that Table 12-5 names for an opcode: first byte, number of bytes, and the bits that count. -/
def opNamed (op : Nat) (p : Packet) : List (Nat × Nat × Nat) :=
  let all (l : List (Nat × Nat)) : List (Nat × Nat × Nat) := l.map fun e => (e.1, e.2, 2 ^ (8 * e.2) - 1)
  match op with
  | 0x01 => all [(8, 1)]
  | 0x10 =>
    all [(8, 8), (16, 8), (24, 4), (28, 4), (32, 4), (36, 4), (41, 1), (42, 1), (44, 4), (48, 2), (56, 4), (60, 4)] ++ [(40, 1, 0x37)] ++
    (if pbytes p 40 1 % 8 = 3 then all [(64, 8), (72, 8), (80, 8), (88, 4), (92, 4), (96, 4), (100, 4)] else [])
  | 0x11 => all [(8, 8), (16, 4), (20, 4), (24, 4), (30, 2), (32, 8), (40, 8)] ++ [(28, 1, 1), (29, 1, 0xF)]
  | 0x13 => all [(8, 1), (16, 4), (20, 4), (24, 16)] ++ [(9, 1, 3)]
  | 0x14 => all [(8, 8), (16, 8)]
  | 0x15 => all [(8, 8), (16, 8), (24, 1), (32, 8), (40, 4), (44, 4)]
  | 0x16 => all [(8, 8), (16, 8)]
  | 0x20 => all [(8, 8), (16, 4), (21, 1), (22, 1), (23, 1), (24, 2), (26, 1), (27, 1), (28, 1), (30, 2), (32, 2), (40, 16), (64, 64)] ++ [(20, 1, 0xF)]
  | 0x21 => all [(8, 1), (9, 1), (10, 1), (12, 2)]
  | 0x22 => all [(8, 8), (16, 1), (24, 16)] ++ [(17, 1, 0xF)]
  | 0x30 => all [(8, 1), (9, 1), (10, 1), (12, 4), (16, 4)] ++ [(11, 1, 1)]
  | 0x31 => all [(8, 1), (9, 1), (10, 1), (12, 4)] ++ [(11, 1, 1)]
  | 0x32 => all [(10, 1), (11, 1), (12, 1), (16, 4)] ++ [(8, 2, 0x8FFF)]
  | 0x40 => all [(8, 2), (11, 1), (12, 2), (16, 4 * pbytes p 11 1)] ++ [(10, 1, 0xF)]
  | 0x41 => all [(8, 8), (16, 1), (17, 1), (18, 2), (20, 2), (24, 4)]
  | 0x42 => all [(8, 2), (10, 2), (12, 1), (16, 4 * pbytes p 12 1)]
  | 0x50 => all [(8, 4), (16, 16)]
  | 0x51 => all [(8, 8), (16, 4)]
  | 0x52 => all [(8, 1), (9, 1), (10, 1), (11, 1), (12, 4)]
  | 0x60 => all [(8, 1), (9, 1), (10, 1)]
  | 0x61 => all [(8, 8), (16, 8)]
  | 0x62 => all [(8, 8), (16, 8)]
  | 0x70 => all [(8, 1), (9, 1), (10, 1), (11, 1), (12, 1), (16, 8), (24, 8), (32, 8), (40, 8), (49, 1)] ++ [(13, 1, 0x1F), (48, 1, 3)]
  | 0x71 => all [(8, 1), (9, 1), (10, 1), (11, 1), (16, 8)]
  | 0x72 => all [(8, 1), (9, 1), (10, 1), (11, 1)]
  | 0x73 => all [(8, 1), (9, 1), (10, 1), (12, 2), (16, 8)]
  | 0x80 => all [(8, 8), (16, 1), (18, 2), (20, 2), (24, 4)] ++ [(17, 1, 0xF)]
  | 0x81 => all [(8, 8), (16, 8), (24, 4)]
  | 0x90 =>
    [(8, 1, 0xFF)] ++
    (match pbytes p 8 1 with
     | 0 => all [(10, 2), (12, 4)]
     | 1 => all [(9, 1), (10, 2), (16, 8)] ++ [(12, 1, 1)]
     | _ => [(9, 1, 0x1F)])
  | 0x91 => all [(8, 2), (10, 2), (64, 960)]
  | _ => []

/-- Every parameter bit that is not named is zero (R359, step 5). -/
def paramsClean (op : Nat) (p : Packet) : Bool :=
  let m := (opNamed op p).foldl (fun a e => a ||| (e.2.2 * 256 ^ e.1)) 0
  let n := pkNat p / 2 ^ 64 * 2 ^ 64
  (n &&& m) = n

/-- Field encodings that Table 12-5 lists (R359, step 5). -/
def encodingsOk (op : Nat) (p : Packet) : Bool :=
  let b (i : Nat) : Nat := pbytes p i 1
  match op with
  | 0x01 => decide (1 ≤ b 8 ∧ b 8 ≤ 4)
  | 0x10 => decide (b 40 % 8 ≤ 4) && (b 40 % 8 ≠ 1 || decide (b 40 / 16 ≤ 2))
  | 0x15 => decide (b 24 ≤ 2)
  | 0x41 => decide (b 16 ≤ 1)
  | 0x52 => decide (b 9 ≤ 2) && decide (b 11 ≤ 2)
  | 0x60 => decide (b 8 ≤ 5)
  | 0x70 => decide (b 8 ≤ 2)
  | 0x71 => decide (b 8 ≤ 2)
  | 0x72 => decide (b 8 ≤ 2) && decide (b 11 ≤ 2)
  | 0x73 => decide (b 8 ≤ 1)
  | 0x80 => decide (b 16 ≤ 1)
  | 0x90 => decide (b 8 ≤ 2)
  | _ => true

/-- Whether a queue's master may issue a packet (R360, R374). -/
def State.permitted (s : State) (q : Nat) (p : Packet) : Bool :=
  let op := hOpcode p
  let rec_ := pbytes p 8 2
  let remote := s.qMaster q = 2
  !(remote && ([0x60, 0x50, 0x52, 0x73, 0x72, 0x90].contains op || (op = 0x40 && [0x0B01, 0x0C01, 0x0C02].contains rec_))) &&
  !(op = 0x73 && s.qget cmdQcfgInject q = 0)

/-- Checks 1 to 5 of R359: 0 or the first failure's status. -/
def State.headerStatus (s : State) (q : Nat) (p : Packet) : Nat :=
  let op := hOpcode p
  match opRow op p with
  | none => stBadOpcode
  | some (lo, hi, flags) =>
    let w := wordAt p 0
    if fld w 31 24 ≠ 0 ∨ bit w 11 ∨ 7 < hClass p ∨ (hFlags p &&& (15 - flags)) ≠ 0 then stBadOpcode
    else if hLength p < lo ∨ hi < hLength p ∨ p.length ≠ 8 * (hLength p + 1) then stBadLength
    else if op = 0x40 ∧ hLength p ≠ cdiv (16 + 4 * pbytes p 11 1) 64 - 1 then stBadLength
    else if !s.permitted q p then stRefused
    else if !(paramsClean op p) || !(encodingsOk op p) then stBadOpcode
    else 0

/-! ## Estimates (R400) -/

/-- A command's estimate on one tower: energy in mJ and mean power in mW; none where the specification's figure rests on a
peak rate that it does not give (DESIGN CHOICE, log entry 35). -/
structure Est where
  t : Nat
  mj : Option ℚ
  mw : Option ℚ

/-- Tower and energy per byte, in 10⁻¹ pJ, of an end of a stream. -/
def State.endCost (s : State) (t : Nat) (a : W64) : Nat × Nat :=
  if isHost a then (t, 0)
  else match s.home t a with
    | .hbm ht _ => (ht, 123)
    | .bay ht _ _ _ => (ht, 25)
    | _ => (t, 0)

/-- The descriptors of a MATRIX packet. -/
def State.matrixDescs (s : State) (p : Packet) : List (List W64) :=
  readDescs (s.shelfRead (pbytes p 8 1) (pbytes p 9 1) (pbytes p 12 2 * 64) (64 * pbytes p 10 1)).1 (pbytes p 10 1)

/-- The estimate of a packet, tower by tower. -/
def State.estimate (s : State) (q : Nat) (p : Packet) : List Est :=
  let t := qTower q
  let two (a : W64) (na : Nat) (b : W64) (nb : Nat) : List Est :=
    let (ta, ea) := s.endCost t a
    let (tb, eb) := s.endCost t b
    let e (x : Nat) : ℚ := ((if ta = x then na * ea else 0) + (if tb = x then nb * eb else 0) : Nat) / 10000000000
    ([ta, tb].dedup).map fun x => ⟨x, some (e x), none⟩
  let w (i : Nat) : W64 := wordAt p i
  match hOpcode p with
  | 0x10 =>
    let n := (pbytes p 24 4 + 1) * (pbytes p 28 4 + 1)
    if pbytes p 40 1 % 8 ≤ 1 then two (w 1) n (w 2) n else [⟨t, none, none⟩]
  | 0x11 => two (w 1) ((pbytes p 16 4 + 1) * (pbytes p 20 4 + 1)) (w 1) 0
  | 0x15 => two (w 1) (pbytes p 16 8) (w 1) 0
  | 0x20 =>
    let base := (w 1).toNat
    ((List.range 4).filter fun x => pbytes p 20 1 / 2 ^ x % 2 = 1).map fun x =>
      match (s.tower x).estimates.find? fun e => e.codeBase = base with
      | some e => ⟨x, some e.energyMj, if e.durUs = 0 then none else some ((e.energyMj : ℚ) * 1000000 / e.durUs)⟩
      | none =>
        let n := popN 128 (pbytes p 40 16)
        ⟨x, some ((8460 * n * clampN 10 1000 (s.fget cmdDispatchSliceUs t) : Nat) / 1000000), some (8460 * n : Nat)⟩
  | 0x21 =>
    let x := pbytes p 8 1
    let pj4 := (s.matrixDescs p).foldl (fun a d => a + dM d * dN d * dK d * macEnergy (jobClass d (s.jobEsc x d))) 0
    [⟨x, some ((pj4 : ℚ) / 10000000000000), none⟩]
  | 0x61 => [⟨t, none, none⟩]
  | 0x62 => [⟨t, none, none⟩]
  | _ => []

/-- The unused part of the class-7 reserve. -/
def State.reserveFree (s : State) (t : Nat) : ℚ :=
  max 0 (s.reserveMw t - s.sumMw t fun g => g.req.cls.val = 7 || s.borrows t g.req)

/-- A command below class 7 fits every tower it uses (R401). A mean power that is not given does not hold it back. -/
def State.commandFits (s : State) (q : Nat) (p : Packet) : Bool :=
  let es := s.estimate q p
  (if es.isEmpty then [⟨qTower q, some 0, some 0⟩] else es).all fun e =>
    match e.mw with
    | none => true
    | some mw =>
      let most := s.effectiveMw e.t - s.standingMw e.t - s.reserveMw e.t
      decide (min mw most ≤ s.effectiveMw e.t - s.grantedMw e.t - s.reserveFree e.t)

/-- A class-7 packet is covered by every reserve it uses (R403). -/
def State.covered (s : State) (q : Nat) (p : Packet) : Bool :=
  (s.estimate q p).all fun e => match e.mj with | some m => decide (m ≤ s.reserveNow e.t) | none => true

/-- The estimate is taken from the reserve accounts. -/
def State.takeReserve (s : State) (q : Nat) (p : Packet) : State :=
  (s.estimate q p).foldl (fun s e =>
    match e.mj with
    | some m => (s.refill e.t).modTower e.t fun w => { w with reserveMj := w.reserveMj - m }
    | none => ((s.refill e.t).modTower e.t fun w => { w with reserveMj := w.reserveMj * (s.free1 % 1001 : Nat) / 1000 }).drawn 1) s

/-! ## Starting (R357, R361-R363) -/

/-- FENCE, SNAPSHOT, RESTORE and packets with order set (R361). -/
def orderly (p : Packet) : Bool := hOrder p || [0x01, 0x61, 0x62].contains (hOpcode p)

/-- A packet whose deadline has passed (R363). -/
def State.late (s : State) (q : Nat) (k : Pkt) : Bool :=
  hDeadline k.words ≠ 0 && decide (k.bell + 200 * hDeadline k.words ≤ s.stamp (qTower q))

/-- FAILED while T0 and T1 are both fenced off (Table 14-6). -/
def State.leadsGone (s : State) : Bool := (s.tower 0).fence ≠ 0 && (s.tower 1).fence ≠ 0

/-- The dispatchers of a queue's tower run (R427, R430, R436). -/
def State.dispatching (s : State) (q : Nat) : Bool :=
  s.mod.ready && !s.leadsGone && (s.tower (qTower q)).fence = 0 && !(s.tower (qTower q)).inTower

/-- Clusters of a mask in each tower of a tower mask, in ascending order. (DEDUCED, log entry 23.) -/
def maskClusters (towers mask : Nat) : List (Nat × Nat) :=
  ((List.range 4).filter fun t => towers / 2 ^ t % 2 = 1).flatMap fun t =>
    ((List.range 128).filter fun c => mask / 2 ^ c % 2 = 1).map fun c => (t, c)

/-- No team runs on a cluster that a LAUNCH names (R143); other commands need no cluster of their own. -/
def State.clustersFree (s : State) (p : Packet) : Bool :=
  hOpcode p ≠ 0x20 || (maskClusters (pbytes p 20 1) (pbytes p 40 16)).all fun e => (s.clu e.1 e.2).team.isNone

/-- Nothing of the queue holds this packet back: the dispatchers run, a completion entry is free, no ordering packet runs,
and none runs at all before an ordering one; its deadline has not passed; the clusters of a LAUNCH are free. -/
def State.canStart (s : State) (q : Nat) (k : Pkt) : Bool :=
  let y := s.queue q
  s.dispatching q && !s.cringFull q && (y.running.all fun x => !orderly x.words) &&
  (!(orderly k.words) || y.running.isEmpty) && !s.late q k && s.clustersFree k.words

/-- A run-next command of a tower comes before every other below class 7 (R401). -/
def State.turn (s : State) (q id : Nat) : Bool :=
  match (s.tower (qTower q)).runNextIds with
  | [] => true
  | i :: _ => i = id

/-- The next packet of a queue can start now: an accepted class-7 packet in the order of acceptance and covered (R376, R377); another
one in its turn and within the budget (R401). -/
def State.startable (s : State) (q : Nat) (k : Pkt) : Bool :=
  s.canStart q k &&
  (if s.pktClass q k.words = 7 then k.accepted && (s.tower (qTower q)).c7Order.head? = some k.id && s.covered q k.words
   else s.turn q k.id && s.commandFits q k.words)

/-- The queue whose next packet the dispatchers of a tower start: of the startable ones the highest class, round-robin within it
(R362). -/
def State.choice (s : State) (t : Nat) : Option Nat :=
  let all := s.queues.filterMap fun e =>
    match e.2.next with
    | some k => if qTower e.1 = t ∧ s.startable e.1 k then some (e.1, s.pktClass e.1 k.words) else none
    | none => none
  let top := (all.map fun e => e.2).foldl max 0
  let from_ := SMap.get 0 (s.tower t).rr top
  let best := (all.filter fun e => e.2 = top).foldl (fun (b : Option (Nat × Nat)) e =>
    let d := (qLocal e.1 + 256 - from_ % 256) % 256
    match b with
    | none => some (e.1, d)
    | some x => if d < x.2 then some (e.1, d) else b) none
  best.map fun e => e.1

/-- A tower's lists forget a packet that starts or never will. -/
def Tower.forgetPkt (w : Tower) (id : Nat) : Tower :=
  { w with runNextIds := w.runNextIds.filter (· ≠ id), c7Order := w.c7Order.filter (· ≠ id) }

/-- A packet starts. -/
def State.startPkt (s : State) (q : Nat) (k : Pkt) : State :=
  let t := qTower q
  let s1 := if s.pktClass q k.words = 7 then s.takeReserve q k.words else s
  let c := s.pktClass q k.words
  (s1.modTower t fun w => { w.forgetPkt k.id with rr := SMap.put 0 w.rr c (qLocal q + 1) }).modQueue q fun y =>
    { y with next := none, heldC7 := false, runNext := false, running := y.running ++ [{ k with start := s.stamp t, begun := false }] }

/-- A packet that never starts: start and end hold the stamp of its rejection (R358). -/
def State.reject (s : State) (q : Nat) (k : Pkt) (st detail : Nat) : State :=
  let now := s.stamp (qTower q)
  let c : Compl :=
    { tag := hTag k.words, status := st, clamp := 0, start := now, end_ := now, energy := 0, detail := detail
      irq := hIrq k.words, interim := false, quiet := hQuiet k.words, reply := k.reply }
  (s.modTower (qTower q) fun w => w.forgetPkt k.id).modQueue q fun y =>
    { y with next := none, heldC7 := false, runNext := false, done := y.done ++ [c] }

/-- A fresh packet of a queue. -/
def State.newPkt (s : State) (p : Packet) (bell : Nat) : Pkt :=
  { id := s.mod.nextId, words := p, begun := false, bell := bell, accepted := false, start := 0, status := 0, detail := 0
    clamp := 0, waits := [], reply := none, got := [] }

/-- A command that has waited for its tower's budget as the next of its queue for longer than defer_limit_us becomes run next
(R401). (DEDUCED, log entry 97.) -/
def State.markNext (s : State) (q : Nat) : State :=
  let y := s.queue q
  let t := qTower q
  match y.next with
  | none => s
  | some k =>
    let limit := 200 * clampN 10 100000 (s.fget cmdDispatchDeferLimitUs t)
    if !y.runNext && s.pktClass q k.words ≠ 7 && s.canStart q k && decide (y.deferSince + limit < s.stamp t) then
      (s.modTower t fun w => { w with runNextIds := w.runNextIds ++ [k.id] }).modQueue q fun y => { y with runNext := true }
    else s

/-! ## Running the work of a packet -/

/-- Waits of a command's own: parts of its data, a second run of its work, its jobs. -/
def waitFetch : Nat := 1071
def waitAgain : Nat := 1074
def waitJobs : Nat := 1075

/-- Who owns the accesses of a command. -/
def cmdOwner (q id : Nat) : ReqOwner := .command q id none

/-- The class of a command's own traffic (R364, Table 10-3): 7 for a class-7 command, 2 for PIN, else 1. (DEDUCED, log entry 63.) -/
def State.trafficClass (s : State) (q : Nat) (p : Packet) : Nat :=
  if s.pktClass q p = 7 then 7 else if hOpcode p = 0x15 then 2 else 1

/-- The agent of a command: its tower, class and owner. A command processor is neither cluster, link nor host: a dead read by
one is recorded as 0x3FF (DEDUCED, log entry 36). (DEDUCED, log entry 18.) -/
def State.cmdAgent (s : State) (q : Nat) (k : Pkt) : Agent :=
  ⟨qTower q, s.trafficClass q k.words, cmdOwner q k.id, 1, 0x3FF, 4000 + q⟩

/-- What the work of a command gave: the state, the status, detail and clamp mask of its completion, and what it still waits
for. -/
structure Did where
  s : State
  st : Nat := 0
  detail : Nat := 0
  clamp : Nat := 0
  waits : List Nat := []

/-- OK or OK_CLAMPED. -/
def okStatus (clamp : Nat) : Nat := if clamp = 0 then stOK else stClamped

/-- A running packet whose work is to be done: not begun, due again, or back from fetching remote parts. -/
def State.workable (s : State) (q : Nat) (k : Pkt) : Bool :=
  !k.begun || k.waits.contains waitAgain || (k.waits.contains waitFetch && s.allBack (cmdOwner q k.id))

/-- The packet that a row with these words stands for: the running one whose work is due; else the next packet of the queue,
started here; else a packet commanded directly, checked and started in one step (DEDUCED, log entry 30). -/
def State.takePkt (s : State) (q : Nat) (p : Packet) : Option Pkt × State :=
  let y := s.queue q
  match y.running.find? fun k => k.words = p && s.workable q k with
  | some k => (some k, s)
  | none =>
    match y.next with
    | some k =>
      if k.words = p ∧ s.choice (qTower q) = some q then
        (some { k with start := s.stamp (qTower q) }, s.startPkt q k)
      else (none, s)
    | none =>
      let k := s.newPkt p (s.stamp (qTower q))
      if s.qEnabled q ∧ s.canStart q k ∧ (if s.pktClass q p = 7 then s.covered q p else s.turn q k.id) then
        let st := s.headerStatus q p
        if st ≠ 0 then (none, s.newId.reject q k st 0)
        else (some { k with start := s.stamp (qTower q) }, s.newId.startPkt q k)
      else (none, s)

/-- Requester number of a command (DEDUCED, log entry 33). -/
def cmdReq (id : Nat) : Nat := 2304 + id % 1792

/-- Give back the grants of a command. -/
def State.releaseCmd (s : State) (id : Nat) : State := (List.range 4).foldl (fun s t => s.release t (cmdReq id)) s

/-- A command that meets a held home waits; its first such access is one in flight, which the hold timeouts can fail. -/
def State.holdCmd (s : State) (q : Nat) (k : Pkt) (a : Nat) : State :=
  let o := cmdOwner q k.id
  if s.reqs.any fun r => r.owner = o && r.held.isSome then s
  else
    let r := s.mkReq a (.load 1) 1 o (qTower q)
    { s.newId with reqs := s.reqs ++ [{ r with held := some (s.stamp (qTower q)) }] }

/-- What a command's work gave is written down: remote reads are sent for first; remote writes leave and are waited for;
else the packet completes, or waits for what it names. -/
def State.settleWork (s0 : State) (q : Nat) (k : Pkt) (d : Did) : State :=
  let o := cmdOwner q k.id
  let g := s0.cmdAgent q k
  if d.st = stHeld then s0.holdCmd q k d.detail
  else if d.st = stWait then s0
  else if d.s.needs ≠ [] then
    let s1 := (({ s0 with needs := d.s.needs, sends := [] } : State).issueRemote g).2
    s1.modPkt k.id fun x => { x with begun := true, waits := [waitFetch] }
  else
    let s1 := ({ d.s with reqs := d.s.reqs.filter fun r => !(r.owner = o && (match r.op with | .load _ => true | _ => false)) } : State)
    let s2 := (s1.issueRemote g).2
    let ws := d.waits ++ if s2.reqs.any fun r => r.owner = o then [Wait.replies.code] else []
    if ws.isEmpty then (s2.complete k.id d.st d.detail d.clamp).releaseCmd k.id
    else s2.modPkt k.id fun x =>
      { x with begun := true, status := if x.status = 0 then d.st else x.status, detail := if x.status = 0 then d.detail else x.detail
               clamp := d.clamp, waits := ws }

/-- Run the work of the packet that a row of opcode `op` stands for. -/
def State.runPkt (s : State) (q op : Nat) (p : Packet) (work : Pkt → State → Did) : State :=
  match (if hOpcode p = op then s.takePkt q p else (none, s)) with
  | (none, s1) => s1
  | (some k, s1) =>
    let o := cmdOwner q k.id
    if s1.reqs.any fun r => r.owner = o && r.held.isSome && r.stage = .done then
      ((s1.forget o).complete k.id stLost 0).releaseCmd k.id
    else
      let s2 : State := { s1 with reqs := s1.reqs.filter fun r => !(r.owner = o && r.held.isSome) }
      let d := work k s2
      (if d.st = stHeld then s1 else s2).settleWork q k d

/-! ## Small pieces that commands share -/

/-- A command stops with a status and changes nothing. -/
def Did.fail (s : State) (st : Nat) (detail : Nat := 0) : Did := { s := s, st := st, detail := detail }

/-- The first of a list of statuses that is not OK. -/
def firstBad (l : List Nat) : Nat := l.foldl (fun a st => if a = 0 then st else a) 0

/-- HBM bytes of a range at a command address, by home tower; a range reaches into at most one further tower. -/
def State.hbmPart (s : State) (t : Nat) (a : W64) (n : Nat) : List (Nat × Nat) :=
  let one (a : W64) (n : Nat) : List (Nat × Nat) :=
    if isHost a ∨ n = 0 then [] else match s.home t a with | .hbm h _ => [(h, n)] | _ => []
  let k := min n (2 ^ 39 - a.toNat % 2 ^ 39)
  one a k ++ one (a + BitVec.ofNat 64 k) (n - k)

/-- A stream of a command that moves at least hbm_grant_kib of HBM data in a tower needs a grant on that tower's HBM pool
(R392); the command waits until every such grant is held. (DEDUCED, log entry 8.) -/
def State.streamsHeld (s : State) (q id : Nat) (parts : List (W64 × Nat)) : Bool :=
  let ps := parts.flatMap fun e => s.hbmPart (qTower q) e.1 e.2
  (List.range 4).all fun t =>
    let n := ((ps.filter fun e => e.1 = t).map fun e => e.2).sum
    decide (n < 1024 * clampN 64 65536 (s.fget pwrPolicyHbmGrantKib t)) || (s.held t (cmdReq id)).isSome

/-- Write a reply of whole records at a command address: as many as the capacity holds (R370). -/
def State.replyRecords (s : State) (g : Agent) (a : W64) (cap : Nat) (recs : List (List Byte)) : Did :=
  let fit := (recs.foldl (fun (r : Nat × List Byte × Bool) x =>
    if !r.2.2 && decide (r.2.1.length + x.length ≤ cap) then (r.1 + 1, r.2.1 ++ x, false) else (r.1, r.2.1, true)) (0, [], false))
  let w := s.cwriteB g a fit.2.1
  if w.st = stHeld then { s := s, st := stHeld, detail := w.at_ }
  else if w.st ≠ 0 then .fail s w.st
  else { s := w.s, st := if fit.2.2 then stPartial else stOK, detail := fit.1 }

end Sys2Proof.Machine
end

