-- ==== Sys2Proof/Machine/TableLoad.lean ====
section
/-! DEFINITION. Seed tables (R217-R221, R458): TABLE_LOAD and the switch of a cluster's bank. -/

namespace Sys2Proof.Machine

/-- The 48 bytes of a digest. -/
def digestBytes (d : BitVec 384) : List Byte := leBytes 48 d.toNat

/-- Extend a measurement slot with the digest of some bytes (R458). -/
def State.extend (s : State) (i : Nat) (data : List Byte) : State :=
  let old := SMap.get 0#384 s.mod.meas i
  s.modMod fun m =>
    { m with meas := SMap.put 0#384 m.meas i (Config.sha384 (digestBytes old ++ digestBytes (Config.sha384 data))) }

/-- Commands name clusters and towers: an unknown one is BAD_ADDRESS, an absent or fenced one RESOURCE_LOST (R27, R440). -/
def State.cluStatus (s : State) (t c : Nat) : Nat :=
  if 3 < t ∨ 127 < c then stBadAddress
  else if (s.tower t).fence ≠ 0 ∨ (s.clu t c).absent then stLost else 0

/-- A tower that a command names. (DEDUCED, log entry 26.) -/
def State.towerStatus (s : State) (t : Nat) : Nat :=
  if 3 < t then stBadAddress else if (s.tower t).fence ≠ 0 then stLost else 0

/-- A table's header is valid (R218). -/
def tableValid (tb : List Byte) : Bool :=
  leNat (tb.take 4) = 0x4C425453 && leNat ((tb.drop 4).take 1) = 1 && tableOps.contains (tableFn tb) &&
  leNat ((tb.drop 6).take 2) = 256 && (((tb.drop 16).take 48).all fun b => b = 0#8)

/-- The first table that makes an image invalid. -/
def badTable (img : List Byte) (n : Nat) : Option Nat :=
  (List.range n).find? fun i =>
    let tb := imageTable img i
    !(tableValid tb) || (List.range i).any fun j => tableFn (imageTable img j) = tableFn tb

/-- Tables named by a TABLE_LOAD, clamped into 1 to 7, and the clamp mask (R359: parameter 1). -/
def loadCount (p : Packet) : Nat × Nat :=
  let n := pbytes p 16 1
  (clampN 1 7 n, if n < 1 ∨ 7 < n then 2 else 0)

/-- Checks 6 and 7 of TABLE_LOAD. -/
def State.checkTable (s : State) (q : Nat) (p : Packet) : Nat × Nat :=
  let cs := maskClusters (pbytes p 17 1) (pbytes p 24 16)
  let a := wordAt p 1
  (firstBad [if a.toNat % 64 ≠ 0 then stBadAddress else 0, s.crange (qTower q) a (tableBytes * (loadCount p).1)
    , firstBad (cs.map fun e => s.cluStatus e.1 e.2)], 0)

/-- The work of TABLE_LOAD (R219): the whole image is read and checked; then every named cluster has it to load. -/
def State.workTable (q : Nat) (p : Packet) (k : Pkt) (s : State) : Did :=
  let c := s.checkTable q p
  if c.1 ≠ 0 then .fail s c.1 c.2
  else
    let (n, clamp) := loadCount p
    let r := s.cread (s.cmdAgent q k) (wordAt p 1) (tableBytes * n)
    if r.st ≠ 0 then .fail r.s r.st (if r.st = stHeld then r.at_ else 0)
    else if r.data.any isBad then .fail r.s stUncorrectable
    else
      let img := r.data.map dataOf
      match badTable img n with
      | some i => { s := r.s, st := stInconsistent, detail := i }
      | none =>
        let cs := maskClusters (pbytes p 17 1) (pbytes p 24 16)
        let r1 := if cs.isEmpty ∧ clamp = 0 then r.s.extend 10 img else r.s
        { s := cs.foldl (fun s e => s.modClu e.1 e.2 fun x => { x with loads := x.loads ++ [⟨q, k.id, img⟩] }) r1
          st := okStatus clamp, clamp := clamp, waits := cs.map fun e => (Wait.table e.1 e.2).code }

/-- TABLE_LOAD (R219). -/
def execTableLoad (q : Fin 1024) (p : Packet) (s : State) : Out := .next (s.runPkt q 0x22 p (State.workTable q p))

/-- A bank of a cluster's entries copied into the other one, with the tables of an image laid over it. -/
def loadTables (x : Cluster) (img : List Byte) : Cluster :=
  let a := x.active
  let b := 1 - a
  let n := img.length / tableBytes
  let slotOf (fn : Nat) : Nat := tableOps.findIdx (· = fn)
  let copied := (List.range 1792).foldl (fun m e => SMap.put none m (b * 1792 + e) (SMap.get none x.tables (a * 1792 + e))) x.tables
  let ids := (List.range 7).foldl (fun m e => SMap.put none m (b * 7 + e) (SMap.get none x.tblId (a * 7 + e))) x.tblId
  (List.range n).foldl (fun y i =>
    let tb := imageTable img i
    let slot := slotOf (tableFn tb)
    { y with
      tables := (List.range 256).foldl (fun m e =>
        SMap.put none m ((b * 7 + slot) * 256 + e) (some (BitVec.ofNat 192 (leNat ((tb.drop (64 + 24 * e)).take 24))))) y.tables
      tblId := SMap.put none y.tblId (b * 7 + slot) (some (BitVec.ofNat 64 (word64 tb 8))) })
    { x with tables := copied, tblId := ids, active := b }

/-- TABLE_BANK_SWITCH (R219, R220): the oldest load of the cluster, once no resident bunch is bound to the inactive bank. The
image is measured when its command has completed with OK (Table 15-5). (DEDUCED, log entry 70.) -/
def execTableBankSwitch (r : CluRef) (s : State) : Out :=
  let x := s.clu r.t r.c
  match x.loads with
  | [] => .next s
  | l :: ls =>
    if (s.resident r.t r.c).any fun b => b.bank = 1 - x.active then .next s
    else
      let s1 := s.modClu r.t r.c fun y => { loadTables y l.image with loads := ls }
      let s2 := s1.arrived (.table r.t r.c)
      match s.running? l.id, s2.running? l.id with
      | some (_, k), none => .next (if k.status = 0 ∧ k.clamp = 0 then s2.extend 10 l.image else s2)
      | _, _ => .next s2

end Sys2Proof.Machine
end

