-- ==== Sys2Proof/Machine/Cellar.lean ====
section
/-! DEFINITION. The cellar's own work (R233, R243, R256-R267): scrubbing, retirement, CLEAR_BAY, the commit of the split, hold
timeouts, SCRUB_CTL and INJECT. -/

namespace Sys2Proof.Machine

/-! ## Scrubbing (R256-R260) -/

/-- Data rows of a bay die, and all rows with the spares. -/
def dataRows : Nat := 24576
def allRows : Nat := 25088

/-- The data row that a physical row holds: itself while it is not retired, or the row that a spare stands in for. -/
def State.rowOf (s : State) (t die bay prow : Nat) : Option Nat :=
  if prow < dataRows then (if s.physRow t die bay prow = prow then some prow else none)
  else
    (s.mem.remap.find? fun e => e.2 = prow && e.1 / allRows = (t * 2 + die) * 136 + bay).map fun e => e.1 % allRows

/-- The flag and health event of a bay that runs short of spares (R260). -/
def State.spareFlags (s : State) (t die bay : Nat) : State :=
  let mine := (s.sparesUsed t die bay).length
  let both := (s.sparesUsed t 0 bay).length + (s.sparesUsed t 1 bay).length
  let where_ := die * 256 + bay
  let s1 := if both = 820 then (((s.fset celStatusSpareHigh 1 t die).logEvent 0x0024 1 t [where_, 1]).trigger 1) else s
  if 512 ≤ mine + (s.sparesBad t die bay).length then ((s1.fset celStatusSpareOut 1 t die).logEvent 0x0024 1 t [where_, 2]).rehealth else s1

/-- Retire a data row (R259): copied to a free choice among the free spare rows, uncorrectable bytes poisoned; with no spare
left it stays in place. (DEDUCED, log entry 65.) -/
def State.retireRow (s : State) (t die bay row : Nat) : State :=
  let taken := s.sparesUsed t die bay ++ s.sparesBad t die bay
  let open_ := ((List.range 512).map fun i => dataRows + i).filter fun r => !taken.contains r
  if open_.isEmpty then s.fset celStatusSpareOut 1 t die
  else
    let sp := open_.getD (s.free1 % open_.length) dataRows
    let src := rowKey t die bay (s.physRow t die bay row) * 512
    let dst := rowKey t die bay sp * 512
    let cells := (List.range 512).foldl (fun m i =>
      SMap.put 0#13 m (dst + i) (markedCode (byteRead (SMap.get 0#13 s.mem.cells (src + i))).marked)) s.mem.cells
    let s1 := (s.drawn 1).modMem fun m => { m with cells := cells, remap := SMap.put 0 m.remap (rowKey t die bay row) sp }
    (s1.modTower t fun w => { w with usedSpares := SMap.put [] w.usedSpares (die * 136 + bay) (s.sparesUsed t die bay ++ [sp]) }).spareFlags t die bay

/-- The scrubber looks at a physical row: valid-bit copies that disagree are rewritten and counted (R241); an invalid data row
is skipped (R240); a row with corrected bytes is rewritten and read again; it is retired when it holds an uncorrectable byte,
or when the same byte still shows an error, which is a property of the cells and free. (DEDUCED, log entry 64.) -/
def State.scrubRow (s : State) (t die bay prow : Nat) : State :=
  let data := s.rowOf t die bay prow
  let v := match data with | some r => s.validBits t die bay r | none => 7#3
  let odd := v ≠ 0#3 && v ≠ 7#3
  let s0 := match data, odd with
    | some r, true =>
      ((s.bump celErrCntCorrected 1 t die).ce 1).modMem fun m =>
        { m with valid := SMap.put 0#3 m.valid (rowKey t die bay r) (if majority v then 7#3 else 0#3) }
    | _, _ => s
  if prow < dataRows ∧ data.isNone then s0
  else if !(majority v) then s0
  else
    let rs := s0.rowCells t die bay prow
    let fixed := rs.any ByteRead.corrected
    let bad := rs.any ByteRead.bad
    let s1 := s0.rowErrors t die bay prow 2 rs
    let k := rowKey t die bay prow * 512
    let s2 := if fixed then s1.modMem fun m =>
        { m with cells := rs.zipIdx.foldl (fun c e => if e.1.corrected then SMap.put 0#13 c (k + e.2) (byteCode e.1.val) else c) m.cells } else s1
    let still := fixed && s2.free1 % 2 = 1
    let s3 := if fixed then s2.drawn 1 else s2
    match data with
    | some r => if bad ∨ still then s3.retireRow t die bay r else s3
    | none => s3

/-- Bays that a die's scrubber visits: those of the address map whose die is not in retention. -/
def State.scrubBays (s : State) (t die : Nat) : List Nat :=
  (List.range 136).filter fun b => (s.logical t b).isSome && !(s.tower t).domRet.contains (die * 136 + b)

/-- A bay's place in the lap: rows visited, all of them and more once its pointer has wrapped. -/
def Tower.lapPos (w : Tower) (die bay : Nat) : Nat := SMap.get 0 w.scrubPtr (die * 136 + bay)

/-- The lap ends when every bay's pointer has wrapped (R257). -/
def State.lapEnd (s : State) (t die : Nat) : State :=
  let w := s.tower t
  let bs := s.scrubBays t die
  if bs.isEmpty ∨ bs.any (fun b => w.lapPos die b < allRows) then s
  else
    let now := s.stamp t
    let took := now - w.lapStart.getD die 0
    let s1 := s.modTower t fun w =>
      { w with lapStart := (List.range 2).map fun d => if d = die then now else w.lapStart.getD d 0
               scrubPtr := (List.range 136).foldl (fun m b =>
                 let k := die * 136 + b
                 let v := SMap.get 0 m k
                 if allRows ≤ v then SMap.put 0 m k (v - allRows) else m) w.scrubPtr }
    let s2 := (s1.bump celScrubLapLaps 1 t die).fset celScrubLapLapTime (min (2 ^ 32 - 1) took) t die
    if max 1 (s2.fget celScrubCtlLapLimit t die) * 200000 < took then
      (s2.fset celStatusLapSlow 1 t die).logEvent 0x0025 1 t [0, die]
    else s2

/-- SCRUB_SLOT (R256-R259): the repair queue first, then the next bay in round-robin order. -/
def execScrubSlot (t : Fin 4) (die : Fin 2) (s : State) : Out :=
  let w := s.tower t
  if s.dieReset t die ∨ w.fence ≠ 0 ∨ w.inTower then .next s
  else
    match SMap.get [] w.repairQ die with
    | (bay, row) :: rest =>
      .next ((s.modTower t fun w => { w with repairQ := SMap.put [] w.repairQ die rest }).scrubRow t die bay (s.physRow t die bay row))
    | [] =>
      if !s.flag celScrubCtlEnable t die ∨ w.patrolPaused.contains (100 + die) then .next s
      else
        let bs := s.scrubBays t die
        let from_ := w.scrubBay.getD die 0
        match (bs.filter fun b => from_ ≤ b) ++ bs with
        | [] => .next s
        | b :: _ =>
          let v := w.lapPos die b
          let s1 := s.modTower t fun w =>
            { w with scrubBay := (List.range 2).map fun d => if d = die.val then (b + 1) % 136 else w.scrubBay.getD d 0
                     scrubPtr := SMap.put 0 w.scrubPtr (die * 136 + b) (if v + 1 < 2 * allRows then v + 1 else allRows) }
          .next ((s1.scrubRow t die b (v % allRows)).lapEnd t die)

/-! ## Hold timeouts (R19, R265, R300) -/

/-- Why an access is held: 0 it is not, 1 its bay die or pantry set resets, 2 its home tower is in TOWER reset, 3 the package
bridges on its diagonal path are. -/
def State.holdKind (s : State) (r : Req) : Nat :=
  match s.home r.tower r.addr with
  | .held =>
    let m := fld r.addr 47 0
    let ht := if m < 0x020000000000 then bitsOf m 40 39 else if m < 0x110000000000 then bitsOf m 34 33
      else if m < 0x1F0000000000 then bitsOf m 30 29 else bitsOf m 33 32
    if (s.tower ht).inTower then 2 else if s.path r.tower ht = 1 then 3 else 1
  | _ => 0

/-- An access held for 10 ms fails with RESOURCE_LOST. -/
def State.holdTimeout (s : State) (kind id : Nat) : State :=
  match s.reqs.find? fun r => r.id = id with
  | none => s
  | some r =>
    match r.held with
    | none => s
    | some h =>
      if s.holdKind r = kind ∧ h + 2000000 ≤ s.stamp r.tower ∧ r.stage = .issued then (s.finishReq id stLost []).deliver id else s

/-- CELLAR_HOLD_TIMEOUT (R265). -/
def execCellarHoldTimeout (id : Nat) (s : State) : Out := .next (s.holdTimeout 1 id)
/-- TOWER_HOLD_TIMEOUT (R300). -/
def execTowerHoldTimeout (id : Nat) (s : State) : Out := .next (s.holdTimeout 2 id)
/-- DIAGONAL_HOLD_TIMEOUT (R19). -/
def execDiagonalHoldTimeout (id : Nat) (s : State) : Out := .next (s.holdTimeout 3 id)

/-! ## CLEAR_BAY (R243) -/

/-- The valid bits of rows that pass a test, on a tower, become 0: die, bay, row. -/
def State.clearRows (s : State) (t : Nat) (p : Nat → Nat → Nat → Bool) : State :=
  s.modMem fun m => { m with valid := m.valid.filter fun e =>
    let row := e.1 % allRows
    let bay := e.1 / allRows % 136
    let die := e.1 / allRows / 136 % 2
    !(e.1 / allRows / 272 = t && p die bay row) }

/-- Rows named, clamped into 1 to 24,576, and the clamp mask (parameter 3). -/
def clearCount (p : Packet) : Nat × Nat :=
  let n := pbytes p 20 4
  (clampN 1 24576 n, if n < 1 ∨ 24576 < n then 8 else 0)

/-- Dies that a CLEAR_BAY names. -/
def clearDies (p : Packet) : List Nat := (List.range 2).filter fun d => pbytes p 9 1 / 2 ^ d % 2 = 1

/-- Checks 6 and 7 of CLEAR_BAY. -/
def State.checkClear (s : State) (p : Packet) : Nat × Nat :=
  let t := pbytes p 8 1
  (firstBad [if 3 < t then stBadAddress else 0
    , if (clearDies p).any fun d => s.priv t d * 2048 < pbytes p 16 4 + (clearCount p).1 then stBadAddress else 0
    , s.towerStatus t], 0)

/-- The work of CLEAR_BAY. -/
def State.workClear (p : Packet) (_ : Pkt) (s : State) : Did :=
  let c := s.checkClear p
  let t := pbytes p 8 1
  if c.1 ≠ 0 then .fail s c.1
  else
    match (clearDies p).find? fun d => s.dieReset t d with
    | some d => .fail s stHeld (0x100000000000 + t * 2 ^ 33 + d * 2 ^ 24)
    | none =>
      if (s.tower t).inTower then .fail s stHeld (0x100000000000 + t * 2 ^ 33)
      else
        let (n, clamp) := clearCount p
        let first := pbytes p 16 4
        let bays := ((List.range 128).filter fun c => pbytes p 24 16 / 2 ^ c % 2 = 1).map fun c => s.phys t c
        { s := s.clearRows t fun die bay row => (clearDies p).contains die && bays.contains bay && decide (first ≤ row ∧ row < first + n)
          st := okStatus clamp, clamp := clamp }

/-- CLEAR_BAY (R243). -/
def execClearBay (q : Fin 1024) (p : Packet) (s : State) : Out := .next (s.runPkt q 0x13 p (State.workClear p))

/-! ## The split's commit (R233, R267) -/

/-- Re-pin the lines of a tower's pin records at class 2; lines that stay unpinned are logged with the reason given. (DEDUCED, log entry 66.) -/
def State.repin (s : State) (t why : Nat) (p : Nat → Bool) : State :=
  let (n, s1) := s.pinLines t ((s.pinnedLines t).filter p)
  if n = 0 ∨ why = 0 then s1 else s1.logEvent 0x0038 1 t [n, why]

/-- The private granules that the staged values would give (R233). -/
def State.nextSplit (s : State) (t : Nat) : Nat × Nat :=
  let f (d : Nat) : Nat := fld (s.lck ⟨.celSplit, t, d, 0, 0⟩) 3 0
  let u := min 12 (f 0)
  (u, min (22 - u) (min 12 (f 1)))

/-- A change of the split waits for pending fills, bay accesses in flight and suspended teams of the tower. -/
def State.splitBusy (s : State) (t : Nat) : Bool :=
  (s.mem.fills.any fun e => e.1 / 2 = t && e.2 ≠ []) ||
  (s.clusters.any fun e => e.1 / 128 = t && e.2.saved ≠ []) ||
  s.reqs.any fun r => r.stage = .issued && (match s.home r.tower r.addr with | .bay ht _ _ _ => ht = t | _ => false)

/-- CELLAR_SPLIT_COMMIT: both dies' staged values become active; a new split empties the pantry first, invalidates every row
of a granule that changes role, and pins the lines of the records again. -/
def execCellarSplitCommit (t : Fin 4) (s : State) : Out :=
  if !s.commitPending .celCommit t 0 then .next s
  else
    let (u, l) := s.nextSplit t
    let put (s : State) : State := ((s.commitDone .celCommit t 0).fset celSplitPrivate u t 0).fset celSplitPrivate l t 1
    let ou := s.priv t 0
    let ol := s.priv t 1
    if u = ou ∧ l = ol then .next ((put s).arrived (.cellar t))
    else if s.splitBusy t ∨ s.dieReset t 0 ∨ s.dieReset t 1 ∨ (s.tower t).inTower then .next s
    else
      let s1 := put (s.flushWays t fun _ _ _ => true)
      let s2 := s1.clearRows t fun die _ row =>
        let (a, b) := if die = 0 then (ou, u) else (ol, l)
        decide (min a b ≤ row / 2048 ∧ row / 2048 < max a b)
      .next ((s2.repin t 1 fun _ => true).arrived (.cellar t))

/-! ## SCRUB_CTL and INJECT (Table 12-5) -/

/-- Checks 6 and 7 of SCRUB_CTL. -/
def State.checkScrub (s : State) (p : Packet) : Nat × Nat :=
  (firstBad [if pbytes p 8 1 = 2 ∧ 7 < pbytes p 10 1 then stBadAddress else 0, s.towerStatus (pbytes p 9 1)], 0)

/-- The work of SCRUB_CTL: a new lap, pause or resume of a cellar scrubber or of a stack's patrol. -/
def State.workScrub (p : Packet) (_ : Pkt) (s : State) : Did :=
  let c := s.checkScrub p
  let g := pbytes p 8 1
  let t := pbytes p 9 1
  let k := if g = 2 then pbytes p 10 1 else 100 + g
  if c.1 ≠ 0 then .fail s c.1
  else
    let now := s.stamp t
    { s := match pbytes p 11 1 with
        | 0 => s.modTower t fun w =>
            if g = 2 then
              { w with patrolPtr := (List.range 64).foldl (fun m pc => SMap.put 0 m (k * 64 + pc) 0) w.patrolPtr
                       patrolStart := SMap.put 0 w.patrolStart k now }
            else { w with scrubPtr := (List.range 136).foldl (fun m b => SMap.put 0 m (g * 136 + b) 0) w.scrubPtr
                          lapStart := (List.range 2).map fun d => if d = g then now else w.lapStart.getD d 0 }
        | 1 => s.modTower t fun w => { w with patrolPaused := w.patrolPaused.filter (· ≠ k) ++ [k] }
        | _ => s.modTower t fun w => { w with patrolPaused := w.patrolPaused.filter (· ≠ k) } }

/-- SCRUB_CTL. -/
def execScrubCtl (q : Fin 1024) (p : Packet) (s : State) : Out := .next (s.runPkt q 0x72 p (State.workScrub p))

/-- Checks 6 and 7 of INJECT. -/
def State.checkInject (s : State) (p : Packet) : Nat × Nat :=
  let t := pbytes p 9 1
  if pbytes p 8 1 = 0 then (firstBad [if 1 < pbytes p 10 1 ∨ 135 < pbytes p 12 2 then stBadAddress else 0, s.towerStatus t], 0)
  else (s.cluStatus t (pbytes p 10 1), 0)

/-- The work of INJECT (R261, R262): the flip mask is written as its register is. (DESIGN CHOICE, log entry 77.) -/
def State.workInject (p : Packet) (_ : Pkt) (s : State) : Did :=
  let c := s.checkInject p
  if c.1 ≠ 0 then .fail s c.1
  else
    let l : Loc := if pbytes p 8 1 = 0 then ⟨.celFlipmask, pbytes p 9 1, pbytes p 10 1, pbytes p 12 2, 0⟩
      else ⟨.shfFlipmask, pbytes p 9 1, pbytes p 10 1, 0, 0⟩
    { s := s.regWrite l (BitVec.ofNat 64 (pbytes p 16 8)) (BitVec.allOnes 64) }

/-- INJECT. -/
def execInject (q : Fin 1024) (p : Packet) (s : State) : Out := .next (s.runPkt q 0x73 p (State.workInject p))

end Sys2Proof.Machine
end

