-- ==== Sys2Proof/Machine/Larder.lean ====
section
/-! DEFINITION. The pantry's steps and commands (R278-R301): lookups, fills, PIN, UNPIN, DISCARD, larder pressure, the policy's
commit; and PK1 streams read by commands (R75-R81). -/

namespace Sys2Proof.Machine

/-! ## Lookups and fills (R278-R284) -/

/-- Bytes of a line as they stand in a way: those present, none for the others. -/
def State.presentBytes (s : State) (t half set w : Nat) (l : PLine) : List (Option (BitVec 9)) :=
  (s.wayRead t half set w).1.zipIdx.map fun b => if (presentMask l).getLsbD b.2 then some b.1 else none

/-- An access waits for a fill. -/
def State.stageOf (s : State) (id : Nat) (g : ReqStage) : State :=
  { s with reqs := s.reqs.map fun r => if r.id = id then { r with stage := g } else r }

/-- A read joins the pending fill of its line, or opens one; a full table or a full entry makes it wait at the half's input
(R279). `over` holds the bytes of the line written before it arrived (R280). -/
def State.joinFill (s : State) (t half line : Nat) (far : Option Nat) (cls id : Nat) (over_ : List (Option (BitVec 9))) : Option State :=
  let k := t * 2 + half
  let fs := SMap.get [] s.mem.fills k
  match fs.find? fun f => f.line = line && f.far = far with
  | some f =>
    if 32 ≤ f.reqs.length then none
    else some (((s.modMem fun m => { m with fills := SMap.put [] m.fills k (fs.map fun x =>
        if x.line = line ∧ x.far = far then { x with reqs := x.reqs ++ [(id, over_)] } else x) }).bump panHcntCount 1 t 0 half 2).stageOf id .filling)
  | none =>
    if 1024 ≤ fs.length then none
    else some ((s.modMem fun m => { m with fills := SMap.put [] m.fills k (fs ++ [⟨line, far, cls, [(id, over_)], false⟩]) }).stageOf id .filling)

/-- The lookup of a read of n bytes at byte lo of a local line. -/
def State.lookupRead (s : State) (t line lo n : Nat) (r : Req) (req : Nat) : Option State :=
  let (half, set) := s.panSet t line
  let hit := match s.panFind t line none with
    | some (_, l) => (List.range n).all fun i => (presentMask l).getLsbD (lo + i)
    | none => false
  if hit || (s.bypass t r.cls && !s.filling t half line none && (s.panFind t line none).isNone) then
    let (bs, s1) := s.panRead t line lo n r.cls req
    some (s1.finishReq r.id 0 bs)
  else
    let pinned := match s.panFind t line none with | some (_, l) => l.pinned | none => false
    let over_ := match s.panFind t line none with | some (w, l) => s.presentBytes t half set w l | none => []
    let s1 := ((s.deadTouch t line req true).lookupCost t half r.cls pinned true).bump panHcntCount 1 t 0 half 1
    s1.joinFill t half line none r.cls r.id over_

/-- The lookup of a read of a remote line in the requester's tower (R290): a far hit, a join, or a far fill whose read leaves
on a link. -/
def State.lookupFar (s : State) (t m a n : Nat) (r : Req) : Option State :=
  match s.farRead t m a n with
  | (some bs, s1) => some (s1.finishReq r.id 0 bs)
  | (none, s1) =>
    let line := a / 128
    let (half, _) := s1.panSet t (panKeyOf line (some m))
    let s2 := (s1.account t (8 + half) r.cls 128).bump panHcntCount 1 t 0 half 1
    let open_ := s2.filling t half line (some m)
    (s2.joinFill t half line (some m) r.cls r.id []).map fun s3 =>
      if open_ then s3
      else (s3.launchReq (s3.mkReq (r.addr.toNat - r.addr.toNat % 128) (.load 128) r.cls (.fill t half line) t)).newId

/-- An earlier access of the same requester to the same line is still before its lookup. -/
def State.behind (s : State) (r : Req) : Bool :=
  (s.reqs.takeWhile fun x => x.id ≠ r.id).any fun x =>
    x.owner = r.owner && x.stage = .issued && x.addr.toNat / 128 = r.addr.toNat / 128

/-- Requester code of PAN_DEAD_LOG: a cluster's, or 0x3FF. -/
def deadReq (o : ReqOwner) : Nat :=
  match o with
  | .bunch k => k / 8192 * 256 + k / 64 % 128 * 2
  | .hatch t c _ _ => t * 256 + c * 2
  | .writeBack t c _ => t * 256 + c * 2
  | _ => 0x3FF

/-- PANTRY_LOOKUP: an access on its way reaches its home half. One that must wait, or whose home is no pantry, is left as it
is (DESIGN CHOICE, log entry 3). -/
def execPantryLookup (id : Nat) (s : State) : Out :=
  match s.reqs.find? fun r => r.id = id with
  | none => .next s
  | some r =>
    if r.stage ≠ .issued ∨ s.behind r then .next s
    else
      match s.home r.tower r.addr, r.op with
      | .hbm t a, .load n =>
        if a % 128 + n ≤ 128 then .next ((s.lookupRead t (a / 128) (a % 128) n r (deadReq r.owner)).getD s)
        else .next (s.perform r)
      | .hbm _ _, _ => .next (s.perform r)
      | .remote m a, .load n =>
        if a % 128 + n ≤ 128 ∧ a < 0x020000000000 then .next ((s.lookupFar r.tower m a n r).getD s) else .next s
      | _, _ => .next s

/-- Deliver a fill's bytes to its requesters, each with the bytes it found written when it arrived. -/
def State.deliverFill (s : State) (f : Fill) (st : Nat) (bs : List (BitVec 9)) : State :=
  f.reqs.foldl (fun s e =>
    match s.reqs.find? fun r => r.id = e.1 with
    | none => s
    | some r =>
      let lo := r.addr.toNat % 128
      let n := match r.op with | .load n => n | _ => 0
      s.finishReq r.id st ((List.range n).map fun i => (e.2.getD (lo + i) none).getD (bs.getD (lo + i) 0#9))) s

/-- A pending fill ends (R280, R282, R284): the line merges with what was written meanwhile, or takes a way; a line that finds
none is a bypass. A fill to be dropped only delivers. -/
def State.endFill (s : State) (t half : Nat) (f : Fill) (st : Nat) (bs : List (BitVec 9)) : State :=
  let k := t * 2 + half
  let s1 := (s.modMem fun m => { m with fills := SMap.put [] m.fills k ((SMap.get [] m.fills k).filter fun x =>
    !(x.line = f.line && x.far = f.far)) }).deliverFill f st bs
  if f.drop ∨ st ≠ 0 then s1
  else
    let (_, set) := s1.panSet t (panKeyOf f.line f.far)
    match s1.panFind t f.line f.far with
    | some (w, l) =>
      if l.st = .part then
        let add := (numbered 0 bs).filter fun b => !(presentMask l).getLsbD b.1
        (s1.wayWrite t half set w add).setWay t half set w (some { l with st := .dirty, mask := 0#128, use := s1.nextUse t half set })
      else s1
    | none => s1.placeOr t half set f.line f.far .clean (numbered 0 bs)

/-- A local fill ends: the line is fetched from HBM. -/
def State.fillLocal (s : State) (t half : Nat) (f : Fill) : State :=
  let (bs, s1) := s.lineFetch t f.line f.cls
  (s1.panErr t f.line 1 bs).endFill t half f 0 bs

/-- PANTRY_FILL_COMPLETE: a local fill returns from HBM; a far fill ends once its read has been answered. -/
def execPantryFillComplete (t : Fin 4) (half : Fin 2) (line : Nat) (s : State) : Out :=
  match (SMap.get [] s.mem.fills (t * 2 + half)).find? fun f => f.line = line with
  | none => .next s
  | some f =>
    match f.far with
    | none => if s.lineHeld t line ∨ (s.tower t).inTower then .next s else .next (s.fillLocal t half f)
    | some _ =>
      match s.reqs.find? fun r => r.owner = .fill t half line && r.stage = .done with
      | none => .next s
      | some r =>
        .next (({ s with reqs := s.reqs.filter fun x => x.id ≠ r.id } : State).endFill t half f r.status r.data)

/-! ## PK1 streams read by commands (R75-R81) -/

/-- What reading a stream's blocks gave: plain bytes before the first block in error, that block, whether an uncorrectable
byte was read, the status of the accesses. -/
structure PkGot where
  bytes : List Byte
  err : Option Nat
  bad : Bool
  st : Nat
  at_ : Nat
  header : Option PkHeader
  s : State

/-- Read ranges of command addresses one after another. -/
def State.creads (s : State) (g : Agent) (a : W64) (rs : List (Nat × Nat)) : Nat × Nat × Bool × State :=
  rs.foldl (fun x e =>
    if x.1 ≠ 0 then x
    else
      let r := x.2.2.2.cread g (a + BitVec.ofNat 64 e.1) e.2
      (r.st, r.at_, x.2.2.1 || r.data.any isBad, r.s)) (0, 0, false, s)

/-- Blocks first … first + count − 1 of the stream at a command address. A part that is still remote leaves its need. -/
def State.pkRead (s : State) (g : Agent) (a : W64) (first count : Nat) : PkGot :=
  let rd (off n : Nat) : List Byte := (s.cread g (a + BitVec.ofNat 64 off) n).data.map dataOf
  let h := s.creads g a [(0, 64)]
  let part (x : Nat × Nat × Bool × State) (hd : Option PkHeader) : PkGot := ⟨[], none, x.2.2.1, x.1, x.2.1, hd, x.2.2.2⟩
  if h.1 ≠ 0 ∨ h.2.2.2.needs ≠ s.needs then part h none
  else
    match pkHeader (rd 0 64) with
    | none => ⟨[], some first, h.2.2.1, 0, 0, none, h.2.2.2⟩
    | some p =>
      let n := min count (cdiv p.elements 256 - first)
      let x := h.2.2.2.creads g a [(p.indexOff + 8 * first, 8 * n), (p.tableOff, p.tables * pkTblBytes p.fmt)]
      if x.1 ≠ 0 ∨ x.2.2.2.needs ≠ s.needs then part x (some p)
      else
        let es := (List.range n).filterMap fun i =>
          let e := BitVec.ofNat 64 (leNat (rd (p.indexOff + 8 * (first + i)) 8))
          if fld e 31 0 * 4 + fld e 42 32 ≤ p.payBytes then some (p.payOff + fld e 31 0 * 4, fld e 42 32) else none
        let y := x.2.2.2.creads g a es
        if y.1 ≠ 0 ∨ y.2.2.2.needs ≠ s.needs then part y (some p)
        else
          let (bytes, err) := pkBlocks p rd first count
          ⟨bytes, err, h.2.2.1 || x.2.2.1 || y.2.2.1, 0, 0, some p, y.2.2.2⟩

/-! ## Ranges of module addresses -/

/-- A module address that a packet names, possibly as a global address of the own module; none for any other. -/
def State.moduleAddr (s : State) (ga : W64) : Option Nat :=
  if fld ga 63 48 = 0 then some (fld ga 47 0)
  else if bit ga 63 ∧ fld ga 62 60 = 0 ∧ s.mod.moduleId = some (BitVec.ofNat 12 (fld ga 59 48)) then some (fld ga 47 0) else none

/-- The parts of a range of the HBM window, tower by tower: tower, first offset, bytes. -/
def hbmParts (a n : Nat) : List (Nat × Nat × Nat) :=
  (List.range 4).filterMap fun t =>
    let lo := max a (t * 2 ^ 39)
    let hi := min (a + n) ((t + 1) * 2 ^ 39)
    if lo < hi then some (t, lo - t * 2 ^ 39, hi - lo) else none

/-- The check of a range of local HBM lines (R285): its parts, or a status. -/
def State.hbmRange (s : State) (ga : W64) (n : Nat) : Nat × List (Nat × Nat × Nat) :=
  match s.moduleAddr ga with
  | none => (stBadAddress, [])
  | some a =>
    if a % 128 ≠ 0 ∨ n % 128 ≠ 0 ∨ 0x020000000000 < a + n then (stBadAddress, [])
    else
      let ps := hbmParts a n
      if ps.any fun p => s.priv p.1 0 + s.priv p.1 1 < 2 && decide (0x7FF0000000 < p.2.1 + p.2.2) then (stBadAddress, [])
      else (firstBad (ps.map fun p => s.towerStatus p.1), ps)

/-- A line of the parts that a reset holds. -/
def State.heldLine (s : State) (ps : List (Nat × Nat × Nat)) : Option Nat :=
  ps.findSome? fun p =>
    if (s.tower p.1).inTower then some (p.1 * 2 ^ 39 + p.2.1)
    else if s.dieReset p.1 0 || s.dieReset p.1 1 then
      ((List.range (p.2.2 / 128)).find? fun i => s.lineHeld p.1 (p.2.1 / 128 + i)).map fun i => p.1 * 2 ^ 39 + p.2.1 + 128 * i
    else none

/-! ## PIN (R285-R289) -/

/-- Checks 6 and 7 of PIN. (DEDUCED, log entry 68.) -/
def State.checkPin (s : State) (q : Nat) (p : Packet) : Nat × Nat :=
  let (st, ps) := s.hbmRange (wordAt p 1) (wordAt p 2).toNat
  (firstBad [st, if pbytes p 24 1 = 2 then s.crange (qTower q) (wordAt p 4) 64 else 0
    , if ps.any fun x => 1024 ≤ (s.tower x.1).pins.length then stBadState else 0], 0)

/-- A pin record enters a tower's list. -/
def State.addPin (s : State) (t start n : Nat) : State :=
  if n = 0 then s else s.modTower t fun w => { w with pins := w.pins ++ [⟨t * 2 ^ 39 + start, n⟩] }

/-- Pin the lines of parts that are resident, or all of them with the fetch option; lines not pinned are counted. -/
def State.pinParts (s : State) (fetch : Bool) (ps : List (Nat × Nat × Nat)) : Nat × State :=
  ps.foldl (fun a p =>
    let r := (List.range (p.2.2 / 128)).foldl (fun (b : Nat × State) i =>
      let (ok, s1) := b.2.pinLine p.1 (p.2.1 / 128 + i) fetch
      (if ok then b.1 else b.1 + 1, s1)) a
    (r.1, r.2.addPin p.1 p.2.1 p.2.2)) (0, s)

/-- Decoded bytes written as whole lines into the parts and pinned, without reading HBM (R289). -/
def State.pinStream (s : State) (ps : List (Nat × Nat × Nat)) (bs : List (BitVec 9)) : Nat × State :=
  (ps.foldl (fun (a : (Nat × State) × List (BitVec 9)) p =>
    let lines := min (p.2.2 / 128) (a.2.length / 128)
    let r := (List.range lines).foldl (fun (b : Nat × State) i =>
      let line := p.2.1 / 128 + i
      let s1 := b.2.panWrite p.1 line 2 (numbered 0 ((a.2.drop (128 * i)).take 128))
      let (ok, s2) := s1.pinLine p.1 line false
      (if ok && (s2.panFind p.1 line none).isSome then b.1 else b.1 + 1, s2)) a.1
    ((r.1, r.2.addPin p.1 p.2.1 (128 * lines)), a.2.drop (128 * lines))) ((0, s), bs)).1

/-- The outcome of a PIN: OK_CLAMPED with the lines left unpinned (R286). -/
def pinDid (r : Nat × State) : Did :=
  { s := r.2, st := if r.1 = 0 then stOK else stClamped, detail := min r.1 0xFFFFFFFF }

/-- The work of PIN. -/
def State.workPin (q : Nat) (p : Packet) (k : Pkt) (s : State) : Did :=
  let c := s.checkPin q p
  let n := (wordAt p 2).toNat
  let ps := (s.hbmRange (wordAt p 1) n).2
  if c.1 ≠ 0 then .fail s c.1
  else
    match s.heldLine ps with
    | some a => .fail s stHeld a
    | none =>
      if !s.streamsHeld q k.id (match pbytes p 24 1 with | 0 => [] | 1 => [(wordAt p 1, n)] | _ => [(wordAt p 4, n)]) then .fail s stWait
      else if pbytes p 24 1 = 2 then
        let r := s.pkRead (s.cmdAgent q k) (wordAt p 4) (pbytes p 40 4) (pbytes p 44 4)
        if r.st ≠ 0 then .fail r.s r.st r.at_
        else if r.s.needs ≠ [] then { s := r.s }
        else
          let wrong : Bool := match r.header with | some h => pkSize h (pbytes p 40 4) (pbytes p 44 4) != n | none => false
          if wrong then .fail s stBadLength
          else
            let d := pinDid (r.s.pinStream ps (r.bytes.map fun b => if r.bad then clean b ||| 256#9 else clean b))
            match r.err with
            | some b => { d with st := stInconsistent, detail := b % 2 ^ 32 }
            | none => if r.bad then { d with st := stUncorrectable, detail := 0 } else d
      else pinDid (s.pinParts (pbytes p 24 1 = 1) ps)

/-- PIN (R285). -/
def execPin (q : Fin 1024) (p : Packet) (s : State) : Out := .next (s.runPkt q 0x15 p (State.workPin q p))

/-! ## UNPIN and DISCARD (R287, R296-R298) -/

/-- What is left of a record when a range of addresses leaves it. -/
def PinRec.without (r : PinRec) (lo hi : Nat) : List PinRec :=
  let e := r.start + r.bytes
  if hi ≤ r.start ∨ e ≤ lo then [r]
  else (if r.start < lo then [⟨r.start, lo - r.start⟩] else []) ++ (if hi < e then [⟨hi, e - hi⟩] else [])

/-- The records of a tower after an UNPIN of a part. -/
def State.pinsWithout (s : State) (p : Nat × Nat × Nat) : List PinRec :=
  (s.tower p.1).pins.flatMap fun r => r.without (p.1 * 2 ^ 39 + p.2.1) (p.1 * 2 ^ 39 + p.2.1 + p.2.2)

/-- Checks 6 and 7 of UNPIN. -/
def State.checkUnpin (s : State) (p : Packet) : Nat × Nat :=
  let (st, ps) := s.hbmRange (wordAt p 1) (wordAt p 2).toNat
  if st ≠ 0 then (st, 0)
  else if ps.any fun x => 1024 < (s.pinsWithout x).length then (stBadState, 1) else (0, 0)

/-- The lines of a part lose their pins, and the records shrink. -/
def State.unpinPart (s : State) (p : Nat × Nat × Nat) : State :=
  (s.unpinLines p.1 (p.2.1 / 128) ((p.2.1 + p.2.2) / 128)).modTower p.1 fun w => { w with pins := s.pinsWithout p }

/-- The work of UNPIN. -/
def State.workUnpin (p : Packet) (_ : Pkt) (s : State) : Did :=
  let c := s.checkUnpin p
  if c.1 ≠ 0 then .fail s c.1 c.2
  else { s := ((s.hbmRange (wordAt p 1) (wordAt p 2).toNat).2).foldl State.unpinPart s }

/-- UNPIN (R287). -/
def execUnpin (q : Fin 1024) (p : Packet) (s : State) : Out := .next (s.runPkt q 0x16 p (State.workUnpin p))

/-- The records of a tower after a DISCARD of a part, and how many were kept whole for want of a free record. -/
def trimPins (lo hi : Nat) : List PinRec → Nat → List PinRec × Nat
  | [], _ => ([], 0)
  | r :: rs, room =>
    let w := r.without lo hi
    if w.length = 2 ∧ room = 0 then
      let (a, n) := trimPins lo hi rs room
      (r :: a, n + 1)
    else
      let (a, n) := trimPins lo hi rs (room + 1 - w.length)
      (w ++ a, n)

/-- DISCARD of a part of HBM: pending fills complete, the home pantry drops its lines, dirty ones into the dead-line filter,
and the records are trimmed. -/
def State.discardPart (s : State) (p : Nat × Nat × Nat) : Nat × State :=
  let t := p.1
  let lo := p.2.1 / 128
  let hi := (p.2.1 + p.2.2) / 128
  let s1 := (List.range 2).foldl (fun (s : State) half =>
    ((SMap.get [] s.mem.fills (t * 2 + half)).filter fun f => f.far.isNone && decide (lo ≤ f.line ∧ f.line < hi)).foldl
      (fun s f => s.fillLocal t half f) s) s
  let mine (k : Nat) (v : Option PLine) : Bool :=
    k / 2 ^ 25 = t && (match v with | some l => l.far.isNone && decide (lo ≤ l.line ∧ l.line < hi) | none => false)
  let dirty := s1.mem.pantry.filterMap fun e =>
    match e.2 with | some l => if mine e.1 e.2 ∧ l.st ≠ .clean then some l.line else none | none => none
  let s2 := dirty.foldl (fun s l => s.deadLine t l) s1
  let s3 := s2.modMem fun m => { m with pantry := m.pantry.filter fun e => !(mine e.1 e.2) }
  let (ps, n) := trimPins (t * 2 ^ 39 + p.2.1) (t * 2 ^ 39 + p.2.1 + p.2.2) (s3.tower t).pins (1024 - (s3.tower t).pins.length)
  (n, s3.modTower t fun w => { w with pins := ps })

/-- A range of one bay die (Table 09-6): tower, die, logical cluster, first row, rows; or a status. -/
def State.bayRange (s : State) (t : Nat) (ga : W64) (n : Nat) : Nat × Nat × Nat × Nat × Nat × Nat :=
  match s.moduleAddr ga with
  | none => (stBadAddress, 0, 0, 0, 0, 0)
  | some a =>
    if a < 0x100000000000 ∨ 0x100800000000 ≤ a ∨ a % 512 ≠ 0 ∨ n % 512 ≠ 0 then (stBadAddress, 0, 0, 0, 0, 0)
    else (s.rangeStatus t ga n, bitsOf a 34 33, bitsOf a 24 24, bitsOf a 31 25, a % 2 ^ 24 / 512, n / 512)

/-- Checks 6 and 7 of DISCARD. -/
def State.checkDiscard (s : State) (q : Nat) (p : Packet) : Nat × Nat :=
  let ga := wordAt p 1
  let n := (wordAt p 2).toNat
  match s.moduleAddr ga with
  | none => (stBadAddress, 0)
  | some a => if a < 0x020000000000 then ((s.hbmRange ga n).1, 0) else ((s.bayRange (qTower q) ga n).1, 0)

/-- DISCARD of a range. -/
def State.discard (s : State) (q : Nat) (ga : W64) (n : Nat) : Did :=
  match s.moduleAddr ga with
  | none => .fail s stBadAddress
  | some a =>
    if a < 0x020000000000 then
      let (st, ps) := s.hbmRange ga n
      if st ≠ 0 then .fail s st
      else
        match s.heldLine ps with
        | some h => .fail s stHeld h
        | none =>
          let r := ps.foldl (fun (x : Nat × State) p => let (k, s1) := x.2.discardPart p; (x.1 + k, s1)) (0, s)
          { s := r.2, detail := r.1 }
    else
      let (st, t, die, c, row, rows) := s.bayRange (qTower q) ga n
      if st ≠ 0 then .fail s st
      else if s.dieReset t die ∨ (s.tower t).inTower then .fail s stHeld a
      else { s := s.clearRows t fun d b r => d = die && b = s.phys t c && decide (row ≤ r ∧ r < row + rows) }

/-- The work of DISCARD. -/
def State.workDiscard (q : Nat) (p : Packet) (_ : Pkt) (s : State) : Did := s.discard q (wordAt p 1) (wordAt p 2).toNat

/-- DISCARD (R296). -/
def execDiscard (q : Fin 1024) (p : Packet) (s : State) : Out := .next (s.runPkt q 0x14 p (State.workDiscard q p))

/-! ## Larder pressure and the policy (R288, R301) -/

/-- LARDER_PRESSURE: a pressure window ends; a tower under pressure stays so until a window at or below the ceiling (R288). (DEDUCED, log entry 67.) -/
def execLarderPressure (t : Fin 4) (s : State) : Out :=
  let w := s.tower t
  if w.fence ≠ 0 ∨ w.inTower then .next s
  else
    let rate := if w.accUnpinned = 0 then 0 else 1000 * w.missUnpinned / w.accUnpinned
    let s0 := (s.fset panPressureLastRate rate t).modTower t fun w => { w with missUnpinned := 0, accUnpinned := 0 }
    if rate ≤ clampN 1 1000 (s.fget panPolicyPressureCeiling t) then
      .next (s0.modTower t fun w => { w with pressRun := 0, pressure := false })
    else
      let run := w.pressRun + 1
      let s1 := s0.modTower t fun w => { w with pressRun := run }
      if !w.pressure && decide (run < clampN 1 64 (s.fget panPolicyPressureWindows t)) then .next s1
      else
        let s2 := if w.pressure then s1
          else (((s1.modTower t fun w => { w with pressure := true }).bump panPressureEvents 1 t).logEvent 0x0034 0 t [rate])
        match w.pins with
        | [] => .next s2
        | r :: _ =>
          if s.flag panPolicyPressureAction t then
            .next (((s2.unpinPart (t, r.start % 2 ^ 39, r.bytes)).bump panPressureDemotions 1 t).logEvent 0x0035 0 t
              [r.start % 2 ^ 32, r.start / 2 ^ 32, r.bytes % 2 ^ 32, r.bytes / 2 ^ 32])
          else .next s2

/-- PANTRY_POLICY_COMMIT: ways that change role lose their lines first, and their pinned lines are pinned again elsewhere. -/
def execPantryPolicyCommit (t : Fin 4) (s : State) : Out :=
  if !s.commitPending .panCommit t 0 then .next s
  else
    let old := s.farWays t
    let new := min 4 (fld (s.lck ⟨.panPolicy, t, 0, 0, 0⟩) panPolicyFarWays.hi panPolicyFarWays.lo)
    if old = new then .next ((s.commitDone .panCommit t 0).arrived (.pantry t))
    else
      let turns (_ _ w : Nat) : Bool := decide (16 - max old new ≤ w ∧ w < 16 - min old new)
      let lost := s.mem.pantry.filterMap fun e =>
        match e.2 with
        | some l => if e.1 / 2 ^ 25 = t ∧ l.pinned ∧ turns 0 0 (e.1 % 16) then some l.line else none
        | none => none
      let s1 := (s.flushWays t turns).commitDone .panCommit t 0
      .next ((s1.repin t 2 fun l => lost.contains l).arrived (.pantry t))

end Sys2Proof.Machine
end

