-- ==== Sys2Proof/Machine/Hbm.lean ====
section
/-! DEFINITION. The HBM controllers' own steps (R302, R308-R315, R318): accesses, refresh, write-queue bursts, patrol,
temperatures and regulation windows. -/

namespace Sys2Proof.Machine

/-- A tower's controllers run: neither fenced, switched off nor in a TOWER reset, whose stacks are in self-refresh (R319). -/
def State.hbmRuns (s : State) (t : Nat) : Bool := (s.tower t).on && (s.tower t).fence = 0 && !(s.tower t).inTower

/-- Present time of a tower in CORE cycles: six to a stamp (R38, R41). -/
def State.coreNow (s : State) (t : Nat) : Nat := 6 * s.stamp t

/-- A class-7 access is urgent while its deadline lies no more than the horizon ahead (R314). -/
def State.urgent (s : State) (t deadline : Nat) : Bool :=
  decide (deadline ≤ s.coreNow t + 64 * max 1 (s.fget hbmRegCtlHorizon t))

/-- The counts of a class-7 access: served at level 1 when urgent and not demoted, and late past its deadline (R313, R314). -/
def State.countDeadline (s : State) (t stack : Nat) (a : HbmOp) : State :=
  if a.cls.val = 7 then
    let s1 := if s.urgent t a.deadline && !SMap.get false (s.tower t).demoted (stack * 8 + 7) then s.bump hbmDlMissUrgent 1 t 0 stack else s
    if a.deadline < s.coreNow t then s1.bump hbmDlMissLate 1 t 0 stack else s1
  else s

/-- HBM_ACCESS (R308): a read's bytes leave for its requester; a write enters the write queue. -/
def execHbmAccess (t : Fin 4) (a : HbmOp) (s : State) : Out :=
  if !s.hbmRuns t then .next s
  else
    let s1 := s.countDeadline t (hbmPlace (a.unit.val * 32)).stack a
    match a.wr with
    | some d => .next (s1.hbmWriteC t a.unit a.cls d)
    | none =>
      let (bs, s2) := s1.hbmReadC t a.unit a.cls
      .next (s2.emit (.hbmRead t a.unit bs))

/-- HBM_REFRESH (R313): a refresh keeps every stored bit and delays other accesses, which is all it does (DEDUCED, log entry 50). -/
def execHbmRefresh (_t : Fin 4) (_stack : Fin 8) (_pc : Fin 64) (_bank : Nat) (s : State) : Out := .next s

/-- WRITE_QUEUE_DRAIN (R315): a burst of at most 16 writes, once the queue holds 48. -/
def execWriteQueueDrain (t : Fin 4) (stack : Fin 8) (pc : Fin 64) (s : State) : Out :=
  if s.hbmRuns t ∧ 48 ≤ (SMap.get [] s.mem.wq (pcKey t stack pc)).length then .next (s.drainWrites 16 t stack pc) else .next s

/-! ## Patrol (R309) -/

/-- Granules of a pseudo-channel. -/
def pcGranules : Nat := 4194304

/-- Patrol reads one unit: it is rewritten when it was corrected, or with its poison flag when it is uncorrectable. -/
def State.patrolUnit (s : State) (t un : Nat) : Bool × State :=
  let (r, p, s1) := s.unitFetch t un 2
  if r.bad then (true, s1.unitStore t un r.data true) else if r.corrected then (true, s1.unitStore t un r.data p) else (false, s1)

/-- The eight units of a granule; a rewrite moves the granule back. -/
def State.patrolGranule (s : State) (t stack pc g : Nat) : State :=
  let gn := hbmGranule stack pc g
  let r := (List.range 8).foldl (fun (a : Bool × State) i =>
    let (f, s1) := a.2.patrolUnit t (gn * 8 + i)
    (a.1 || f, s1)) (false, s)
  r.2.account t stack 0 (if r.1 then 512 else 256)

/-- The lap of a stack ends when every pointer has wrapped; those of failed channels count as wrapped (R309, R310). -/
def State.patrolLap (s : State) (t stack : Nat) : State :=
  let w := s.tower t
  let pos (pc : Nat) : Nat := SMap.get 0 w.patrolPtr (stack * 64 + pc)
  let live := (List.range 64).filter fun pc => !s.chanFailed t stack (pc / 2)
  if live.isEmpty ∨ live.any fun pc => pos pc < pcGranules then s
  else
    let now := s.stamp t
    let took := now - SMap.get 0 w.patrolStart stack
    let s1 := s.modTower t fun w =>
      { w with patrolStart := SMap.put 0 w.patrolStart stack now
               patrolPtr := live.foldl (fun m pc => SMap.put 0 m (stack * 64 + pc) (pos pc - pcGranules)) w.patrolPtr }
    let s2 := (s1.bump hbmPatrolLapLaps 1 t 0 stack).fset hbmPatrolLapLapMs (min (2 ^ 32 - 1) (took / 200000)) t 0 stack
    if max 1 (s2.fget hbmRegCtlLapLimitS t) * 200000000 < took then (s2.fset hbmStatusPatrolSlow 1 t 0 stack).logEvent 0x0025 1 t [1, stack]
    else s2

/-- PATROL_READ (R309): one granule at the pseudo-channel's pointer, which advances. (DEDUCED, log entry 78.) -/
def execPatrolRead (t : Fin 4) (stack : Fin 8) (pc : Fin 64) (s : State) : Out :=
  if !s.hbmRuns t ∨ (s.tower t).patrolPaused.contains stack.val ∨ s.chanFailed t stack (pc / 2) then .next s
  else
    let k := stack.val * 64 + pc.val
    let v := SMap.get 0 (s.tower t).patrolPtr k
    let s1 := s.patrolGranule t stack pc (v % pcGranules)
    let s2 := s1.modTower t fun w => { w with patrolPtr := SMap.put 0 w.patrolPtr k (if v + 1 < 2 * pcGranules then v + 1 else pcGranules) }
    .next (s2.patrolLap t stack)

/-! ## Temperatures and windows -/

/-- HBM_TEMP_READ (R302): every stack's temperature, in °C; at 85 °C or more its refresh interval is halved. -/
def execHbmTempRead (t : Fin 4) (temps : List Nat) (s : State) : Out :=
  if !s.hbmRuns t then .next s
  else .next (((List.range 8).zip temps).foldl (fun s e =>
    (s.fset hbmStatusTemp (min 255 e.2) t 0 e.1).fset hbmStatusHot (nb (decide (85 ≤ e.2))) t 0 e.1) s)

/-- REGULATION_WINDOW (R312, R318): counts restart, demotions end, and the regulation record commits. -/
def execRegulationWindow (t : Fin 4) (s : State) : Out :=
  let s1 := s.modTower t fun w => { w with clsBytes := [], demoted := [] }
  if s1.commitPending .hbmCommit t 0 then .next ((s1.commitDone .hbmCommit t 0).arrived (.hbm t)) else .next s1

end Sys2Proof.Machine
end

