-- ==== Sys2Proof/Machine/Ports.lean ====
section
/-! DEFINITION. Falnas ports (R320-R337, R340, R344-R346): flits, credits, replay, the packets of received flits and their
routing, retraining, qualification, PORT_INFO and the stamp exchange. -/

namespace Sys2Proof.Machine

/-! ## Flits (Table 11-1) -/

/-- The fields of a flit. -/
structure Flit where
  start : Nat
  crVc : Nat
  crSlots : Nat
  ack : Option (BitVec 8)
  seq : Nat
  ftype : Nat
  body : List Byte
  cr2Vc : Nat
  cr2Slots : Nat
  deriving DecidableEq, Repr

/-- The 256 bytes of a flit. -/
def Flit.bytes (f : Flit) : List Byte :=
  let h := f.start % 32768 * 2 ^ 49 + f.crVc % 8 * 2 ^ 46 + f.crSlots % 16384 * 2 ^ 32 +
    (match f.ack with | some a => a.toNat * 2 ^ 24 + 2 ^ 23 | none => 0) + f.seq % 256 * 2 ^ 8 + f.ftype % 4
  let b := leBytes 8 h ++ f.body ++ leBytes 4 (f.cr2Vc % 8 * 2 ^ 29 + f.cr2Slots % 16384 * 2 ^ 15)
  b ++ leBytes 4 (crc32c b)

/-- The body of a CTRL flit: its subtype in byte 0, and bytes at places. -/
def ctrlBody (sub : Nat) (fs : List (Nat × List Byte)) : List Byte :=
  (List.range 240).map fun i =>
    if i = 0 then BitVec.ofNat 8 sub
    else (fs.findSome? fun f => if f.1 ≤ i ∧ i < f.1 + f.2.length then f.2[i - f.1]? else none).getD 0#8

def nakBody (seq : BitVec 8) : List Byte := ctrlBody 1 [(1, [seq])]

/-- The flit that bytes hold; none for a bad one: a wrong crc, type 3, a reserved field that is not zero, or a CTRL subtype
that is not listed (R323, Table 11-6). -/
def flitOf (bs : List Byte) : Option Flit :=
  let h := BitVec.ofNat 64 (leNat (bs.take 8))
  let z := BitVec.ofNat 64 (leNat ((bs.drop 248).take 4))
  let body := (bs.drop 8).take 240
  let sub := leNat (body.take 1)
  if bs.length ≠ 256 ∨ crc32c (bs.take 252) ≠ leNat (bs.drop 252) ∨ fld h 1 0 = 3 ∨ fld h 22 16 ≠ 0 ∨ fld h 7 2 ≠ 0 ∨ fld z 14 0 ≠ 0 then none
  else if fld h 1 0 = 2 ∧ (sub = 0 ∨ 4 < sub) then none
  else some
    { start := fld h 63 49, crVc := fld h 48 46, crSlots := fld h 45 32
      ack := if bit h 23 then some (BitVec.ofNat 8 (fld h 31 24)) else none
      seq := fld h 15 8, ftype := fld h 1 0, body := body, cr2Vc := fld z 31 29, cr2Slots := fld z 28 15 }

/-! ## States of a port -/

/-- A port changes its state. -/
def State.portMode (s : State) (t p : Nat) (m : PortMode) : State :=
  if (s.port t p).mode = m then s
  else (s.modPort t p fun x => { x with mode := m }).fset lnkPortStatusEvent 1 t 0 p

/-- The lowest failed lane pair of a port, 0 where none is known. -/
def Port.lane (x : Port) : Nat := ((List.range 8).find? fun i => x.badLanes.getLsbD i).getD 0

/-- A port stops carrying packets (R340): every unanswered request sent through it completes with FAULT_LINK; packets that
wait in it, its replay and what it knew of its peer are lost. (DEDUCED, log entry 84.) -/
def State.portClose (s : State) (t p : Nat) (m : PortMode) : State :=
  let k := portKey t p
  let s1 : State := { s with reqs := s.reqs.map fun (r : Req) => if r.stage = .sent k then { r with stage := .done, status := stFaultLink } else r }
  let s2 := (s1.modMod fun m => { m with transit := m.transit.filter fun f => f.port ≠ k }).portMode t p m
  s2.modPort t p fun x =>
    { x with replay := [], resend := [], txq := [], partialTx := [], partialRx := [], ctrlq := [], peer := none, syncT1 := none, naking := false }

/-- A port goes down: a health event names the lane pair (R346). -/
def State.portFail (s : State) (t p : Nat) : State :=
  let s3 := s.portClose t p .down
  (s3.logEvent 0x0023 1 t [p, 2 + (s3.port t p).lane * 2 ^ 8]).trigger 2

/-- Retrainings that a port may make in a row. -/
def State.retrainLimit (s : State) (t : Nat) : Nat := max 1 (s.fget lnkCfgRetrainLimit t)

/-- A port retrains its PCS (R329): replay and credits stay; past the limit the port is down. -/
def State.retrain (s : State) (t p : Nat) : State :=
  let x := s.port t p
  if s.retrainLimit t ≤ x.retrains then s.portFail t p
  else (s.modPort t p fun x =>
    { x with retrains := x.retrains + 1, window := 100, replay := x.replay.map fun e => (e.1, e.2.1, 0), resend := [] }).portMode t p .training

/-- PORT_RETRAIN: a flit has been sent 8 times without acknowledgement. -/
def execPortRetrain (l : PortRef) (s : State) : Out :=
  let x := s.port l.t l.p
  .next (if x.mode = .up ∧ x.replay.any fun e => 8 ≤ e.2.2 then s.retrain l.t l.p else s)

/-- PORT_DOWN. (DEDUCED, log entry 82.) -/
def execPortDown (l : PortRef) (s : State) : Out :=
  let m := (s.port l.t l.p).mode
  .next (if m = .training ∨ m = .qualifying ∨ m = .up then s.portFail l.t l.p else s)

/-- A NAK of the expected flit is queued. -/
def State.queueNak (s : State) (t p : Nat) : State :=
  s.modPort t p fun x => { x with ctrlq := x.ctrlq ++ [nakBody x.expect], naking := true }

/-- LINK_TRAINING_COMPLETE (R329, R422): the qualification window begins; after a retraining the replay resumes by NAKs. -/
def execLinkTrainingComplete (l : PortRef) (s : State) : Out :=
  if (s.port l.t l.p).mode ≠ .training then .next s
  else
    let s1 := s.portMode l.t l.p .qualifying
    .next (if (s.port l.t l.p).window = 100 then s1.queueNak l.t l.p
      else s1.modPort l.t l.p fun x => { x with window := 2000 })

/-- Does a mask of lane pairs touch a half? -/
def lowHalf (m : BitVec 8) : Bool := m &&& 0x0F#8 != 0#8
def highHalf (m : BitVec 8) : Bool := m &&& 0xF0#8 != 0#8

/-- PORT_QUALIFY (R345): a lane pair that fails its second window has failed; a clean window qualifies the port, at half width
on the half without a failed lane. (DEDUCED, log entry 81.) -/
def execPortQualify (l : PortRef) (badLanes : BitVec 8) (uncorr : Bool) (s : State) : Out :=
  let x := s.port l.t l.p
  if x.mode ≠ .qualifying then .next s
  else
    let now := badLanes &&& ~~~x.badLanes
    let failed := x.badLanes ||| (now &&& x.failedOnce)
    let s1 := s.modPort l.t l.p fun x => { x with badLanes := failed, failedOnce := x.failedOnce ||| now }
    if lowHalf failed && highHalf failed then .next (s1.portFail l.t l.p)
    else
      let clean_ := now &&& ~~~failed = 0#8 && !uncorr
      if !clean_ then .next s1
      else
        let half := failed != 0#8
        let s2 := (s1.modPort l.t l.p fun x => { x with half := half, halfHigh := lowHalf failed, failedOnce := 0#8 }).portMode l.t l.p .up
        .next (if half && !x.half then (s2.logEvent 0x0023 1 l.t [l.p, 1 + (s2.port l.t l.p).lane * 2 ^ 8]).trigger 2 else s2)

/-- LANE_MONITOR_WINDOW (R346): the worst lane's error ratio is shown; a bad lane or more than 10 uncorrectable codewords make
the port retrain. -/
def execLaneMonitorWindow (l : PortRef) (badLanes : BitVec 8) (uncorr berExp : Nat) (s : State) : Out :=
  if (s.port l.t l.p).mode ≠ .up then .next s
  else
    let s1 := s.fset lnkPortStatusBerExp (min 255 berExp) l.t 0 l.p
    .next (if badLanes ≠ 0#8 ∨ 10 < uncorr then s1.retrain l.t l.p else s1)

/-! ## Sending (R324, R325, R327) -/

/-- Slots leave the receive buffer of a channel. -/
def State.freeSlots (s : State) (t p vc n : Nat) : State :=
  s.modPort t p fun x => { x with freed := SMap.put 0 x.freed vc ((SMap.get 0 x.freed vc + n) % 16384) }

/-- The two credit totals of the next flit: channels changed since they were last sent, in rotation; then the next ones. (DEDUCED, log entry 80.) -/
def Port.totals (x : Port) : List Nat :=
  let order := (List.range 8).map fun i => (x.crNext + i) % 8
  let changed := order.filter fun v => SMap.get 0 x.freed v ≠ SMap.get 0 x.crSent v
  (changed ++ order.filter fun v => !changed.contains v).take 2

/-- The channel whose first packet goes next: VC1, then round robin, skipping channels without credits; before a port has
qualified only MNT goes. -/
def Port.nextVc (x : Port) : Option (Nat × LinkPkt) :=
  let order := 1 :: ((List.range 8).map fun i => (x.rrVc + i) % 8).filter (· ≠ 1)
  order.findSome? fun v =>
    match SMap.get [] x.txq v with
    | [] => none
    | p :: _ => if p.slots.length + 1 ≤ x.credit v ∧ (x.mode = .up ∨ p.op = opMNT) then some (v, p) else none

/-- Fill up to n slots of a DATA flit: start bits, slots, the port after it, and the packets started, with their channels. -/
def Port.fill : Nat → Nat → Port → Nat × List (BitVec 128) × Port × List (Nat × LinkPkt)
  | 0, _, x => (0, [], x, [])
  | n + 1, i, x =>
    match x.partialTx with
    | w :: ws =>
      let (st, sl, y, ps) := Port.fill n (i + 1) { x with partialTx := ws }
      (st, w :: sl, y, ps)
    | [] =>
      match x.nextVc with
      | none => (0, [], x, [])
      | some (v, p) =>
        let x1 := { x with
          txq := SMap.put [] x.txq v ((SMap.get [] x.txq v).drop 1), partialTx := p.slots
          sent := SMap.put 0 x.sent v ((SMap.get 0 x.sent v + p.slots.length + 1) % 16384), rrVc := if v = 1 then x.rrVc else (v + 1) % 8 }
        let (st, sl, y, ps) := Port.fill n (i + 1) x1
        (2 ^ i + st, p.all.headD 0#128 :: sl, y, (v, p) :: ps)

/-- The data slots of a packet as a check-value context takes them, padding included (R447). (DEDUCED, log entry 86.) -/
def tapData (p : LinkPkt) : List (BitVec 9) :=
  let k := cdiv p.count 16
  if p.op = opWR then slotData p.addr (16 * k) p.poison p.slots
  else if p.op = opWRM then slotData 0 128 p.poison (p.slots.drop 1)
  else if p.op = opRDR ∧ p.status = 0 then slotData 0 (16 * k) p.poison p.slots
  else if p.op = opCFL then slotData 0 (16 * (p.slots.length - 1)) false (p.slots.drop 1)
  else []

/-- Check-value contexts take the data of packets (R447): kind 2 transmit, 3 receive. -/
def State.tapPkts (s : State) (t p kind : Nat) (ps : List (Nat × LinkPkt)) : State :=
  ps.foldl (fun s e =>
    let d := tapData e.2
    if d.isEmpty then s else s.cvuPort t p kind e.1 (if kind = 2 then e.2.dst else e.2.src) d) s

/-- A flit with the port's ack and credit totals leaves. -/
def State.sendFlit (s : State) (t p start seq ftype : Nat) (body : List Byte) : State :=
  let x := s.port t p
  let cs := x.totals
  let total (i : Nat) : Nat := SMap.get 0 x.freed (cs.getD i 0)
  let f : Flit :=
    { start := start, crVc := cs.getD 0 0, crSlots := total 0, ack := x.ackOut, seq := seq, ftype := ftype, body := body
      cr2Vc := cs.getD 1 0, cr2Slots := total 1 }
  (s.modPort t p fun x =>
    { x with crNext := (cs.getD 1 0 + 1) % 8
             crSent := SMap.put 0 (SMap.put 0 x.crSent (cs.getD 0 0) (total 0)) (cs.getD 1 0) (total 1) }).emit (.flit (portKey t p) f.bytes)

def idleBody : List Byte := List.replicate 240 0#8

/-- FLIT_TRANSMIT (R324-R327): a flit asked for again; else a CTRL flit; else new DATA while fewer than 64 flits are
unacknowledged; else IDLE. A flit sent 8 times waits for the retraining. (DEDUCED, log entry 79.) -/
def execFlitTransmit (l : PortRef) (s : State) : Out :=
  let x := s.port l.t l.p
  if x.mode ≠ .up ∧ x.mode ≠ .qualifying then .next s
  else
    let again : Option (BitVec 8 × List Byte × Nat) := match x.resend with
      | q :: _ => if x.mode = .up then x.replay.find? fun e => e.1 = q && decide (e.2.2 < 8) else none
      | [] => none
    match again with
    | some e =>
      let s1 := s.modPort l.t l.p fun x =>
        { x with resend := x.resend.drop 1, replay := x.replay.map fun r => if r.1 = e.1 then (r.1, r.2.1, r.2.2 + 1) else r }
      .next (s1.sendFlit l.t l.p (leNat (e.2.1.take 2)) e.1.toNat 1 (e.2.1.drop 2))
    | none =>
      match x.ctrlq with
      | b :: bs => .next ((s.modPort l.t l.p fun x => { x with ctrlq := bs }).sendFlit l.t l.p 0 0 2 b)
      | [] =>
        let (st, sl, y, ps) := x.fill 15 0
        if 64 ≤ x.replay.length ∨ sl.isEmpty ∨ x.resend ≠ [] then .next (s.sendFlit l.t l.p 0 0 0 idleBody)
        else
          let body := (slotBytes sl ++ idleBody).take 240
          let s1 := s.modPort l.t l.p fun _ => { y with nextSeq := x.nextSeq + 1, replay := x.replay ++ [(x.nextSeq, leBytes 2 st ++ body, 1)] }
          .next ((s1.tapPkts l.t l.p 2 ps).sendFlit l.t l.p st x.nextSeq.toNat 1 body)

/-! ## Arriving packets (R333-R337, R347) -/

/-- An error answer to a packet that is dropped: none for responses, and none to a source that has no route. -/
def State.dropAnswer (s : State) (rq : LinkPkt) (status : Nat) : State :=
  match replyOp rq.op with
  | none => s
  | some op =>
    if rq.op = opMNT then s
    else
      match s.sendPkt ⟨mkHdr op s.selfId rq.src rq.agent rq.tag, mkRspW rq.count status 0 false,
          if op = opAMR then [0#128] else []⟩ with
      | (some _, s1) => s1
      | (none, _) => s

/-- A packet is dropped and counted, and its slots are free again. -/
def State.dropPkt (s : State) (l : PortRef) (vc n : Nat) : State := (s.dropped l.t l.p).freeSlots l.t l.p vc n

/-- The port of a packet in transit: its flow's, else the one with the most credits (R335, R336). (DEDUCED, log entry 83.) -/
def State.transitPort (s : State) (p : LinkPkt) (vc : Nat) : Option (Bool × Nat × Nat) :=
  let ps := s.routePorts p.dst
  let base := vcOf p.op false
  let kept := if isReply p.op then none else
    (s.mod.transit.find? fun f => f.src = p.src && f.agent = p.agent && f.dst = p.dst && f.vc = base).bind fun f =>
      ps.find? fun e => portKey e.2.1 e.2.2 = f.port
  match kept with
  | some e => some e
  | none => s.bestPort vc ps

/-- A packet passes through: hops advance, and a dateline port moves a memory request to VC7 (R336, R337). -/
def State.pass (s : State) (l : PortRef) (vc : Nat) (p : LinkPkt) : State :=
  match s.transitPort p vc with
  | none => (s.dropPkt l vc (p.slots.length + 1)).dropAnswer p stFaultLink
  | some (late, t, k) =>
    let q : LinkPkt := { p with w0 := setFld p.w0 63 60 (p.hops + 1) }
    let s1 := (s.enqueue t k (if late && vc = 0 then 7 else vc) q).freeSlots l.t l.p vc (p.slots.length + 1)
    if isReply p.op then
      s1.modMod fun m => { m with transit := m.transit.eraseP fun f => f.src = p.dst && f.dst = p.src && f.agent = p.agent && f.tag = p.tag }
    else if (replyOp p.op).isSome then
      s1.modMod fun m => { m with transit := m.transit ++ [⟨p.src, p.agent, p.dst, vcOf p.op false, p.tag, portKey t k⟩] }
    else s1

/-- A whole packet has arrived on a channel: dropped, passed on, or kept for its own module. MNT and MNR stay between
neighbours. -/
def State.accept (s : State) (l : PortRef) (vc : Nat) (p : LinkPkt) : State :=
  let n := p.slots.length + 1
  let near := p.op = opMNT || p.op = opMNR
  if s.mod.moduleId.isNone && !near then s.dropPkt l vc n
  else if near || p.dst = s.selfId then
    if pktOk p then (s.tapPkts l.t l.p 3 [(vc, p)]).modPort l.t l.p fun x => { x with rxq := x.rxq ++ [(vc, p)] }
    else (s.dropPkt l vc n).dropAnswer p stBadLength
  else if p.hops = 15 then (s.dropPkt l vc n).dropAnswer p stFaultLink
  else if !pktOk p then (s.dropPkt l vc n).dropAnswer p stBadLength
  else (s.tapPkts l.t l.p 3 [(vc, p)]).pass l vc p

/-- The channel a packet arrived on. A flit does not tell VC0 from VC7 for a memory request: a free choice (DESIGN CHOICE, log entry 51). -/
def State.arrivalVc (s : State) (p : LinkPkt) : Nat × State :=
  if p.op ≤ 4 ∧ s.freeB then (7, s.drawn 1) else (vcOf p.op false, if p.op ≤ 4 then s.drawn 1 else s)

/-- What a run of slots gave: the slots of an unfinished packet, and the packets that ended, each whole or broken off. -/
abbrev RxAcc := List (BitVec 128) × List (Bool × LinkPkt)

/-- One slot of a DATA flit. -/
def rxSlot (a : RxAcc) (start : Bool) (w : BitVec 128) : RxAcc :=
  let cut := if start && !a.1.isEmpty then a.2 ++ [(false, pktOf a.1)] else a.2
  if !start && a.1.isEmpty then a
  else
    let cur := if start then [w] else a.1 ++ [w]
    match pktLen cur with
    | some n => if n ≤ cur.length then ([], cut ++ [(true, pktOf cur)]) else (cur, cut)
    | none => (cur, cut)

/-- The slots of a DATA flit arrive. -/
def State.rxData (s : State) (l : PortRef) (f : Flit) : State :=
  let slots := bytesSlots 15 f.body
  let a : RxAcc := slots.zipIdx.foldl (fun a e => rxSlot a (f.start / 2 ^ e.2 % 2 = 1) e.1) ((s.port l.t l.p).partialRx, [])
  let s1 := s.modPort l.t l.p fun x => { x with partialRx := a.1 }
  a.2.foldl (fun s e =>
    let (vc, s2) := s.arrivalVc e.2
    if e.1 then s2.accept l vc e.2 else (s2.dropPkt l vc (e.2.slots.length + 1)).dropAnswer e.2 stBadLength) s1

/-! ## Acks, NAKs and credits (R324, R325, R327) -/

/-- An ack covers the flits up to its number. -/
def Port.acked (x : Port) (a : BitVec 8) : Port :=
  if x.replay.any fun e => e.1 = a then
    let rest := (x.replay.dropWhile fun e => e.1 ≠ a).drop 1
    { x with replay := rest, resend := x.resend.filter (fun q => rest.any fun e => e.1 = q), retrains := 0 }
  else x

/-- A NAK: the flits from the named one onward are sent again. -/
def State.takeNak (s : State) (t p : Nat) (seq : BitVec 8) : State :=
  let from_ := ((s.port t p).replay.dropWhile fun e => e.1 ≠ seq).map fun e => e.1
  if from_.isEmpty then s
  else (s.modPort t p fun x => { x with resend := from_ }).bump lnkErrCntReplays 1 t 0 p

/-- NAK (R327). -/
def execNak (l : PortRef) (seq : BitVec 8) (s : State) : Out :=
  let m := (s.port l.t l.p).mode
  .next (if m = .up ∨ m = .qualifying then s.takeNak l.t l.p seq else s)

/-- NAK_REPEAT (R327). -/
def execNakRepeat (l : PortRef) (s : State) : Out :=
  .next (if (s.port l.t l.p).naking then s.queueNak l.t l.p else s)

/-! ## PORT_INFO and the stamp root (R43, R344) -/

/-- A candidate for the stamp root: designated ones first, then the lower module ID. -/
structure RootCand where
  des : Bool
  id : Nat
  hops : Nat
  port : Option Nat
  deriving DecidableEq, Repr

def RootCand.better (a b : RootCand) : Bool :=
  if a.des != b.des then a.des
  else if a.id ≠ b.id then decide (a.id < b.id) else decide (a.hops < b.hops)

/-- The candidates that a module knows: itself once it has an ID, and what its neighbours report. (DEDUCED, log entry 88.) -/
def State.rootCands (s : State) : List RootCand :=
  let self := match s.mod.moduleId with
    | some m => [⟨s.flag lnkCfgStampRoot s.mod.lead, m.toNat, 0, none⟩]
    | none => []
  self ++ (List.range 32).filterMap fun k =>
    match (s.port (k / 8) (k % 8)).mode, (s.port (k / 8) (k % 8)).peer with
    | .up, some b => if b.root = 0xFFFF#16 then none
        else some ⟨b.root.getLsbD 15, b.root.toNat % 4096, b.hops.toNat + 1, some k⟩
    | _, _ => none

/-- The root and the parent follow from what is known. -/
def State.electRoot (s : State) : State :=
  let best := s.rootCands.foldl (fun (b : Option RootCand) c =>
    match b with | none => some c | some x => if c.better x then some c else b) none
  s.modMod fun m => match best with
    | none => { m with rootId := none, isRoot := false, parent := none }
    | some c => { m with rootId := some (BitVec.ofNat 12 c.id), rootDes := c.des, rootHops := c.hops, isRoot := c.port.isNone, parent := c.port }

/-- The body of this module's PORT_INFO on a port. (DEDUCED, log entry 27.) -/
def State.infoBody (s : State) (t p : Nat) : List Byte :=
  let m := s.mod
  let id := match m.moduleId with | some x => x.toNat | none => 0xFFFF
  let root := match m.rootId with | some r => r.toNat + (if m.rootDes then 2 ^ 15 else 0) | none => 0xFFFF
  ctrlBody 4 [(8, leBytes 2 id ++ leBytes 1 (t * 8 + p) ++
    leBytes 1 (nb m.isRoot + 2 * nb (s.flag lnkCfgStampRoot m.lead)) ++ leBytes 1 (if m.isRoot then 0 else m.rootHops) ++ leBytes 2 root)]

/-- What a PORT_INFO body says. -/
def infoOf (b : List Byte) : PortInfoBody :=
  let at_ (o n : Nat) : Nat := leNat ((b.drop o).take n)
  ⟨BitVec.ofNat 16 (at_ 8 2), BitVec.ofNat 8 (at_ 10 1), BitVec.ofNat 8 (at_ 11 1), BitVec.ofNat 8 (at_ 12 1), BitVec.ofNat 16 (at_ 13 2)⟩

/-- A port that carries flits. -/
def Port.live (x : Port) : Bool := x.mode = .up || x.mode = .qualifying

/-- PORT_INFO (R344): sent, or received. -/
def State.portInfo (s : State) (t p : Nat) (recv : Option PortInfoBody) : State :=
  match recv with
  | none => s.modPort t p fun x => { x with ctrlq := x.ctrlq ++ [s.infoBody t p] }
  | some b => (s.modPort t p fun x => { x with peer := some b }).electRoot

def execPortInfo (l : PortRef) (recv : Option PortInfoBody) (s : State) : Out :=
  .next (if (s.port l.t l.p).live then s.portInfo l.t l.p recv else s)

/-! ## The stamp exchange (R42-R44, R344) -/

/-- The present time with its 16-bit fraction. -/
def State.syncNow (s : State) (t : Nat) : SyncStamp :=
  BitVec.ofNat 80 (s.stamp t * 2 ^ 16 + (s.tower t).frac.toNat / 2 ^ 16)

/-- SYNC_REQ: sent by a child to its parent, or answered by the parent with its own two times. -/
def State.syncReq (s : State) (t p : Nat) (recv : Option SyncStamp) : State :=
  let now := s.syncNow t
  match recv with
  | none =>
    if s.mod.parent = some (portKey t p) then
      s.modPort t p fun x => { x with ctrlq := x.ctrlq ++ [ctrlBody 2 [(8, leBytes 10 now.toNat)]], syncT1 := some now }
    else s
  | some t1 => s.modPort t p fun x =>
      { x with ctrlq := x.ctrlq ++ [ctrlBody 3 [(8, leBytes 10 t1.toNat ++ leBytes 10 now.toNat ++ leBytes 10 now.toNat)]] }

def execSyncReq (l : PortRef) (recv : Option SyncStamp) (s : State) : Out :=
  .next (if (s.port l.t l.p).live then s.syncReq l.t l.p recv else s)

/-- ±100 ppm as a rate in 2⁻³² counts per cycle. -/
def rateLimit : Nat := 429496

/-- A rate that removes an offset: in its direction, of a free size within ±100 ppm (R43, R44; DESIGN CHOICE, log entry 52). -/
def State.steerFor (s : State) (offset : Int) : Int :=
  if offset = 0 then 0 else if 0 < offset then (s.free1 % (rateLimit + 1) : Nat) else -((s.free1 % (rateLimit + 1) : Nat) : Int)

/-- Every tower's stamp is stepped by an offset in 2⁻¹⁶ counts (R44). -/
def State.stepStamps (s : State) (offset : Int) : State :=
  (List.range 4).foldl (fun s t => s.modTower t fun w =>
    let v : Int := (w.stamp.toNat : Int) * 2 ^ 32 + w.frac.toNat + offset * 2 ^ 16
    { w with stamp := BitVec.ofInt 64 (v / 2 ^ 32), frac := BitVec.ofInt 32 (v % 2 ^ 32) }) s

/-- SYNC_RSP: the child's offset from its parent; before READY the stamp is stepped once, after it the rate is steered. (DEDUCED, log entry 87.) -/
def State.syncRsp (s : State) (t p : Nat) (t1 t2 t3 t4 : SyncStamp) : State :=
  if s.mod.parent ≠ some (portKey t p) ∨ (s.port t p).syncT1 ≠ some t1 then s
  else
    let d : Int := ((t2.toNat : Int) - t1.toNat) - ((t4.toNat : Int) - t3.toNat)
    let off := d / 2
    let ns := off * 5 / 65536
    let s1 := (s.modPort t p fun x => { x with syncT1 := none }).modMod fun m =>
      { m with offsetNs := max (-32768) (min 32767 ns), synced := decide (-50 ≤ ns ∧ ns ≤ 50) }
    if !s1.mod.ready && !s1.mod.stepped then
      (s1.stepStamps off).modMod fun m => { m with stepped := true, offsetNs := 0, synced := true }
    else
      let r := s1.steerFor off
      ((List.range 4).foldl (fun s t => s.modTower t fun w => { w with rate := r }) s1).drawn 1

def execSyncRsp (l : PortRef) (t1 t2 t3 t4 : SyncStamp) (s : State) : Out :=
  .next (if (s.port l.t l.p).live then s.syncRsp l.t l.p t1 t2 t3 t4 else s)

/-- A CTRL flit's body. -/
def State.rxCtrl (s : State) (l : PortRef) (b : List Byte) : State :=
  let at_ (o n : Nat) : Nat := leNat ((b.drop o).take n)
  match at_ 0 1 with
  | 1 => s.takeNak l.t l.p (BitVec.ofNat 8 (at_ 1 1))
  | 2 => s.syncReq l.t l.p (some (BitVec.ofNat 80 (at_ 8 10)))
  | 3 => s.syncRsp l.t l.p (BitVec.ofNat 80 (at_ 8 10)) (BitVec.ofNat 80 (at_ 18 10)) (BitVec.ofNat 80 (at_ 28 10)) (s.syncNow l.t)
  | _ => s.portInfo l.t l.p (some (infoOf b))

/-! ## Receiving (R323-R327) -/

/-- FLIT_RECEIVE: a bad flit, or a DATA flit out of order, is discarded and a NAK asks for the expected one; else its ack and
credits count, and its body is taken. -/
def execFlitReceive (l : PortRef) (flit : List Byte) (fecBad : Bool) (s : State) : Out :=
  let x := s.port l.t l.p
  if !x.live then .next s
  else
    let s0 := if fecBad then s.bump lnkErrCntFecUncorr 1 l.t 0 l.p else s
    match (if fecBad then none else flitOf flit) with
    | none =>
      let s1 := s0.bump lnkErrCntBadFlits 1 l.t 0 l.p
      .next (if x.naking then s1 else s1.queueNak l.t l.p)
    | some f =>
      let s1 := s0.modPort l.t l.p fun x =>
        let y := match f.ack with | some a => x.acked a | none => x
        { y with returned := SMap.put 0 (SMap.put 0 y.returned f.crVc f.crSlots) f.cr2Vc f.cr2Slots }
      if f.ftype = 1 then
        if BitVec.ofNat 8 f.seq = x.expect then
          .next ((s1.modPort l.t l.p fun x => { x with expect := x.expect + 1, ackOut := some x.expect, naking := false }).rxData l f)
        else .next (if x.naking then s1 else s1.queueNak l.t l.p)
      else if f.ftype = 2 then .next (s1.rxCtrl l f.body)
      else .next s1

end Sys2Proof.Machine
end

