-- ==== Sys2Proof/Machine/LinkRows.lean ====
section
/-! DEFINITION. The packets of Table 11-4 at their destination (R331, R338-R343, R350, R352, R369), request timeouts (R340), and
the commit of the link record (R347). -/

namespace Sys2Proof.Machine

/-! ## Taking a packet from a port -/

/-- A packet waits in a port's receive buffer. -/
def State.inRx (s : State) (l : PortRef) (p : LinkPkt) : Bool := (s.port l.t l.p).rxq.any fun e => e.2 = p

/-- A packet leaves its receive buffer. -/
def State.takeRx (s : State) (l : PortRef) (p : LinkPkt) : State :=
  match (s.port l.t l.p).rxq.find? fun e => e.2 = p with
  | none => s
  | some e =>
    let s1 := s.modPort l.t l.p fun x => { x with rxq := x.rxq.eraseP fun y => y.2 = p }
    if e.1 < 8 then s1.freeSlots l.t l.p e.1 (p.slots.length + 1) else s1

/-- The packet of a row lies in the receive buffer, or arrives now on a port that carries its operation (R345). -/
def State.arriving (s : State) (l : PortRef) (p : LinkPkt) : State :=
  let m := (s.port l.t l.p).mode
  if s.inRx l p then s
  else if m = .up ∨ (m = .qualifying ∧ (p.op = opMNT ∨ p.op = opMNR)) then s.accept l (vcOf p.op false) p
  else s

/-- A row of Table 11-4: its packet, once it has arrived for this module, is taken and has its effect. -/
def State.linkRow (s : State) (l : PortRef) (p : LinkPkt) (op : Nat) (f : State → State) : Out :=
  if p.op ≠ op then .next s
  else
    let s1 := s.arriving l p
    .next (if s1.inRx l p then f (s1.takeRx l p) else s1)

/-! ## Memory requests (R338) -/

/-- The agent of a request that came over a link: the tower of its port, class 5, its port as the requester of R13. -/
def linkAgent (l : PortRef) (p : LinkPkt) : Agent :=
  ⟨l.t, 5, .link (portKey l.t l.p) p.src p.agent p.tag, 1, 0x3FF, 5000 + portKey l.t l.p⟩

/-- An address of a request lies in the MMIO window (R273). -/
def inMmio (a : Nat) : Bool := decide (0x1F0000000000 ≤ a)

/-- Some byte of a range has a home that a reset holds. -/
def State.someHeld (s : State) (rt : Nat) : Nat → Nat → Nat → Bool
  | 0, _, _ => false
  | f + 1, a, n =>
    if n = 0 then false
    else s.home rt (BitVec.ofNat 64 a) = .held || State.someHeld s rt f (a + (128 - a % 128)) (n - min n (128 - a % 128))

/-- A memory request is performed and answered; one whose home a reset holds waits until the home returns or the hold times
out (R19, R300). -/
def State.serve (s : State) (l : PortRef) (p : LinkPkt) (n : Nat) (op : ReqOp) (now : State → State) : State :=
  if inMmio p.addr then s.answer l p stBadAddress 0 false []
  else if s.someHeld l.t (n / 128 + 2) p.addr n then
    let g := linkAgent l p
    let r := s.mkReq p.addr op 5 g.owner l.t
    { s.newId with reqs := s.reqs ++ [{ r with held := some (s.stamp l.t) }] }
  else now s

/-- The answer to a write. -/
def State.ackWrite (l : PortRef) (p : LinkPkt) (w : Put) : State := w.s.answer l p w.st 0 false []

/-- RD. -/
def execRd (l : PortRef) (p : LinkPkt) (s : State) : Out :=
  s.linkRow l p opRD fun s => s.serve l p p.count (.load p.count) fun s =>
    let r := s.gread (linkAgent l p) (BitVec.ofNat 64 p.addr) p.count
    if r.st ≠ 0 then r.s.answer l p r.st 0 false []
    else
      let (bad, sl) := markedSlots p.addr r.data
      r.s.answer l p stOK 0 bad sl

/-- WR. -/
def execWr (l : PortRef) (p : LinkPkt) (s : State) : Out :=
  let bs := slotData p.addr p.count p.poison p.slots
  s.linkRow l p opWR fun s => s.serve l p p.count (.store (bs.map some)) fun s =>
    State.ackWrite l p (s.gwrite (linkAgent l p) (BitVec.ofNat 64 p.addr) bs)

/-- The bytes of a WRM under its mask slot. -/
def wrmBytes (p : LinkPkt) : List (Option (BitVec 9)) :=
  let m := p.slots.headD 0#128
  (slotData 0 128 p.poison (p.slots.drop 1)).zipIdx.map fun b => if m.getLsbD b.2 then some b.1 else none

/-- WRM. -/
def execWrm (l : PortRef) (p : LinkPkt) (s : State) : Out :=
  s.linkRow l p opWRM fun s => s.serve l p 128 (.store (wrmBytes p)) fun s =>
    State.ackWrite l p (s.gwriteM (linkAgent l p) (BitVec.ofNat 64 p.addr) (wrmBytes p))

/-- AMO: its control slot holds the operation and type of R196, its operand slot the operand and the compare value. -/
def execAmo (l : PortRef) (p : LinkPkt) (s : State) : Out :=
  let ctl := (p.slots.getD 0 0#128).toNat
  let arg := (p.slots.getD 1 0#128).toNat
  let op := ctl % 256
  let typ := ctl / 256 % 256
  let x := arg % 2 ^ 64
  let c := arg / 2 ^ 64
  s.linkRow l p opAMO fun s =>
    s.serve l p p.count (.atomic op typ p.count (BitVec.ofNat 64 x) (BitVec.ofNat 64 c)) fun s =>
      let r := s.amoAt (linkAgent l p) p.addr op typ p.count x c
      r.s.answer l p r.st 0 (r.st = 0 && r.data.any isBad) [if r.st = 0 then BitVec.ofNat 128 (leNat (r.data.map dataOf)) else 0#128]

/-! ## Responses (R340) -/

/-- A request of this module that waits for a reply: sent, with the reply's source, agent and tag. -/
def State.replyTo (s : State) (p : LinkPkt) : Option Req :=
  s.reqs.find? fun r =>
    (match r.stage with | .sent _ => true | _ => false) && agentOf r.owner r.tower = p.agent && r.id % 65536 = p.tag &&
    s.dstOf r.addr.toNat = some p.src

/-- A response completes its request; a late one is discarded and counted. -/
def State.response (s : State) (l : PortRef) (p : LinkPkt) (data : Req → List (BitVec 9)) : State :=
  match s.replyTo p with
  | none => s.dropped l.t l.p
  | some r => s.finishReq r.id p.status (if p.status = 0 then data r else [])

/-- RDR. -/
def execRdr (l : PortRef) (p : LinkPkt) (s : State) : Out :=
  s.linkRow l p opRDR fun s => s.response l p fun r => slotData (r.addr.toNat % 2 ^ 48) p.count p.poison p.slots

/-- ACK. -/
def execAck (l : PortRef) (p : LinkPkt) (s : State) : Out := s.linkRow l p opACK fun s => s.response l p fun _ => []

/-- AMR: the old value, every byte of it poisoned with the poison bit. -/
def execAmr (l : PortRef) (p : LinkPkt) (s : State) : Out :=
  s.linkRow l p opAMR fun s => s.response l p fun r =>
    let n := match r.op with | .atomic _ _ n _ _ => n | _ => 8
    (leBytes n (p.slots.headD 0#128).toNat).map fun b => if p.poison then clean b ||| 256#9 else clean b

/-- MNR: the answer of a neighbour's maintenance space. -/
def execMnr (l : PortRef) (p : LinkPkt) (s : State) : Out :=
  s.linkRow l p opMNR fun s => s.response l p fun _ => ((slotBytes p.slots).take p.count).map clean

/-! ## Remote commands (R360, R369) -/

/-- The wait of a REMOTE with the wait flag for the status replies of its packets. -/
def waitCmp : Nat := 1072

/-- The packets that a list of 64-byte entries holds, with the index of the entry that each begins at. -/
def splitPackets : Nat → Nat → List W64 → List (Nat × Packet)
  | 0, _, _ => []
  | f + 1, i, ws =>
    if ws.isEmpty then []
    else
      let n := fld (ws.headD 0#64) 19 16 + 1
      (i, ws.take (8 * n)) :: splitPackets f (i + n) (ws.drop (8 * n))

/-- The 32 bytes of a completion entry with a phase bit (Table 12-2). -/
def Compl.bytes (c : Compl) (phase : Nat) : List Byte :=
  leBytes 2 c.tag ++ leBytes 2 (c.status % 2 ^ 15 + phase * 2 ^ 15) ++ leBytes 4 c.clamp ++ leBytes 8 c.start ++ leBytes 8 c.end_ ++
    leBytes 4 (min c.energy (2 ^ 32 - 1)) ++ leBytes 4 c.detail

/-- A status reply leaves for the module that sent a packet (CMP, Table 11-4). -/
def State.sendCmp (s : State) (r : Reply) (c : Compl) : State :=
  (s.sendPkt ⟨mkHdr opCMP s.selfId r.src r.agent r.tag, mkRspW 32 c.status 0 false, bytesSlots 2 (c.bytes 0)⟩).2

/-- A status reply comes back: the next packet of the REMOTE with its tag has completed. -/
def State.takeCmp (s : State) (l : PortRef) (p : LinkPkt) : State :=
  let mine := s.reqs.find? fun r =>
    agentOf r.owner r.tower = p.agent && r.id % 65536 = p.tag && s.dstOf r.addr.toNat = some p.src &&
    (match r.op with | .packet op _ _ => op = opCMD | _ => false)
  match mine.bind fun r => (match r.owner with | .command _ id _ => some id | _ => none) with
  | none => s.dropped l.t l.p
  | some id =>
    let bs := slotBytes p.slots
    let tag := leNat (bs.take 2)
    let st := leNat ((bs.drop 2).take 2) % 2 ^ 15
    s.modPkt id fun x =>
      let inner := (splitPackets 16 0 (x.words.drop 8)).map fun e => e.2
      let idx := (inner.zipIdx.find? fun e => hTag e.1 = tag && !(x.got.any fun g => g.1 = e.2)).map fun e => e.2
      match idx with
      | none => x
      | some i =>
        let got := x.got ++ [(i, st)]
        { x with got := got, waits := if inner.length ≤ got.length then x.waits.filter (· ≠ waitCmp) else x.waits }

/-- CMP. -/
def execCmp (l : PortRef) (p : LinkPkt) (s : State) : Out := s.linkRow l p opCMP fun s => s.takeCmp l p

/-- The packets of a refused CMD complete with a status, each by its reply. -/
def State.refuseCmd (s : State) (l : PortRef) (p : LinkPkt) (st : Nat) (ps : List (Nat × Packet)) : State :=
  let now := s.stamp l.t
  (ps.foldl (fun s e => s.sendCmp ⟨p.src, p.agent, p.tag⟩
    ⟨hTag e.2, st, 0, now, now, 0, 0, false, false, false, none⟩) s).answer l p st 0 false []

/-- Packets of a CMD enter the ring of their queue at its tail, and the tail moves over them. -/
def State.fillRing (s : State) (l : PortRef) (p : LinkPkt) (q : Nat) (ps : List (Nat × Packet)) : State :=
  let y := s.queue q
  let k := s.qSize q
  let ring := (s.reg (qLoc .cmdQring q)).toNat / 64 * 64
  let es := (slotBytes p.slots).take p.count
  let n := p.count / 64
  let g := linkAgent l p
  let w := (List.range n).foldl (fun (r : Put) i =>
    let a := ring + 64 * ((y.tail.toNat + i) % 2 ^ k)
    let x := r.s.cwriteB g (BitVec.ofNat 64 a) ((es.drop (64 * i)).take 64)
    { x with st := if r.st = 0 then x.st else r.st }) ⟨0, 0, s⟩
  if w.st ≠ 0 then s.answer l p w.st 0 false []
  else
    let s1 := (w.s.issueRemote g).2
    let tail := y.tail + BitVec.ofNat 32 n
    (s1.modQueue q fun z =>
      { z with tail := tail, bells := z.bells ++ [(tail.toNat, s1.stamp (qTower q))]
               remote := z.remote ++ ps.map fun e => (((y.tail + BitVec.ofNat 32 e.1).toNat), ⟨p.src, p.agent, p.tag⟩) }).answer l p stOK 0 false []

/-- The 64-bit words of slots. -/
def slotWords (l : List (BitVec 128)) : List W64 :=
  l.flatMap fun w => [BitVec.ofNat 64 w.toNat, BitVec.ofNat 64 (w.toNat / 2 ^ 64)]

/-- CMD: the target queue must have master 2 and be enabled; packets that its ring cannot hold yet stay in the receive
buffer. (DEDUCED, log entry 89.) -/
def execCmd (l : PortRef) (p : LinkPkt) (s : State) : Out :=
  if p.op ≠ opCMD then .next s
  else
    let s1 := s.arriving l p
    let q := p.detail
    let ps := splitPackets 16 0 ((slotWords p.slots).take (p.count / 8))
    if !s1.inRx l p then .next s1
    else if 1024 ≤ q then .next ((s1.takeRx l p).refuseCmd l p stBadAddress ps)
    else if s1.qMaster q ≠ 2 then .next ((s1.takeRx l p).refuseCmd l p stRefused ps)
    else if (s1.tower (qTower q)).fence ≠ 0 then .next ((s1.takeRx l p).refuseCmd l p stLost ps)
    else if !s1.qEnabled q then .next ((s1.takeRx l p).refuseCmd l p stBadState ps)
    else if 2 ^ s1.qSize q < ((s1.queue q).tail - (s1.queue q).head).toNat + p.count / 64 then .next s1
    else .next ((s1.takeRx l p).fillRing l p q ps)

/-- DBF: a doorbell from another module; those of management queues are the management block's alone (R353). -/
def execDbf (l : PortRef) (p : LinkPkt) (s : State) : Out :=
  let q := p.hiAddr % 1024
  s.linkRow l p opDBF fun s => if qLocal q = 255 then s else s.doorbell q (BitVec.ofNat 32 p.detail)

/-! ## Signals and flows -/

/-- TSIG (R341): an arrival of count bytes on a tally; a tower in reset keeps the packet waiting. (DEDUCED, log entry 91.) -/
def execTsig (l : PortRef) (p : LinkPkt) (s : State) : Out :=
  if p.op ≠ opTSIG then .next s
  else
    let s1 := s.arriving l p
    let t := p.hiAddr / 256 % 4
    let c := p.hiAddr / 2 % 128
    let bad := decide (1024 ≤ p.hiAddr) || p.hiAddr % 2 = 1 || decide (128 ≤ p.detail)
    if !s1.inRx l p ∨ (!bad && (s1.tower t).inTower && (s1.tower t).fence = 0) then .next s1
    else
      let s2 := s1.takeRx l p
      let st := if bad then stBadAddress else s2.cluStatus t c
      .next (if st ≠ 0 then s2.answer l p st 0 false [] else (s2.arriveT t c p.detail p.count).answer l p stOK 0 false [])

/-- A CFL parameter slot that Table 11-5 allows. -/
def cflOk (ps : BitVec 128) : Bool :=
  let v := ps.toNat
  let f := bitsOf v 3 0
  let dst := bitsOf v 7 4
  let mx := bitsOf v 10 10 = 1
  (f = 6 || f = 7) && decide (dst ≤ 2) && bitsOf v 8 8 = 0 && bitsOf v 19 11 = 0 && bitsOf v 47 40 = 0 && bitsOf v 95 64 = 0 &&
  validScale (BitVec.ofNat 32 (bitsOf v 127 96)) && !(mx && f = 7) && decide (bitsOf v 39 31 ≤ 256) &&
  (bitsOf v 9 9 = 1 || bitsOf v 39 31 = 0)

/-- The elements of a CFL packet (R342, R343): element bytes, scale bytes, sprout bytes. -/
def cflElems (ps : BitVec 128) (bs : List Byte) : List Elem :=
  let v := ps.toNat
  let f := bitsOf v 3 0
  let n := bitsOf v 30 20 + 1
  let blocks := cdiv n (blockLen f)
  let eb := blocks * blockBytes f
  let byteAt (lo len i : Nat) : Option Nat := if i < len then some (bs.getD (lo + i) 0#8).toNat else none
  let pl : Plane :=
    { fmt := f, sprout := bitsOf v 9 9 = 1, esc := false, blocks := blocks, stride := eb, firstBlock := 0, strEnd := bitsOf v 39 31
      elem := fun i => if 0 ≤ i then byteAt 0 eb i.toNat else none
      scale := byteAt eb blocks, index := fun _ => some 0, stream := byteAt (eb + blocks) (bitsOf v 39 31) }
  (List.range n).map fun j => pl.at 0 j

/-- The tensor scale of a CFL packet; 1 with mx. -/
def cflScale (ps : BitVec 128) : ℚ :=
  if bitsOf ps.toNat 10 10 = 1 then 1 else (fmtF32.decode (bitsOf ps.toNat 127 96)).toQ

/-- CFL (R342): the row is expanded, rounded into its destination format and written at the packet's address. -/
def State.expand (s : State) (l : PortRef) (p : LinkPkt) (ps : BitVec 128) : State :=
  let es := cflElems ps ((slotBytes (p.slots.drop 1)).take (cflBytes ps))
  let fo := (fmtOf (bitsOf ps.toNat 7 4)).getD fmtF32
  let row := (roundRow fo false [] (es.map fun e => e.value (cflScale ps))).1
  let (sp, cl, inv) := decodeCounts [es]
  s.serve l p row.length (.store (row.map fun b => some (clean b))) fun s =>
    let w := s.gwriteB (linkAgent l p) (BitVec.ofNat 64 p.addr) row
    (w.s.noteDecode l.t (bitsOf ps.toNat 63 48) sp cl inv 0).answer l p w.st 0 false []

/-- CFL. A malformed one is dropped (R343). -/
def execCfl (l : PortRef) (p : LinkPkt) (s : State) : Out :=
  let ps := p.slots.headD 0#128
  s.linkRow l p opCFL fun s =>
    if cflOk ps then s.expand l p ps else (s.dropped l.t l.p).dropAnswer p stBadLength

/-! ## Host requests of other modules (R352) -/

/-- This module bridges and its PCIe link works. -/
def State.bridging (s : State) : Bool := s.hostWay = .direct

/-- The directory slot of a module. -/
def State.slotOf (s : State) (m : Nat) : Option Nat :=
  match s.mod.bridge with
  | none => none
  | some t => (List.range 64).find? fun i =>
      let w := s.view ⟨.brgDir, t, 0, i, 0⟩
      bit w 63 && fld w 59 48 = m

/-- Data through the bridge pass the check-value unit of their slot (R447). -/
def State.tapBridge (s : State) (kind module : Nat) (bs : List (BitVec 9)) : State :=
  match s.mod.bridge, s.slotOf module with
  | some t, some i => s.cvuBridge t kind i bs
  | _, _ => s

/-- HRD. -/
def execHrd (l : PortRef) (p : LinkPkt) (s : State) : Out :=
  s.linkRow l p opHRD fun s =>
    if !s.bridging then s.answer l p stFaultLink 0 false []
    else s.answer l p stOK 0 false (markedSlots p.addr (s.hostBytes p.addr p.count)).2

/-- HWR: a posted write, upstream through the bridge's check-value unit. -/
def execHwr (l : PortRef) (p : LinkPkt) (s : State) : Out :=
  let bs := slotData p.addr p.count p.poison p.slots
  s.linkRow l p opHWR fun s =>
    if !s.bridging then s.answer l p stFaultLink 0 false []
    else
      ((s.modMem fun m => { m with host := bs.zipIdx.foldl (fun h b => SMap.put 0#8 h (p.addr + b.2) (dataOf b.1)) m.host }).tapBridge
        3 p.src bs).answer l p stOK 0 false []

/-- HIRQ: an MSI-X message. -/
def execHirq (l : PortRef) (p : LinkPkt) (s : State) : Out :=
  s.linkRow l p opHIRQ fun s => if s.bridging then s.emit (.msix (p.detail % 2048)) else s

/-! ## Maintenance (R419) -/

/-- MNT: a READY module that verified its firmware sends the package to a neighbour; what else a maintenance response holds is
not given, and is free (DESIGN CHOICE, log entry 53). -/
def execMnt (l : PortRef) (p : LinkPkt) (s : State) : Out :=
  s.linkRow l p opMNT fun s =>
    let ok := s.mod.ready && s.mod.verified
    let bs : List Byte := (List.range p.count).map fun i => BitVec.ofNat 8 (Config.freeNat (s.free + i))
    let r : LinkPkt := ⟨mkHdr opMNR s.selfId p.src p.agent p.tag, mkRspW p.count (if ok then stOK else stBadState) 0 false, dataSlots bs⟩
    (s.drawn p.count).enqueue l.t l.p 1 r

/-! ## Timeouts (R340) -/

/-- Stamps of req_timeout_ms. (DEDUCED, log entry 90.) -/
def State.reqTimeout (s : State) : Nat := clampN 1 10000 (s.fget lnkCfgReqTimeoutMs s.mod.lead) * 200000

/-- REQUEST_TIMEOUT. -/
def execRequestTimeout (id : Nat) (s : State) : Out :=
  match s.reqs.find? fun r => r.id = id with
  | none => .next s
  | some r =>
    match r.stage with
    | .sent _ => .next (if r.sentAt + s.reqTimeout ≤ s.stamp r.tower then s.finishReq id stFaultLink [] else s)
    | _ => .next s

/-! ## The link record (R347) -/

/-- Fields of LNK_CFG that the module has once, copied from a tower to the others. -/
def State.shareLink (s : State) (t : Nat) : State :=
  let w := s.reg ⟨.lnkCfg, t, 0, 0, 0⟩
  let h := s.reg ⟨.lnkHostBridge, t, 0, 0, 0⟩
  (List.range 4).foldl (fun s k =>
    let l : Loc := ⟨.lnkCfg, k, 0, 0, 0⟩
    let own := fld (s.reg l) 7 0
    (s.setReg l (setFld w 7 0 own)).setReg ⟨.lnkHostBridge, k, 0, 0, 0⟩ h) s

/-- Ports take their enable bits: a port switched off is disabled, one switched on trains. Ports in bridge mode ignore them. (DEDUCED, log entry 85.) -/
def State.enablePorts (s : State) (t : Nat) : State :=
  (List.range 8).foldl (fun s p =>
    let on := bit (s.reg ⟨.lnkCfg, t, 0, 0, 0⟩) p
    let m := (s.port t p).mode
    if m = .bridge then s
    else if !on ∧ m ≠ .disabled then
      s.portClose t p .disabled
    else if on ∧ m = .disabled then s.portMode t p .training
    else s) s

/-- The module ID of a commit: the first one assigns it; a later one changes nothing, unless a MODULE_WARM came between
(R466). (DEDUCED, log entry 120.) -/
def State.assignId (s : State) (t : Nat) : State :=
  let m := fld (s.reg ⟨.lnkCfg, t, 0, 0, 0⟩) 59 48
  if s.mod.moduleId.isNone ∨ s.mod.idFree then s.modMod fun x => { x with moduleId := some (BitVec.ofNat 12 m), idFree := false } else s

/-- LINK_CONFIG_COMMIT: every tower's pending copies become active at once. -/
def execLinkConfigCommit (s : State) : Out :=
  let ts := (List.range 4).filter fun t => s.commitPending .lnkCommit t 0
  if ts.isEmpty then .next s
  else
    let s1 := ts.foldl (fun s t => s.commitDone .lnkCommit t 0) s
    let lead := ts.getLastD 0
    let s2 := (s1.assignId lead).shareLink lead
    let s3 := (List.range 4).foldl (fun s t => if (s.tower t).fence = 0 then s.enablePorts t else s) s2
    .next ((s3.electRoot).arrived .link)

end Sys2Proof.Machine
end

