-- ==== Sys2Proof/Machine/Bridge.lean ====
section
/-! DEFINITION. The host bridge (R33, R348-R352, R419): doorbells through BAR0, accesses through BAR2, and the PCIe link. -/

namespace Sys2Proof.Machine

/-- The agent of host accesses: the bridge's tower, class 6. -/
def hostAgent (t tag : Nat) : Agent := ⟨t, 6, .host tag, 1, 0x3FF, 3000⟩

/-- The host reaches this module: its bridge is active, PCIE_PERST_N high and the link up. -/
def State.hostUp (s : State) : Bool := s.mod.bridge.isSome && s.mod.perstN && s.mod.linkUp

/-- The module of a directory slot, none for a slot that is not valid. Slot 0 is the bridging module itself (R349). (DEDUCED, log entry 92.) -/
def State.slotModule (s : State) (t slot : Nat) : Option Nat :=
  let w := s.view ⟨.brgDir, t, 0, slot, 0⟩
  if bit w 63 then some (fld w 59 48) else none

/-- BAR0_DOORBELL (R350): the module's own queue; a DBF to another module, behind the BAR2 writes that came before it; dropped
and noted for a slot that is not valid. (DEDUCED, log entry 76.) -/
def execBar0Doorbell (slot : Fin 64) (q : Fin 1024) (tail : W32) (s : State) : Out :=
  match s.mod.bridge with
  | none => .next s
  | some t =>
    if !s.hostUp then .next s
    else if slot.val = 0 then .next (if qLocal q = 255 then s else s.doorbell q tail)
    else
      match s.slotModule t slot with
      | none => .next (s.fset brgStatusDroppedDb 1 t)
      | some m =>
        if s.dbWaits m s.mod.nextId then
          .next (s.modMod fun x => { x with heldDb := x.heldDb ++ [(m, q.val, tail.toNat, x.nextId)] })
        else .next (s.sendDbf m q tail.toNat)

/-- A host access to the module's own memory: at once, or held with its home. -/
def State.bar2Local (s : State) (t a : Nat) (op : Bar2Op) : State :=
  let tag := s.mod.nextId
  let g := hostAgent t tag
  let n := match op with | .read n => n | .write bs => bs.length
  if s.someHeld t (n / 128 + 2) a n then
    let r := s.mkReq a (match op with | .read n => .load n | .write bs => .store (bs.map fun b => some (clean b))) 6 g.owner t
    { s.newId with reqs := s.reqs ++ [{ r with held := some (s.stamp t) }] }
  else
    match op with
    | .read n =>
      let r := s.gread g (BitVec.ofNat 64 a) n
      r.s.emit (.bar2 (pcieStatus r.st) (if r.st = 0 then r.data else []))
    | .write bs =>
      let w := s.gwriteB g (BitVec.ofNat 64 a) bs
      if w.st ≠ 0 then w.s.emit .aer else w.s

/-- A host access to another module: RD or WR packets, cut at 4,096-byte boundaries. -/
def State.bar2Remote (s : State) (t m a : Nat) (op : Bar2Op) : State :=
  let tag := s.mod.nextId
  let ga := 2 ^ 63 + m * 2 ^ 48 + a % 2 ^ 48
  let n := match op with | .read n => n | .write bs => bs.length
  let s1 := (hostPieces (n / 4096 + 2) ga n).foldl (fun (s : State) e =>
    let o : ReqOp := match op with
      | .read _ => .load e.2
      | .write bs => .store (((bs.drop (e.1 - ga)).take e.2).map fun b => some (clean b))
    let r := s.mkReq e.1 o 6 (.host tag) t
    match s.home t r.addr with
    | .remote _ _ => (s.launchReq r).newId
    | _ => { s.newId with reqs := s.reqs ++ [{ r with stage := .done, status := stBadAddress }] }) s
  s1.hostBack (.host tag)

/-- Firmware is taken from the host, and BAR2 maps the staging area (R419). -/
def State.staged? (s : State) : Bool := s.mod.phase = 1 && s.mod.fwSource = 0

/-- An access to the staging area. -/
def State.bar2Stage (s : State) (off : Nat) (op : Bar2Op) : State :=
  match op with
  | .read n => s.emit (.bar2 0 ((List.range n).map fun i => clean (SMap.get 0#8 s.mod.stage (off + i))))
  | .write bs => s.modMod fun m => { m with stage := bs.zipIdx.foldl (fun x b => SMap.put 0#8 x (off + b.2) b.1) m.stage }

/-- BAR2_ACCESS (R351). -/
def execBar2Access (slot : Fin 64) (off : Nat) (a : Bar2Op) (s : State) : Out :=
  match s.mod.bridge with
  | none => .next s
  | some t =>
    let n := match a with | .read n => n | .write bs => bs.length
    if !s.hostUp ∨ n = 0 then .next s
    else if s.staged? then
      .next (if slot.val = 0 ∧ off + n ≤ 2 ^ 26 then s.bar2Stage off a else s)
    else
      let s1 := match a with
        | .write bs => s.cvuBridge t 2 slot (bs.map clean)
        | .read _ => s
      match s1.slotModule t slot with
      | none => .next (match a with | .read _ => s1.emit (.bar2 1 []) | .write _ => s1.emit .aer)
      | some m =>
        let at_ := fld (s1.reg ⟨.brgDir, t, 0, slot, 0⟩) 47 26 * 2 ^ 26 + off
        if slot.val = 0 ∨ m = s1.selfId then .next (s1.bar2Local t at_ a) else .next (s1.bar2Remote t m at_ a)

/-- The bridge controller and its HOST domain are reset (R33): its registers and check-value unit; BAR2 accesses in flight
are dropped, and host requests of other modules waiting in the ports are answered with FAULT_LINK (R352). (DEDUCED, log entry 93.) -/
def State.bridgeReset (s : State) (t : Nat) : State :=
  let s1 := (s.cvuReset t 136).resetRegs t 0 fun r => r = .brgStatus || r = .brgDir
  let s2 : State := { s1 with reqs := s1.reqs.filter fun r => match r.owner with | .host _ => false | _ => true }
  let s3 := s2.modMod fun m => { m with heldDb := [], linkUp := false, pcieRate := 0, pcieWidth := 0 }
  (List.range 32).foldl (fun (s : State) k =>
    let l : PortRef := ⟨Fin.ofNat 4 (k / 8), Fin.ofNat 8 (k % 8)⟩
    ((s.port l.t l.p).rxq.filter fun e => e.2.op = opHRD || e.2.op = opHWR).foldl (fun s e =>
      (s.takeRx l e.2).answer l e.2 stFaultLink 0 false []) s) s3

/-- PCIE_PERST. -/
def execPciePerst (high : Bool) (s : State) : Out :=
  let s1 := s.modMod fun m => { m with perstN := high }
  match s.mod.bridge with
  | some t => .next (if high then s1 else s1.bridgeReset t)
  | none => .next s1

/-- PCIE_LINK_UP (R348): the pair of the bridge trains at a rate and width of Table 11-8. -/
def execPcieLinkUp (rate width : Nat) (s : State) : Out :=
  if s.hostWay = .down ∧ s.mod.perstN ∧ 1 ≤ rate ∧ rate ≤ 6 ∧ 1 ≤ width ∧ width ≤ 3 then
    .next (s.modMod fun m => { m with linkUp := true, pcieRate := rate, pcieWidth := width })
  else .next s

/-- PCIE_LINK_DOWN (R352). -/
def execPcieLinkDown (s : State) : Out :=
  .next (s.modMod fun m => { m with linkUp := false, pcieRate := 0, pcieWidth := 0 })

end Sys2Proof.Machine
end

