-- ==== Sys2Proof/Machine/Commands.lean ====
section
/-! DEFINITION. The commands NOP, FENCE, FILL, MATRIX, TALLY_SET, TALLY_WAIT, TALLY_SIGNAL and REMOTE (R156, R341, R365-R367,
R369), and rows at command addresses. -/

namespace Sys2Proof.Machine

/-! ## Rows at command addresses -/

/-- What reading rows gave: their marked bytes, and the first failing status. -/
structure Rows where
  rows : List (List (BitVec 9))
  st : Nat
  at_ : Nat
  s : State

/-- Read rows of n bytes at a stride. -/
def State.creadRows (s : State) (g : Agent) (a : W64) (rows stride n : Nat) : Rows :=
  (List.range rows).foldl (fun (r : Rows) i =>
    let x := r.s.cread g (a + BitVec.ofNat 64 (i * stride)) n
    { rows := r.rows ++ [x.data], st := if r.st = 0 then x.st else r.st, at_ := if r.st = 0 then x.at_ else r.at_, s := x.s })
    ⟨[], 0, 0, s⟩

/-- One write after another; the first failing status stays. -/
def Put.andThen (r : Put) (f : State → Put) : Put :=
  let x := f r.s
  if r.st = 0 then x else { r with s := x.s }

/-- Write rows at a stride. -/
def State.cwriteRows (s : State) (g : Agent) (a : W64) (stride : Nat) (rows : List (List (Option (BitVec 9)))) : Put :=
  rows.zipIdx.foldl (fun r e => r.andThen fun s => s.cwriteM g (a + BitVec.ofNat 64 (e.2 * stride)) e.1) ⟨0, a.toNat, s⟩

/-- Bytes at offsets as runs of consecutive bytes. -/
def byteRuns (bs : List (Nat × Byte)) : List (Nat × List Byte) :=
  bs.foldr (fun b l =>
    match l with
    | (o, r) :: t => if b.1 + 1 = o then (b.1, b.2 :: r) :: t else (b.1, [b.2]) :: l
    | [] => [(b.1, [b.2])]) []

/-- Write bytes at offsets from a command address. -/
def State.cputs (s : State) (g : Agent) (a : W64) (bs : List (Nat × Byte)) : Put :=
  (byteRuns bs).foldl (fun r e => r.andThen fun s => s.cwriteB g (a + BitVec.ofNat 64 e.1) e.2) ⟨0, a.toNat, s⟩

/-- A command that wrote: OK, or the status of its first failing write. -/
def Put.did (w : Put) (st : Nat := 0) (detail : Nat := 0) : Did :=
  if w.st = stHeld then .fail w.s stHeld w.at_ else if w.st ≠ 0 then .fail w.s w.st else { s := w.s, st := st, detail := detail }

/-! ## NOP and FENCE -/

/-- NOP. -/
def execNopCommand (q : Fin 1024) (p : Packet) (s : State) : Out := .next (s.runPkt q 0x00 p fun _ s => { s := s })

/-- Clusters whose shelf cache a FENCE flushes: its queue's tower for scope 1, else the whole module (R365). -/
def fenceClusters (q : Nat) (p : Packet) : List (Nat × Nat) :=
  (if pbytes p 8 1 = 1 then [qTower q] else List.range 4).flatMap fun t => (List.range 128).map fun c => (t, c)

/-- The guard-epoch flag of a FENCE. -/
def epochFlag (p : Packet) : Bool := hFlags p % 2 = 1

/-- An invocation that has completed is not yet evaluated (R135). -/
def State.evalsLeft (s : State) : Bool :=
  s.tags.any fun e => e.2.pendingEval.any fun a => !(s.mod.launches.any fun l => l.id = a.owner)

/-- The work of FENCE (R365): flushes first; then, with nothing of them left on its way, far lines and the guard epoch. -/
def State.workFence (q : Nat) (p : Packet) (k : Pkt) (s : State) : Did :=
  let s1 := if k.begun then s else (fenceClusters q p).foldl (fun s e => s.flushCache e.1 e.2 k.id) s
  if s1.backsLeft k.id ∨ (epochFlag p ∧ s1.evalsLeft) then { s := s1, waits := [waitAgain] }
  else
    let s2 := if pbytes p 8 1 = 4 then s1.dropEveryFar else s1
    if epochFlag p then
      let (n, s3) := s2.guardEpoch
      { s := s3, detail := n }
    else { s := s2 }

/-- FENCE. -/
def execFenceCommand (q : Fin 1024) (p : Packet) (s : State) : Out := .next (s.runPkt q 0x01 p (State.workFence q p))

/-! ## FILL (R366) -/

/-- Rows and bytes of a FILL. -/
def fillRows (p : Packet) : Nat := pbytes p 20 4 + 1
def fillBytes (p : Packet) : Nat := pbytes p 16 4 + 1
def fillStride (p : Packet) : Nat := pbytes p 24 4
def fillFmt (p : Packet) : Nat := pbytes p 29 1 % 16
def fillValue (p : Packet) : Bool := pbytes p 28 1 % 2 = 1

/-- Elements of one row of a FILL with a value; its bytes hold whole blocks. -/
def fillN (p : Packet) : Nat := if fillFmt p = 5 then fillBytes p else fillBytes p / blockBytes (fillFmt p) * blockLen (fillFmt p)

/-- Checks 6 and 7 of FILL; before them the encodings that a FILL with a value can have. -/
def State.checkFill (s : State) (q : Nat) (p : Packet) : Nat × Nat :=
  let t := qTower q
  let f := fillFmt p
  let plain := s.crows t (wordAt p 1) (fillRows p) (fillStride p) (fillBytes p)
  if !fillValue p then (plain, 0)
  else
    let bb := blockBytes f
    (firstBad [if 5 ≤ f ∧ f ≤ 9 ∧ validScale (BitVec.ofNat 32 (pbytes p 36 4)) ∧ (f = 5 ∨ fillBytes p % bb = 0) then 0 else stBadOpcode
      , plain, if f = 5 then 0 else s.crows t (wordAt p 5) (fillRows p) (fillStride p / bb) (fillBytes p / bb)], 0)

/-- What a FILL with a value writes. -/
def State.fillPar (s : State) (p : Packet) : QPar :=
  { fmt := fillFmt p, mx := false, sprout := false, stoch := false, tau := s.tau (pbytes p 30 2)
    ts := (fmtF32.decode (pbytes p 36 4)).toQ, stride := fillStride p, firstBlock := 0, start := 0, cap := 0, index := 0, esc := false }

/-- The work of FILL. -/
def State.workFill (q : Nat) (p : Packet) (k : Pkt) (s : State) : Did :=
  let c := s.checkFill q p
  let g := s.cmdAgent q k
  if c.1 ≠ 0 then .fail s c.1 c.2
  else if !s.streamsHeld q k.id ((List.range (fillRows p)).map fun i => (wordAt p 1 + BitVec.ofNat 64 (i * fillStride p), fillBytes p)) then
    .fail s stWait
  else if fillValue p then
    let x := fmtF32.decode (pbytes p 32 4)
    let a := quantRows (s.fillPar p) [] (List.replicate (fillRows p) (List.replicate (fillN p) x))
    let w := (s.cputs g (wordAt p 1) a.elems).andThen fun s => s.cputs g (wordAt p 5) a.scales
    let d := w.did
    if d.st = 0 then { d with s := d.s.foldDirect (qTower q) k.id (pbytes p 30 2) 1 (fillFmt p) a.cnt } else d
  else
    let row := (List.range (fillBytes p)).map fun j => some (clean (BitVec.ofNat 8 (pbytes p (32 + j % 8) 1)))
    (s.cwriteRows g (wordAt p 1) (fillStride p) (List.replicate (fillRows p) row)).did

/-- FILL. -/
def execFill (q : Fin 1024) (p : Packet) (s : State) : Out := .next (s.runPkt q 0x11 p (State.workFill q p))

/-! ## MATRIX (R367) -/

/-- A cluster that a LAUNCH or MATRIX names: absent or lost, or not awake (R404, R408). -/
def State.cluReady (s : State) (t c : Nat) : Nat :=
  firstBad [s.cluStatus t c, match (s.clu t c).dom with | .on => 0 | .lost => stLost | _ => stBadState]

/-- Descriptors of a MATRIX, clamped into 1 to 16, and the clamp mask (parameter 2). -/
def matrixCount (p : Packet) : Nat × Nat :=
  let n := pbytes p 10 1
  (clampN 1 16 n, if n < 1 ∨ 16 < n then 4 else 0)

/-- Checks 6 and 7 of MATRIX that the packet alone decides. -/
def State.checkMatrix (s : State) (p : Packet) : Nat × Nat := (s.cluReady (pbytes p 8 1) (pbytes p 9 1), 0)

/-- The first failing check of R166 on descriptors at an offset, but for the window: fault code and descriptor. -/
def State.matrixFault (s : State) (t c off : Nat) (bs : List (BitVec 9)) (ds : List (List W64)) : Option (BFault × Nat) :=
  let lim := s.direct t c
  let is := List.range ds.length
  let d (i : Nat) : List W64 := ds.getD i []
  if lim < off + 64 * ds.length then some (.shelfBounds, (is.findIdx fun i => decide (lim < off + 64 * (i + 1))))
  else if bs.any isBad then some (.uncorrectableData, bs.findIdx isBad / 64)
  else
    match is.find? fun i => !descOk (d i) (s.jobEsc t (d i)) with
    | some i => some (.descriptorInvalid, i)
    | none => (is.find? fun i => !descInside (d i) (s.jobEsc t (d i)) lim).map fun i => (.shelfBounds, i)

/-- The work of MATRIX: the jobs enter the array's queue, when it has room for all of them. -/
def State.workMatrix (p : Packet) (k : Pkt) (s : State) : Did :=
  let c0 := s.checkMatrix p
  let t := pbytes p 8 1
  let c := pbytes p 9 1
  let (n, clamp) := matrixCount p
  let off := pbytes p 12 2 * 64
  if c0.1 ≠ 0 then .fail s c0.1 c0.2
  else if (s.tower t).inTower then .fail s stHeld (0x110000000000 + t * 2 ^ 29 + c * 2 ^ 21)
  else
    let (bs, s1) := s.shelfRead t c off (64 * n)
    let ds := readDescs bs n
    match s1.matrixFault t c off bs ds with
    | some (f, i) => .fail s1 (if f = .shelfBounds then stBadAddress else stBadState) (f.code + i * 256)
    | none =>
      let a := (s1.clu t c).arr
      if 32 < a.queue.length + a.runs + n then .fail s stWait
      else
        { s := s1.modArr t c fun y => { y with queue := y.queue ++ ds.zipIdx.map fun d => ⟨d.1, off + 64 * d.2, k.id, s1.jobEsc t d.1⟩ }
          clamp := clamp, st := okStatus clamp, waits := [waitJobs] }

/-- MATRIX. -/
def execMatrix (q : Fin 1024) (p : Packet) (s : State) : Out := .next (s.runPkt q 0x21 p (State.workMatrix p))

/-! ## Tally commands (R156, R158, R341) -/

/-- Checks of a command on a tally of this module. -/
def State.checkTally (s : State) (t c n : Nat) : Nat × Nat :=
  (firstBad [if 3 < t ∨ 127 < c ∨ 127 < n then stBadAddress else 0, s.cluStatus t c], 0)

/-- The command on a tally of a tower that a TOWER reset holds waits. -/
def State.onTally (s : State) (t c n : Nat) (f : State → Did) : Did :=
  let k := s.checkTally t c n
  if k.1 ≠ 0 then .fail s k.1 k.2
  else if (s.tower t).inTower then .fail s stHeld (0x1F0000000000 + t * 2 ^ 32)
  else f s

/-- The work of TALLY_SET. -/
def State.workTallySet (p : Packet) (_ : Pkt) (s : State) : Did :=
  let t := pbytes p 8 1
  let c := pbytes p 9 1
  let n := pbytes p 10 1
  s.onTally t c n fun s =>
    { s := s.setT t c n (BitVec.ofNat 32 (pbytes p 12 4)) (BitVec.ofNat 32 (pbytes p 16 4)) (pbytes p 11 1 % 2 = 1) }

/-- TALLY_SET. -/
def execTallySet (q : Fin 1024) (p : Packet) (s : State) : Out := .next (s.runPkt q 0x30 p (State.workTallySet p))

/-- The work of TALLY_WAIT: it completes when its condition holds. -/
def State.workTallyWait (p : Packet) (_ : Pkt) (s : State) : Did :=
  let t := pbytes p 8 1
  let c := pbytes p 9 1
  let n := pbytes p 10 1
  s.onTally t c n fun s => { s := s, waits := if tallyMet p t c n (s.tally t c n) then [] else [waitTally] }

/-- TALLY_WAIT. -/
def execTallyWait (q : Fin 1024) (p : Packet) (s : State) : Out := .next (s.runPkt q 0x31 p (State.workTallyWait p))

/-- The counts of the TSIG packets that carry an arrival of k: at most 4,096 each. -/
def tsigCounts (k : Nat) : List Nat :=
  List.replicate (k / 4096) 4096 ++ (if k % 4096 = 0 then [] else [k % 4096])

/-- The module that a packet's bytes 8 and 9 name: none for this one. -/
def namedModule (p : Packet) : Option Nat := if pbytes p 8 2 / 2 ^ 15 = 1 then none else some (pbytes p 8 2 % 4096)

/-- Checks 6 and 7 of TALLY_SIGNAL; a remote target checks its own cluster and tally. -/
def State.checkSignal (s : State) (p : Packet) : Nat × Nat :=
  match namedModule p with
  | none => s.checkTally (pbytes p 10 1) (pbytes p 11 1) (pbytes p 12 1)
  | some _ => (if 3 < pbytes p 10 1 ∨ 127 < pbytes p 11 1 then stBadAddress else 0, 0)

/-- A request that is a packet of its own operation leaves for a module. -/
def State.sendOwn (s : State) (g : Agent) (m op : Nat) (w1 : W64) (slots : List (BitVec 128)) : State :=
  (s.launchReq (s.mkReq (2 ^ 63 + m * 2 ^ 48) (.packet op w1 slots) g.cls g.owner g.t)).newId

/-- The work of TALLY_SIGNAL. -/
def State.workSignal (q : Nat) (p : Packet) (k : Pkt) (s : State) : Did :=
  let t := pbytes p 10 1
  let c := pbytes p 11 1
  let n := pbytes p 12 1
  let count := pbytes p 16 4
  match namedModule p with
  | none => s.onTally t c n fun s => { s := s.arriveT t c n count }
  | some m =>
    let e := s.checkSignal p
    if e.1 ≠ 0 then .fail s e.1 e.2
    else { s := (tsigCounts count).foldl (fun s x => s.sendOwn (s.cmdAgent q k) m opTSIG (mkRspW x (t * 256 + c * 2) n false) []) s }

/-- TALLY_SIGNAL. -/
def execTallySignal (q : Fin 1024) (p : Packet) (s : State) : Out := .next (s.runPkt q 0x32 p (State.workSignal q p))

/-! ## REMOTE (R369) -/

/-- The packets that a REMOTE embeds, and their lengths together. -/
def embedded (p : Packet) : List Packet := (splitPackets 16 0 (p.drop 8)).map fun e => e.2
def embeddedLength : Nat → List W64 → Nat
  | 0, _ => 0
  | f + 1, ws => if ws.isEmpty then 0 else
      let n := fld (ws.headD 0#64) 19 16 + 1
      n + embeddedLength f (ws.drop (8 * n))

/-- Checks of REMOTE. -/
def State.checkRemote (_ : State) (p : Packet) : Nat × Nat :=
  (firstBad [if embeddedLength 16 (p.drop 8) ≠ hLength p then stBadLength else 0
    , if 4095 < pbytes p 8 2 ∨ 1023 < pbytes p 10 2 then stBadAddress else 0], 0)

/-- The work of REMOTE: one CMD packet; with the wait flag it waits for the status replies too. -/
def State.workRemote (q : Nat) (p : Packet) (k : Pkt) (s : State) : Did :=
  let e := s.checkRemote p
  if e.1 ≠ 0 then .fail s e.1 e.2
  else
    { s := s.sendOwn (s.cmdAgent q k) (pbytes p 8 2) opCMD (mkRspW (64 * hLength p) 0 (pbytes p 10 2) false)
        (dataSlots (bytesOf (p.drop 8)))
      waits := if hFlags p % 2 = 1 then [waitCmp] else [] }

/-- REMOTE. -/
def execRemote (q : Fin 1024) (p : Packet) (s : State) : Out := .next (s.runPkt q 0x91 p (State.workRemote q p))

end Sys2Proof.Machine
end

