-- ==== Sys2Proof/Machine/Copy.lean ====
section
/-! DEFINITION. COPY and its five modes (R366, R254, R255, R81, R205, R206, R208, R342). -/

namespace Sys2Proof.Machine

/-! ## Parameters (Table 12-5) -/

def cSrc (p : Packet) : W64 := wordAt p 1
def cDst (p : Packet) : W64 := wordAt p 2
def cBytes (p : Packet) : Nat := pbytes p 24 4 + 1
def cRows (p : Packet) : Nat := pbytes p 28 4 + 1
def cSstride (p : Packet) : Nat := pbytes p 32 4
def cDstride (p : Packet) : Nat := pbytes p 36 4
def cMode (p : Packet) : Nat := pbytes p 40 1 % 8
def cWidth (p : Packet) : Nat := 4 * 2 ^ (pbytes p 40 1 / 16 % 4)
def cSrcFmt (p : Packet) : Nat := pbytes p 41 1 % 16
def cDstFmt (p : Packet) : Nat := pbytes p 41 1 / 16
def cWire (p : Packet) : Nat := pbytes p 42 1 % 16
def cSproutBit (p : Packet) : Bool := pbytes p 42 1 / 16 % 2 = 1
def cMx (p : Packet) : Bool := pbytes p 42 1 / 32 % 2 = 1
def cStoch (p : Packet) : Bool := pbytes p 42 1 / 64 % 2 = 1
def cRole (p : Packet) : Nat := pbytes p 42 1 / 128
def cTs (p : Packet) : W32 := BitVec.ofNat 32 (pbytes p 44 4)
def cTag (p : Packet) : Nat := pbytes p 48 2
def cFirst (p : Packet) : Nat := pbytes p 56 4
def cCount (p : Packet) : Nat := pbytes p 60 4
def cSrcScale (p : Packet) : W64 := wordAt p 8
def cDstScale (p : Packet) : W64 := wordAt p 9
def cSpr (p : Packet) : W64 := wordAt p 10
def cSprLen (p : Packet) : Nat := pbytes p 88 4
def cIndex (p : Packet) : Nat := pbytes p 92 4
def cSprStart (p : Packet) : Nat := pbytes p 96 4
def cSprFirst (p : Packet) : Nat := pbytes p 100 4

/-! ## The conversion of mode 3 -/

def cQuant (p : Packet) : Bool := decide (cSrcFmt p ≤ 2) && decide (5 ≤ cDstFmt p ∧ cDstFmt p ≤ 9)
def cDeq (p : Packet) : Bool := decide (cDstFmt p ≤ 2) && decide (5 ≤ cSrcFmt p ∧ cSrcFmt p ≤ 9)
/-- The narrow format of a conversion. -/
def cNarrow (p : Packet) : Nat := if cQuant p then cDstFmt p else cSrcFmt p

/-- The escalation that a conversion reads or writes under (R137, R139). -/
def State.cEsc (s : State) (q : Nat) (p : Packet) : Bool := cRole p = 0 && s.escFor (qTower q) (cTag p) (cNarrow p)

/-- Bytes of one unit of a format's rows: a block, or an element. -/
def unitBytes (f : Nat) : Nat := if isBlockFmt f then blockBytes f else max 1 (elemBits f / 8)

/-- Elements of one row, whose bytes are those of a source row in its own format (DEDUCED, log entry 47). -/
def cElems (p : Packet) : Nat :=
  cBytes p / unitBytes (cSrcFmt p) * (if isBlockFmt (cSrcFmt p) then blockLen (cSrcFmt p) else 1)

def cMxOn (p : Packet) : Bool := cNarrow p = 6 && cMx p
def cSprout (p : Packet) (esc : Bool) : Bool := cSproutBit p && (cNarrow p = 6 || cNarrow p = 7) && !esc
/-- The narrow side has a scale plane. -/
def cHasScale (p : Packet) (esc : Bool) : Bool := isBlockFmt (cNarrow p) && !esc
/-- Bytes of a source row and of a destination row. -/
def cSrcRow (p : Packet) (esc : Bool) : Nat := if cDeq p && esc then cElems p else rowBytes (cSrcFmt p) (cElems p)
def cDstRow (p : Packet) (esc : Bool) : Nat := if cQuant p && esc then cElems p else rowBytes (cDstFmt p) (cElems p)
/-- Row stride of the element plane of the narrow side, and of its scale plane. -/
def cNStride (p : Packet) : Nat := if cQuant p then cDstride p else cSstride p
def cBlocks (p : Packet) : Nat := cNStride p / max 1 (blockBytes (cNarrow p))
/-- Blocks of one row, and the last block of the tensor. -/
def cRowBlocks (p : Packet) : Nat := cdiv (cElems p) (max 1 (blockLen (cNarrow p)))
def cLast (p : Packet) : Nat := cSprFirst p + (cRows p - 1) * cBlocks p + cRowBlocks p - 1

/-! ## Checks -/

/-- What the fields of a COPY must satisfy in its mode (R254, R205, R342). -/
def State.copyForm (s : State) (q : Nat) (p : Packet) : Bool :=
  match cMode p with
  | 1 => cBytes p * 8 % (32 * cWidth p) = 0 && cRows p % 32 = 0 && decide (cRows p * cWidth p / 8 ≤ cDstride p)
  | 3 =>
    let esc := s.cEsc q p
    (cQuant p || cDeq p) && cBytes p % unitBytes (cSrcFmt p) = 0 &&
    ((cMxOn p && !(esc && cDeq p)) || validScale (cTs p)) && cSstride p % 64 = 0 && cDstride p % 64 = 0 &&
    decide (cSrcRow p esc ≤ cSstride p) && decide (cDstRow p esc ≤ cDstride p) &&
    (!(cQuant p && cSprout p esc) || (cSprFirst p % 256 = 0 && cIndex p % 64 = 0))
  | 4 =>
    [0, 1, 3, 4].contains (cSrcFmt p) && (cWire p = 6 || cWire p = 7) && decide (cDstFmt p ≤ 2) &&
    cBytes p % unitBytes (cSrcFmt p) = 0 && !(cMx p && cWire p = 7) && (cMx p || validScale (cTs p))
  | _ => true

/-- A command address lies in another module. -/
def State.isFar (s : State) (q : Nat) (a : W64) : Bool :=
  !isHost a && (match s.home (qTower q) a with | .remote _ _ => true | _ => false)

/-- The sprout plane of a conversion: bytes from its start. -/
def cSprBytes (p : Packet) : Nat :=
  max (if cQuant p then cIndex p + cSprLen p else cSprLen p) (4 * (cLast p / 256 + 1))

/-- Checks 6 and 7 of COPY; before them the encodings of its mode. -/
def State.checkCopy (s : State) (q : Nat) (p : Packet) : Nat × Nat :=
  let t := qTower q
  let off (a : W64) : Bool := a.toNat % 64 ≠ 0
  let src (n : Nat) : Nat := s.crows t (cSrc p) (cRows p) (cSstride p) n
  let dst (rows n : Nat) : Nat := s.crows t (cDst p) rows (cDstride p) n
  (firstBad ((if s.copyForm q p then 0 else stBadOpcode) ::
    match cMode p with
    | 0 => [src (cBytes p), dst (cRows p) (cBytes p)]
    | 1 =>
      [ if off (cSrc p) || off (cDst p) || cSstride p % 64 ≠ 0 || cDstride p % 64 ≠ 0 then stBadAddress else 0, src (cBytes p)
      , dst (cBytes p * 8 / cWidth p) (cRows p * cWidth p / 8) ]
    | 2 => [s.crange t (cSrc p) 64, s.crange t (cDst p) 1]
    | 3 =>
      let esc := s.cEsc q p
      [ src (cSrcRow p esc), dst (cRows p) (cDstRow p esc)
      , if cHasScale p esc then s.crows t (if cQuant p then cDstScale p else cSrcScale p) (cRows p) (cBlocks p) (cRowBlocks p) else 0
      , if cSprout p esc then s.crange t (cSpr p) (cSprBytes p) else 0 ]
    | _ => [if isHost (cSrc p) || s.isFar q (cSrc p) || !s.isFar q (cDst p) then stBadAddress else 0, src (cBytes p)]), 0)

/-! ## The work of each mode -/

/-- The first row with an uncorrectable byte. -/
def firstPoisoned (rows : List (List (BitVec 9))) : Option Nat :=
  let i := rows.findIdx fun r => r.any isBad
  if i < rows.length then some i else none

/-- Status and detail of a COPY of rows: its first uncorrectable source row (R366). -/
def Put.copied (w : Put) (bad : Option Nat) (detail : Nat := 0) : Did :=
  match bad with
  | some i => w.did stUncorrectable i
  | none => w.did stOK detail

/-- A command that could not read: it waits for a held home, or ends with the status. -/
def Did.unread (s : State) (st at_ : Nat) : Did := .fail s st (if st = stHeld then at_ else 0)

/-- Modes 0 and 1: all source rows are read, then the destination rows are written (DEDUCED, log entry 48). -/
def State.copyRows (q : Nat) (p : Packet) (k : Pkt) (s : State) : Did :=
  let g := s.cmdAgent q k
  let r := s.creadRows g (cSrc p) (cRows p) (cSstride p) (cBytes p)
  if r.st ≠ 0 then .unread r.s r.st r.at_
  else
    let src := r.rows.map fun x => x.map some
    let out := if cMode p = 1 then (List.range (cBytes p * 8 / cWidth p)).map fun j => transposeRow (cWidth p) src j else src
    (r.s.cwriteRows g (cDst p) (cDstride p) out).copied (firstPoisoned r.rows)

/-- Mode 2: decoded PK1 blocks, up to the first one in error (R81). -/
def State.copyPk (q : Nat) (p : Packet) (k : Pkt) (s : State) : Did :=
  let g := s.cmdAgent q k
  let r := s.pkRead g (cSrc p) (cFirst p) (cCount p)
  let n := r.bytes.length
  if r.st ≠ 0 then .unread r.s r.st r.at_
  else if r.s.needs ≠ [] then { s := r.s }
  else if !s.streamsHeld q k.id [(cSrc p, n), (cDst p, n)] then .fail s stWait
  else
    let w := r.s.cwriteM g (cDst p) (r.bytes.map fun b => some (if r.bad then clean b ||| 256#9 else clean b))
    match r.err with
    | some b => w.did stInconsistent (b % 2 ^ 32)
    | none => w.copied (if r.bad then some 0 else none)

/-- One byte at a command address, as a unit reads it. -/
def State.cbyte (s : State) (g : Agent) (a : W64) : Option Nat :=
  match (s.cread g a 1).data with
  | [b] => if isBad b then none else some (dataOf b).toNat
  | _ => none

/-- Little-endian bytes at a command address. -/
def State.cnat (s : State) (g : Agent) (a : W64) : Nat → Option Nat
  | 0 => some 0
  | n + 1 =>
    match s.cbyte g a, s.cnat g (a + 1) n with
    | some b, some r => some (b + 256 * r)
    | _, _ => none

/-- The source of a conversion as a plane at command addresses. -/
def State.copyPlane (s : State) (g : Agent) (p : Packet) (esc : Bool) : Plane :=
  let e := cDeq p && esc
  let f := cSrcFmt p
  { fmt := if e then 3 else f, sprout := cDeq p && cSprout p esc, esc := e
    blocks := if isBlockFmt f && !e then cSstride p / blockBytes f else 0
    stride := cSstride p, firstBlock := cSprFirst p, strEnd := cSprLen p
    elem := fun i => s.cbyte g (cSrc p + BitVec.ofInt 64 i), scale := fun i => s.cbyte g (cSrcScale p + BitVec.ofNat 64 i)
    index := fun x => s.cnat g (cSpr p + BitVec.ofNat 64 (4 * x)) 4, stream := fun i => s.cbyte g (cSpr p + BitVec.ofNat 64 i) }

/-- Everything that a conversion reads: its rows, or for sprouts the whole of their segments; scales; the sprout plane. -/
def State.copyTouch (s : State) (g : Agent) (p : Packet) (esc : Bool) : Nat × Nat × Bool × State :=
  let rows (stride n : Nat) : List (Nat × Nat) := (List.range (cRows p)).map fun i => (i * stride, n)
  let deep := cDeq p && cSprout p esc
  let lead := if deep then cSprFirst p % 256 * blockBytes (cSrcFmt p) else 0
  let x := s.creads g (cSrc p - BitVec.ofNat 64 lead)
    (if deep then [(0, lead + (cRows p - 1) * cSstride p + cSrcRow p esc)] else rows (cSstride p) (cSrcRow p esc))
  let y := if x.1 = 0 ∧ cDeq p ∧ cHasScale p esc then x.2.2.2.creads g (cSrcScale p) (rows (cBlocks p) (cRowBlocks p)) else x
  if y.1 = 0 ∧ deep then y.2.2.2.creads g (cSpr p) [(0, cSprBytes p)] else y

/-- LFSR states of a command's converter lanes: the specification gives no seed (DESIGN CHOICE, log entry 2). (DESIGN CHOICE, log entry 39.) -/
def State.freeLanes (s : State) : SMap W32 :=
  (List.range 64).foldl (fun m j => lanePut m j (lfsrSeed (BitVec.ofNat 32 (Config.freeWord (s.free + j)).toNat))) []

/-- The quantising write of a conversion (R206, R208). -/
def State.cPar (s : State) (p : Packet) (esc : Bool) : QPar :=
  { fmt := cDstFmt p, mx := cMxOn p, sprout := cSprout p esc, stoch := cStoch p, tau := s.tau (cTag p)
    ts := if cMxOn p then 1 else (f32 (cTs p)).toQ, stride := cDstride p, firstBlock := cSprFirst p, start := cSprStart p
    cap := cSprLen p, index := cIndex p, esc := esc }

/-- Mode 3 (R205, R206, R208, R139): the detail is the stream's end where sprouts are written. -/
def State.copyConvert (q : Nat) (p : Packet) (k : Pkt) (s : State) : Did :=
  let g := s.cmdAgent q k
  let esc := s.cEsc q p
  let x := s.copyTouch g p esc
  let s1 := x.2.2.2
  if x.1 ≠ 0 then .unread s1 x.1 x.2.1
  else if s1.needs ≠ [] then { s := s1 }
  else
    let pl := s1.copyPlane g p esc
    let es := (List.range (cRows p)).map fun i => (List.range (cElems p)).map fun j => pl.at i j
    let i := es.findIdx fun r => r.any Elem.uncorr
    let bad := if i < es.length then some i else none
    let lanes := s1.freeLanes
    let s2 := if cStoch p then s1.drawn 64 else s1
    if cQuant p then
      let qp := s2.cPar p esc
      let a := quantRows qp lanes (es.map fun r => r.map fun e => e.value 1)
      let w := ((s2.cputs g (cDst p) a.elems).andThen fun s => s.cputs g (cDstScale p) a.scales).andThen fun s =>
        s.cputs g (cSpr p) (a.sproutBytes qp)
      let d := w.copied bad (if cSprout p esc then a.streamEnd qp % 2 ^ 32 else 0)
      if w.st = 0 then { d with s := d.s.foldDirect (qTower q) k.id (cTag p) (cRole p) (cDstFmt p) a.cnt } else d
    else
      let fo := (fmtOf (cDstFmt p)).getD fmtF32
      let ts : ℚ := if cMxOn p && !esc then 1 else (f32 (cTs p)).toQ
      let rows := (es.foldl (fun (r : List (List Byte) × SMap W32) e =>
        let (bs, l) := roundRow fo (cStoch p) r.2 (e.map fun y => y.value ts)
        (r.1 ++ [bs], l)) ([], lanes)).1
      let w := s2.cwriteRows g (cDst p) (cDstride p) (rows.map fun r => r.map fun b => some (clean b))
      let d := w.copied bad
      let (sp, cl, inv) := if esc then (0, 0, 0) else decodeCounts es
      if w.st = 0 then { d with s := d.s.noteDecode (qTower q) (cTag p) sp cl inv 0 } else d

/-- The parameter slot of a CFL packet (Table 11-5). -/
def cflSlot (p : Packet) (n sprouts : Nat) : BitVec 128 :=
  BitVec.ofNat 128 (cWire p + cDstFmt p * 2 ^ 4 + (if cSproutBit p then 2 ^ 9 else 0) + (if cMx p then 2 ^ 10 else 0) + (n - 1) * 2 ^ 20 +
    sprouts * 2 ^ 31 + cTag p * 2 ^ 48 + (if cMx p then 0x3F800000 else (cTs p).toNat) * 2 ^ 96)

/-- Pieces of a row of at most 2,048 elements. -/
def flowPieces : Nat → Nat → List FVal → List (Nat × List FVal)
  | 0, _, _ => []
  | f + 1, j, xs => if xs.isEmpty then [] else (j, xs.take 2048) :: flowPieces f (j + 2048) (xs.drop 2048)

/-- Mode 4 (R342): the rows leave as CFL packets, whose elements count as one invocation in role 1. -/
def State.copyFlow (q : Nat) (p : Packet) (k : Pkt) (s : State) : Did :=
  let g := s.cmdAgent q k
  let r := s.creadRows g (cSrc p) (cRows p) (cSstride p) (cBytes p)
  if r.st ≠ 0 then .unread r.s r.st r.at_
  else
    let pl := s.copyPlane g p false
    let dstBytes := elemBits (cDstFmt p) / 8
    let qp (n : Nat) : QPar :=
      { fmt := cWire p, mx := cMx p, sprout := cSproutBit p, stoch := cStoch p, tau := s.tau (cTag p)
        ts := if cMx p then 1 else (f32 (cTs p)).toQ, stride := cdiv n (blockLen (cWire p)) * blockBytes (cWire p), firstBlock := 0
        start := 0, cap := 256, index := 0, esc := false }
    let s1 := if cStoch p then r.s.drawn 64 else r.s
    let send (x : State × SMap W32 × QCount) (i : Nat) (e : Nat × List FVal) : State × SMap W32 × QCount :=
      let a := quantRows (qp e.2.length) x.2.1 [e.2]
      let bytes := a.elems.map (·.2) ++ a.scales.map (·.2) ++ a.stream
      let addr := (cDst p).toNat + i * cDstride p + e.1 * dstBytes
      let w1 := mkReqW bytes.length addr false
      let rq := x.1.mkReq addr (.packet opCFL w1 (cflSlot p e.2.length a.stream.length :: dataSlots bytes)) g.cls g.owner g.t
      ((x.1.launchReq rq).newId, a.lanes, x.2.2.plus a.cnt)
    let out := (List.range (cRows p)).foldl (fun x i =>
      (flowPieces (cElems p) 0 ((List.range (cElems p)).map fun j => (pl.at i j).value 1)).foldl (fun x e => send x i e) x)
      (s1, r.s.freeLanes, QCount.zero)
    let s2 := out.1.foldDirect (qTower q) k.id (cTag p) 1 (cWire p) out.2.2
    match firstPoisoned r.rows with
    | some i => { s := s2, st := stUncorrectable, detail := i }
    | none => { s := s2 }

/-- The streams of a COPY, for its grants (R392). -/
def copyStreams (p : Packet) : List (W64 × Nat) :=
  let rows (a : W64) (n stride : Nat) : List (W64 × Nat) := (List.range (cRows p)).map fun i => (a + BitVec.ofNat 64 (i * stride), n)
  match cMode p with
  | 2 => []
  | 1 =>
    rows (cSrc p) (cBytes p) (cSstride p) ++
      (List.range (cBytes p * 8 / cWidth p)).map fun j => (cDst p + BitVec.ofNat 64 (j * cDstride p), cRows p * cWidth p / 8)
  | 3 => rows (cSrc p) (cSrcRow p false) (cSstride p) ++ rows (cDst p) (cDstRow p false) (cDstride p)
  | 4 => rows (cSrc p) (cBytes p) (cSstride p)
  | _ => rows (cSrc p) (cBytes p) (cSstride p) ++ rows (cDst p) (cBytes p) (cDstride p)

/-- The work of COPY. -/
def State.workCopy (q : Nat) (p : Packet) (k : Pkt) (s : State) : Did :=
  let c := s.checkCopy q p
  if c.1 ≠ 0 then .fail s c.1 c.2
  else if !s.streamsHeld q k.id (copyStreams p) then .fail s stWait
  else
    match cMode p with
    | 2 => State.copyPk q p k s
    | 3 => State.copyConvert q p k s
    | 4 => State.copyFlow q p k s
    | _ => State.copyRows q p k s

/-- COPY. -/
def execCopy (q : Fin 1024) (p : Packet) (s : State) : Out := .next (s.runPkt q 0x10 p (State.workCopy q p))

end Sys2Proof.Machine
end

