-- ==== Sys2Proof/Machine/Launch.lean ====
section
/-! DEFINITION. LAUNCH (R143, R155, R367) and preemption at a slice end (R379). -/

namespace Sys2Proof.Machine

/-! ## LAUNCH -/

/-- The fields of a LAUNCH that are clamped, in field order (R367), as they stand in the packet. -/
def launchRaw (p : Packet) : List Nat :=
  [pbytes p 21 1, pbytes p 22 1, pbytes p 24 2, pbytes p 23 1, pbytes p 26 1, pbytes p 32 2, pbytes p 27 1, pbytes p 28 1, pbytes p 30 2]

/-- The same after their clamps: threads depend on team, tally_count on tally_base (R367, Table 05-1). -/
def launchFields (p : Packet) : List Nat :=
  let r := launchRaw p
  let team := clampN 1 64 (r.getD 1 0)
  let base := clampN 0 127 (r.getD 6 0)
  [clampN 1 255 (r.getD 0 0), team, clampN 1 (64 * team) (r.getD 2 0), clampN 0 4 (r.getD 3 0), clampN 0 255 (r.getD 4 0)
    , clampN 0 16383 (r.getD 5 0), base, clampN 1 (128 - base) (r.getD 7 0), clampN 1 65535 (r.getD 8 0)]

/-- The clamp mask of two lists of fields: bit i where field i was changed. (DEDUCED, log entry 62.) -/
def clampMask (raw out : List Nat) : Nat := ((raw.zip out).zipIdx.map fun e => if e.1.1 = e.1.2 then 0 else 2 ^ e.2).sum

/-- A cache code in KiB. -/
def cacheKibOf : Nat → Nat
  | 0 => 0
  | 1 => 64
  | 2 => 128
  | 3 => 256
  | _ => 512

/-- The allocation of registers per thread (R142). -/
def allocOf (regs : Nat) : Nat := max 16 (8 * cdiv regs 8)

/-- Clusters that a LAUNCH names, in order of tower and then of cluster. -/
def launchClusters (p : Packet) : List (Nat × Nat) := maskClusters (pbytes p 20 1) (pbytes p 40 16)

/-- The check of a LAUNCH's code range (R367). -/
def State.codeStatus (s : State) (t : Nat) (p : Packet) : Nat :=
  match s.moduleAddr (wordAt p 1) with
  | none => stBadAddress
  | some a =>
    let n := pbytes p 16 4
    if a % 64 ≠ 0 ∨ 0x020000000000 ≤ a ∨ 0x020000000000 < a + n then stBadAddress else s.rangeStatus t (BitVec.ofNat 64 a) (max 1 n)

/-- End of the spill areas of a team's bunches (R154); 0 with no spill entries. -/
def spillEnd (f : List Nat) : Nat :=
  let team := f.getD 1 0
  let depth := f.getD 4 0
  if depth = 0 then 0
  else f.getD 5 0 * 64 + ((List.range team).foldl (fun m b => max m (16 * (b % 4) + b / 4 + 1)) 0) * depth * 16

/-- Checks 6 and 7 of LAUNCH. -/
def State.checkLaunch (s : State) (q : Nat) (p : Packet) : Nat × Nat :=
  let f := launchFields p
  (firstBad
    [ s.codeStatus (qTower q) p
    , if 2 ^ 20 - cacheKibOf (f.getD 3 0) * 1024 < spillEnd f then stBadAddress else 0
    , firstBad ((launchClusters p).map fun e => s.cluReady e.1 e.2)
    , if 4 * min 16 (512 / allocOf (f.getD 0 0)) < f.getD 1 0 then stBadState else 0 ], 0)

/-- The 32-bit words of the arguments. -/
def launchArgs (p : Packet) : List W32 := (List.range 16).map fun i => BitVec.ofNat 32 (pbytes p (64 + 4 * i) 4)

/-- The wait of a LAUNCH for the end of its teams. -/
def waitTeams : Nat := 1076

/-- A team on its cluster: its bunches in their slots, and the bunches of dead threads alone counted as retired (R143). -/
def State.placeTeam (s : State) (t c : Nat) (tm : Team) : State :=
  let s1 := (List.range tm.team).foldl (fun (s : State) b =>
    if decide (64 * b < tm.threads) then
      s.setBunch (bunchKey t c (b % 4) (b / 4)) { (default : Bunch) with run := .placed, launch := tm.launch, idx := b }
    else s) s
  (s1.modClu t c fun x => { x with team := some tm, bars := [], barSince := [], fetchAt := [] }).showTeam t c tm

/-- The work of LAUNCH: a team on every named cluster. -/
def State.workLaunch (q : Nat) (p : Packet) (k : Pkt) (s : State) : Did :=
  let e := s.checkLaunch q p
  if e.1 ≠ 0 then .fail s e.1 e.2
  else
    match (launchClusters p).find? fun x => (s.tower x.1).inTower with
    | some x => .fail s stHeld (0x110000000000 + x.1 * 2 ^ 29 + x.2 * 2 ^ 21)
    | none =>
      let f := launchFields p
      let g (i : Nat) : Nat := f.getD i 0
      let clamp := clampMask (launchRaw p) f
      let cs := launchClusters p
      let dead := (List.range (g 1)).filter fun b => decide (g 2 ≤ 64 * b)
      let team (i : Nat) : Team :=
        { launch := k.id, index := i, team := g 1, threads := g 2, alloc := allocOf (g 0), cacheKib := cacheKibOf (g 3)
          spillDepth := g 4, spillBase := g 5, tallyBase := g 6, tallyCount := g 7, barTimeout := g 8
          codeBase := (s.moduleAddr (wordAt p 1)).getD 0, codeLen := pbytes p 16 4, args := launchArgs p, retired := dead, stopped := false }
      let l : Launch :=
        { id := k.id, q := q, pkt := k.id, clusters := cs.map fun x => cluKey x.1 x.2, fault := none, status := 0
          started := s.stamp (qTower q) }
      if cs.isEmpty then { s := s, st := okStatus clamp, clamp := clamp }
      else
        { s := (cs.zipIdx.foldl (fun s x => s.placeTeam x.1.1 x.1.2 (team x.2)) s).modMod fun m => { m with launches := m.launches ++ [l] }
          st := okStatus clamp, clamp := clamp, waits := [waitTeams] }

/-- LAUNCH. -/
def execLaunch (q : Fin 1024) (p : Packet) (s : State) : Out := .next (s.runPkt q 0x20 p (State.workLaunch q p))

/-! ## Preemption -/

/-- An accepted class-7 packet that has not started needs a cluster (R376, R379). -/
def State.wanted (s : State) (t c : Nat) : Bool :=
  s.queues.any fun e =>
    match e.2.next with
    | some k =>
      k.accepted && s.pktClass e.1 k.words = 7 &&
      (match hOpcode k.words with
       | 0x20 => (launchClusters k.words).contains (t, c)
       | 0x21 => pbytes k.words 8 1 = t && pbytes k.words 9 1 = c
       | _ => false)
    | none => false

/-- A launch has run one slice of its tower (R378). (DEDUCED, log entry 132.) -/
def State.slicePast (s : State) (l : Launch) : Bool :=
  let t := qTower l.q
  decide (l.started + 200 * clampN 10 1000 (s.fget cmdDispatchSliceUs t) ≤ s.stamp t)

/-- PREEMPT (R379): at the end of its slice a team gives way to an accepted class-7 packet that needs its cluster. Its whole
directly addressed shelf part is saved with it (DEDUCED, log entry 49). -/
def execPreempt (r : CluRef) (s : State) : Out :=
  match (s.clu r.t r.c).team with
  | none => .next s
  | some tm =>
    match s.launch? tm.launch with
    | none => .next s
    | some l => if s.wanted r.t r.c && s.slicePast l then .next (s.suspend r.t r.c 0 (s.direct r.t r.c)) else .next s

end Sys2Proof.Machine
end

