-- ==== Sys2Proof/Machine/Records.lean ====
section
/-! DEFINITION. Configuration records (R371-R374, R118, R233, R301, R318, R347, R416, R442): their fields, clamps, staging and
commit, and the values that QUERY reads. -/

namespace Sys2Proof.Machine

/-! ## Records and fields (Table 12-7) -/

def recArray : Nat := 0x0301
def recGuard : Nat := 0x0401
def recSplit : Nat := 0x0801
def recPantry : Nat := 0x0901
def recRegulation : Nat := 0x0A01
def recLink : Nat := 0x0B01
def recDispatch : Nat := 0x0C01
def recQueue : Nat := 0x0C02
def recPower : Nat := 0x0D01
def recHealth : Nat := 0x0E01

/-- One field of a record: its range, its active value, the value in the owner's staged copy, and how a value is staged; of a
tower and an instance (cluster, queue). -/
structure RecField where
  lo : Nat
  hi : Nat
  get : State → Nat → Nat → Nat
  kept : State → Nat → Nat → Nat
  put : State → Nat → Nat → Nat → State

/-- A field that is a register field: its unit and index follow from the instance. -/
def regField (f : Fld) (lo hi : Nat) (u i : Nat → Nat) : RecField :=
  { lo := lo, hi := hi, get := fun s t x => s.fget f t (u x) (i x)
    kept := fun s t x => fld (s.stg ⟨f.reg, t, u x, i x, 0⟩) f.hi f.lo
    put := fun s t x v => s.setStg ⟨f.reg, t, u x, i x, 0⟩ (setFld (s.stg ⟨f.reg, t, u x, i x, 0⟩) f.hi f.lo v) }

def zero1 (_ : Nat) : Nat := 0
/-- A field of a tower's one register. -/
def towField (f : Fld) (lo hi : Nat) : RecField := regField f lo hi zero1 zero1
/-- A field of a queue's register. -/
def queueField (f : Fld) (lo hi : Nat) : RecField := regField f lo hi zero1 qLocal
/-- Half of a 64-bit register of a queue. -/
def queueHalf (r : RegName) (hi : Bool) : RecField := queueField ⟨r, if hi then 63 else 31, if hi then 32 else 0⟩ 0 (2 ^ 32 - 1)

/-- A field of the link record: staged in every tower alike, read from the lead tower. -/
def linkField (f : Fld) (lo hi : Nat) : RecField :=
  { lo := lo, hi := hi, get := fun s _ _ => s.fget f s.mod.lead
    kept := fun s _ _ => fld (s.stg ⟨f.reg, s.mod.lead, 0, 0, 0⟩) f.hi f.lo
    put := fun s _ _ v => (List.range 4).foldl (fun s t => s.setStg ⟨f.reg, t, 0, 0, 0⟩ (setFld (s.stg ⟨f.reg, t, 0, 0, 0⟩) f.hi f.lo v)) s }

/-- The fields of LINK_CONFIG (Table 11-7); the enable mask holds a byte of each tower, and 4,096 names no bridging module. -/
def linkFields : List RecField :=
  let byte (w : Nat → Nat) : Nat := ((List.range 4).map fun t => w t * 256 ^ t).sum
  let bridge (w : W64) : Nat := if bit w 31 then 4096 else fld w 11 0
  [ { linkField lnkCfgModuleId 0 4095 with get := fun s _ _ => match s.mod.moduleId with | some m => m.toNat | none => 0xFFFF }
  , linkField lnkCfgStampRoot 0 1
  , { lo := 0, hi := 2 ^ 32 - 1, get := fun s _ _ => byte fun t => s.fget lnkCfgPortEnable t
      kept := fun s _ _ => byte fun t => fld (s.stg ⟨.lnkCfg, t, 0, 0, 0⟩) 7 0
      put := fun s _ _ v => (List.range 4).foldl (fun s t =>
        s.setStg ⟨.lnkCfg, t, 0, 0, 0⟩ (setFld (s.stg ⟨.lnkCfg, t, 0, 0, 0⟩) 7 0 (v / 256 ^ t % 256))) s }
  , linkField lnkCfgReqTimeoutMs 1 10000
  , linkField lnkCfgRetrainLimit 1 15
  , { lo := 0, hi := 4096, get := fun s _ _ => bridge (s.reg ⟨.lnkHostBridge, s.mod.lead, 0, 0, 0⟩)
      kept := fun s _ _ => bridge (s.stg ⟨.lnkHostBridge, s.mod.lead, 0, 0, 0⟩)
      put := fun s _ _ v => (List.range 4).foldl (fun s t =>
        let w := s.stg ⟨.lnkHostBridge, t, 0, 0, 0⟩
        s.setStg ⟨.lnkHostBridge, t, 0, 0, 0⟩ (setFld (setFld w 31 31 (v / 4096)) 11 0 (v % 4096))) s } ]

/-- A field of the health record, which has no register. -/
def healthField (i lo hi : Nat) (get : Module → Nat) : RecField :=
  { lo := lo, hi := hi, get := fun s _ _ => get s.mod
    kept := fun s _ _ => ((s.mod.healthStaged.reverse.find? fun e => e.1 = i).map fun e => e.2).getD (get s.mod)
    put := fun s _ _ v => s.modMod fun m => { m with healthStaged := m.healthStaged ++ [(i, v)] } }

/-- The fields of a record in field order; none for GUARD_POLICY, which CONFIG does not carry, and for an ID that names none. -/
def recFields (r : Nat) : List RecField :=
  if r = recArray then [regField arrPowerFillerWindow 0 1024 id zero1, regField arrPowerRampCycles 0 65520 id zero1]
  else if r = recSplit then
    [regField celSplitPrivate 0 12 zero1 zero1, regField celSplitPrivate 0 12 (fun _ => 1) zero1]
  else if r = recPantry then
    [towField panPolicyFarWays 0 4, towField panPolicyLarderQuota 0 12, towField panPolicyPressureAction 0 1
      , towField panPolicyPressureWindowUs 100 100000, towField panPolicyPressureCeiling 1 1000, towField panPolicyPressureWindows 1 64
      , towField panPolicyDeadLog 0 1, towField panPolicyBypassClasses 0 255]
  else if r = recRegulation then
    ((List.range 8).map fun c => towField ⟨.hbmRegBudget, 8 * c + 7, 8 * c⟩ 0 128) ++
      [towField hbmRegCtlHorizon 1 4095, towField hbmRegCtlPatrolLog2 0 15, towField hbmRegCtlLapLimitS 1 65535]
  else if r = recLink then linkFields
  else if r = recDispatch then
    [towField cmdDispatchSliceUs 10 1000, towField cmdDispatchClass7QueueLimit 1 64, towField cmdDispatchGrantBoundUs 10 1000
      , towField cmdDispatchDeferLimitUs 10 100000]
  else if r = recQueue then
    [queueHalf .cmdQring false, queueHalf .cmdQring true, queueField cmdQcfgSizeLog2 4 16, queueHalf .cmdQcring false
      , queueHalf .cmdQcring true, queueField cmdQcfgCsizeLog2 4 16, queueField cmdQcfgClass 0 7, queueField cmdQcfgMaster 0 2
      , queueField cmdQcfgMsix 0 2047, queueField cmdQcfgEnable 0 1, queueHalf .cmdQctx false, queueHalf .cmdQctx true
      , queueField cmdQcfgInject 0 1]
  else if r = recPower then
    [towField pwrPolicyC7ReserveW 0 1000, towField pwrPolicyC7DepthMs 1 100, towField pwrPolicyHbmGrantKib 64 65536
      , towField pwrPolicyMaxRamp 16 128, towField pwrPolicyWakeWave 1 16, towField pwrPolicyThrottleMarginC 2 15]
  else if r = recHealth then
    [healthField 0 1 1000000 Module.ceThreshold, healthField 1 1 168 Module.ceWindows, healthField 2 0 1 Module.nextTest
      , healthField 3 0 15 Module.fenceMask, healthField 4 0 1 fun _ => 0]
  else []

/-- Tower-scoped records (Table 12-7). -/
def recTower (r : Nat) : Bool := [recArray, recSplit, recPantry, recRegulation, recDispatch, recPower].contains r

/-! ## Clamps (R372 steps 1 and 2) -/

/-- A supplied value in its own range, for a record sent from a queue. -/
def State.ownClamp (s : State) (q r t x i v : Nat) : Nat :=
  let mgmt := s.qMaster q = 1
  match (recFields r)[i]? with
  | none => v
  | some f =>
    let y := clampN f.lo f.hi v
    if r = recArray ∧ i = 1 then cdiv (clampN (s.fget arrPowerRampMin t x) 65520 v) 16 * 16
    else if r = recLink ∧ i = 0 then
      (match s.mod.moduleId with | some m => if s.mod.idFree then y else m.toNat | none => y)
    else if r = recQueue ∧ i = 7 then (if qLocal x = 255 then 1 else if y = 1 then 0 else y)
    else if r = recQueue ∧ i = 12 then (if qLocal q = 255 then y else 0)
    else if r = recHealth ∧ i = 3 then (if !mgmt then s.mod.fenceMask else if y % 4 = 3 then y - 2 else y)
    else if r = recHealth ∧ i = 4 then (if mgmt then y else 0)
    else y

/-- Fields that depend on earlier ones brought into agreement: private_lower (R233) and larder_quota (R301). -/
def agree (r : Nat) (v : List Nat) : List Nat :=
  if r = recSplit then [v.getD 0 0, min (22 - v.getD 0 0) (v.getD 1 0)]
  else if r = recPantry then v.set 1 (min (15 - v.getD 0 0) (v.getD 1 0))
  else v

/-! ## Staging and commit (R372 steps 3 and 4) -/

/-- A record applied to one instance: its clamp mask, and the state with the owner's staged copy written. -/
def State.stageRecord (s : State) (q r t x : Nat) (given : List Nat) : Nat × State :=
  let fs := recFields r
  let cur := fs.zipIdx.map fun e => match given[e.2]? with | some v => s.ownClamp q r t x e.2 v | none => e.1.kept s t x
  let out := agree r cur
  let was := fs.zipIdx.map fun e => match given[e.2]? with | some v => v | none => e.1.kept s t x
  let bits := ((was.zip out).zipIdx.map fun e => if e.1.1 = e.1.2 then 0 else 2 ^ e.2).sum
  (bits, (fs.zip out).zipIdx.foldl (fun (s : State) e =>
    if e.2 < given.length ∨ (out.getD e.2 0 ≠ cur.getD e.2 0) then e.1.1.put s t x e.1.2 else s) s)

/-- The commit register of a record's owner at an instance, and the wait for its boundary; the health record has none. -/
def recCommit (r t x lead : Nat) : Option (RegName × Nat × Nat) × Wait :=
  if r = recArray then (some (.arrCommit, t, x), .array t x)
  else if r = recSplit then (some (.celCommit, t, 0), .cellar t)
  else if r = recPantry then (some (.panCommit, t, 0), .pantry t)
  else if r = recRegulation then (some (.hbmCommit, t, 0), .hbm t)
  else if r = recLink then (some (.lnkCommit, lead, 0), .link)
  else if r = recPower then (some (.pwrCommit, t, 0), .power t)
  else if r = recHealth then (none, .dispatch lead)
  else (some (.cmdCommit, t, 0), .dispatch t)

/-- Towers of a mask that run, and those that are fenced off (R371). -/
def State.maskTowers (s : State) (m : Nat) : List Nat × List Nat :=
  let ts := (List.range 4).filter fun t => m / 2 ^ t % 2 = 1
  (ts.filter fun t => (s.tower t).fence = 0, ts.filter fun t => (s.tower t).fence ≠ 0)

/-- Record, tower mask, fields and instance of a CONFIG. -/
def gRec (p : Packet) : Nat := pbytes p 8 2
def gMask (p : Packet) : Nat := pbytes p 10 1 % 16
def gCount (p : Packet) : Nat := pbytes p 11 1
def gInst (p : Packet) : Nat := pbytes p 12 2
def gFields (p : Packet) : List Nat := (List.range (gCount p)).map fun i => pbytes p (16 + 4 * i) 4

/-- The instances that a CONFIG applies to: tower and cluster or queue. -/
def State.recTargets (s : State) (p : Packet) : List (Nat × Nat) :=
  let r := gRec p
  let ts := (s.maskTowers (gMask p)).1
  if r = recArray then ts.flatMap fun t => ((List.range 128).filter fun c => !(s.clu t c).absent).map fun c => (t, c)
  else if recTower r then ts.map fun t => (t, 0)
  else if r = recQueue then [(qTower (gInst p), gInst p)]
  else [(s.mod.lead, 0)]

/-- A commit is requested of an owner; the link record's of every tower, as its values are staged in every tower. -/
def State.askCommit (s : State) (r t x : Nat) : State :=
  if r = recLink then (List.range 4).foldl (fun s t => s.requestCommit .lnkCommit t 0) s
  else
    match (recCommit r t x s.mod.lead).1 with
    | some (k, t, u) => s.requestCommit k t u
    | none => s

/-- A CONFIG applied: its clamp mask, what it waits for, and the state. -/
def State.applyRecord (s : State) (q : Nat) (p : Packet) : Nat × List Nat × State :=
  let r := gRec p
  (s.recTargets p).foldl (fun (a : Nat × List Nat × State) e =>
    let s0 := if r = recDispatch ∨ r = recQueue then a.2.2.saneCmd e.1 else a.2.2
    let (m, s1) := s0.stageRecord q r e.1 e.2 (gFields p)
    (a.1 ||| m, a.2.1 ++ [(recCommit r e.1 e.2 s1.mod.lead).2.code], s1.askCommit r e.1 e.2)) (0, [], s)

/-! ## Checks of CONFIG -/

/-- The checks of R374 and R352 on a QUEUE record: a host address for a ring needs a way to the host. -/
def State.checkQueue (s : State) (q : Nat) (p : Packet) : Nat :=
  let x := gInst p
  let f := gFields p
  let t := qTower x
  let low (i n : Nat) : Bool := match f[i]? with | some v => v % n ≠ 0 | none => false
  let changed := (recFields recQueue).zipIdx.any fun e =>
    decide (e.2 ≤ 5) && (match f[e.2]? with | some v => s.ownClamp q recQueue t x e.2 v != e.1.get s t x | none => false)
  let stays := s.qget cmdQcfgEnable x = 1 && (match f[9]? with | some v => decide (1 ≤ v) | none => true)
  let host (i : Nat) : Bool := match f[i]? with | some v => v / 2 ^ 30 = 1 | none => false
  firstBad [if s.qMaster q ≠ 1 ∧ (qLocal x = 255 ∨ f[7]? = some 1) then stRefused else 0
    , if low 0 64 || low 3 32 || low 10 64 || ((host 1 || host 4) && s.hostWay = .none) then stBadAddress else 0
    , if changed && stays then stBadState else 0]

/-- Checks of CONFIG beyond the header (R371, R372, R374). -/
def State.checkConfig (s : State) (q : Nat) (p : Packet) : Nat × Nat :=
  let r := gRec p
  let fs := recFields r
  if fs.isEmpty then (if r = recGuard ∧ 9 < gCount p then stBadLength else stBadAddress, 0)
  else if fs.length < gCount p then (stBadLength, 0)
  else if recTower r then
    (if gMask p = 0 then stBadAddress else if (s.maskTowers (gMask p)).1.isEmpty then stLost else 0, 0)
  else if r = recQueue then
    (if 1023 < gInst p then stBadAddress
     else firstBad [s.checkQueue q p, if (s.tower (qTower (gInst p))).fence ≠ 0 then stLost else 0], 0)
  else (0, 0)

/-- The detail of a CONFIG (R372). -/
def State.configDetail (s : State) (p : Packet) : Nat :=
  let skipped := if recTower (gRec p) then ((s.maskTowers (gMask p)).2.map fun t => 2 ^ t).sum else 0
  gCount p + (recFields (gRec p)).length * 256 + skipped * 65536

/-- The status of a CONFIG that applied. -/
def configStatus (clamp n count : Nat) : Nat := if clamp ≠ 0 then stClamped else if n < count then stPartial else stOK

/-! ## QUERY selector 1 (R370) -/

/-- The policy of a tag entry as record fields; the action field reads 0. -/
def GuardPolicy.words (g : GuardPolicy) : List Nat :=
  [g.mode, g.window, g.floor, g.ceiling, g.tau, g.shadowLog2, g.shadowFmt, codeOf 32 g.shadowDelta, 0]

/-- The active values of a record at a tower and an instance, or the status that refuses them. -/
def State.recordValues (s : State) (r t x : Nat) : Nat × List Nat :=
  let fs := recFields r
  let lost := decide (3 < t) || (s.tower t).fence ≠ 0
  let st := if 3 < t then stBadAddress else stLost
  if r = recGuard then (if 4095 < x then (stBadAddress, []) else if lost then (st, []) else (0, (s.pol x).words))
  else if fs.isEmpty then (stBadAddress, [])
  else if r = recQueue then (if 1023 < x then (stBadAddress, []) else (0, fs.map fun f => f.get s (qTower x) x))
  else if r = recArray ∧ 127 < x then (stBadAddress, [])
  else if recTower r then (if lost then (st, []) else (0, fs.map fun f => f.get s t x))
  else (0, fs.map fun f => f.get s s.mod.lead 0)

end Sys2Proof.Machine
end

