-- ==== Sys2Proof/Machine/Resets.lean ====
section
/-! DEFINITION. What resets, lost clusters and fences do (R19-R26, R45, R109, R121, R160, R173, R176, R190, R201, R221, R263-R266,
R299, R300, R319, R368, R430-R441), and the RESET command. -/

namespace Sys2Proof.Machine

/-! ## Registers of a region -/

/-- Registers that keep their values, staged copies and pending commits through every reset below a cold one: those of the
records (R466), the failed channels (R319), and those that the module has once. (DEDUCED, log entry 10.) -/
def RegName.lasting (r : RegName) : Bool :=
  r.shared ||
  match r with
  | .arrPower | .celSplit | .celCommit | .panPolicy | .panCommit | .hbmRegBudget | .hbmRegCtl | .hbmCommit | .hbmStatus | .hbmChanFail
  | .lnkCfg | .lnkCommit | .lnkHostBridge | .lnkRoute | .cmdQring | .cmdQcring | .cmdQcfg | .cmdQctx | .cmdDispatch | .cmdCommit
  | .pwrPolicy | .pwrCommit | .pwrBudget => true
  | _ => false

/-- The register at a key of the register file. -/
def regAt (k : Nat) : Option RegName := (locate (k / 0x100000000) (k % 0x100000000)).map fun h => h.1.r

/-- A register of a region [lo, hi) of a tower that does not stay. -/
def goesAt (t lo hi : Nat) (stays : RegName → Bool) (k : Nat) : Option RegName :=
  if k / 0x100000000 = t ∧ lo ≤ k % 0x100000000 ∧ k % 0x100000000 < hi then (regAt k).filter fun r => !stays r else none

/-- A reset of a region of a tower's MMIO offsets (R14): every register there but those that stay returns to its reset value, but
for fields whose Reset column is "—"; its staged copies go. -/
def State.resetRange (s : State) (t lo hi : Nat) (stays : RegName → Bool) : State :=
  let gone (k : Nat) : Bool := (goesAt t lo hi stays k).isSome
  { s with
    regs := s.regs.filterMap fun e =>
      match goesAt t lo hi stays e.1 with
      | none => some e
      | some r =>
        let m := r.bitsWhere fun f => f.keep
        let v := (e.2 &&& m) ||| (r.resetWord &&& ~~~m)
        if v = r.resetWord then none else some (e.1, v)
    staged := s.staged.filter fun e => !gone e.1
    locked := s.locked.filter fun e => !gone e.1 }

/-! ## Commands and launches cut short -/

/-- A running command ends at once with a status: its accesses, loads and grants are forgotten. -/
def State.stopPkt (s : State) (q id st detail : Nat) : State :=
  let s1 : State :=
    { s.forget (cmdOwner q id) with
      clusters := (s.forget (cmdOwner q id)).clusters.map fun e => (e.1, { e.2 with loads := e.2.loads.filter fun l => l.id ≠ id }) }
  (s1.complete id st detail).releaseCmd id

/-- A launch is stopped with a status: no bunch of it issues any more (R175, R176, Table 12-4). (DEDUCED, log entry 13.) -/
def State.stopLaunch (s : State) (id st : Nat) : State :=
  let s1 := s.modMod fun m =>
    { m with launches := m.launches.map fun l => if l.id = id ∧ l.status = 0 then { l with status := st } else l }
  { s1 with
    clusters := s1.clusters.map fun e =>
      (e.1, match e.2.team with
            | some tm => if tm.launch = id then { e.2 with team := some { tm with stopped := true } } else e.2
            | none => e.2) }

/-- Running packets of every queue that pass a test. -/
def State.pktsWhere (s : State) (p : Pkt → Bool) : List (Nat × Pkt) :=
  s.queues.flatMap fun q => (q.2.running.filter p).map fun k => (q.1, k)

/-- Work of a launch or command stands on a cluster. -/
def State.worksOn (s : State) (t c id : Nat) : Bool :=
  let x := s.clu t c
  (match x.team with | some tm => tm.launch = id | none => false) || x.holds id ||
  (List.range 4).any fun e =>
    ((s.te t c e).qcv.any fun j => j.owner = id) || (match (s.te t c e).qcvRun with | some j => j.owner = id | none => false)

/-- What a packet waits for of a lost or reset resource will not come: it goes on without, with RESOURCE_LOST. (DEDUCED, log entry 16.) -/
def State.abandon (s : State) (w : Wait) : State :=
  ((s.pktsWhere fun k => k.waits.contains w.code).foldl (fun s e => s.signal e.2.id stLost 0) s).arrived w

/-! ## One cluster -/

/-- The counts of invocations that a reset cuts short are folded into the table or dropped; which is free (R121). -/
def State.cutCounts (s : State) (t c : Nat) : State :=
  let keep := s.freeB
  ((if keep then (s.clu t c).acc.foldl (fun s a => s.fold t a) s else s).modClu t c fun x => { x with acc := [] }).drawn 1

/-- Dirty shelf-cache lines with a local HBM home enter their tower's dead-line filter (R173, R298). -/
def State.deadCache (s : State) (t c : Nat) : State :=
  (s.clu t c).cache.foldl (fun s l =>
    if l.dirty = 0#128 then s
    else match s.home t (BitVec.ofNat 64 (l.line * 128)) with
      | .hbm ht a => s.deadLine ht (a / 128)
      | _ => s) s

/-- Commands whose work on a cluster is cut short (R431): its launches stop, its MATRIX commands and the TALLY_WAITs on its
tallies complete with RESOURCE_LOST, and it counts as not switched in its TABLE_LOADs (R221). -/
def State.cutCommands (s : State) (t c : Nat) : State :=
  let hit := s.mod.launches.filter fun l => l.clusters.contains (cluKey t c) && s.worksOn t c l.id
  let s1 := hit.foldl (fun s l => s.stopLaunch l.id stLost) s
  let mats := s.pktsWhere fun k => k.waits.contains waitJobs && s.worksOn t c k.id
  let s2 := mats.foldl (fun s e => s.stopPkt e.1 e.2.id stLost 0) s1
  let tws := s.pktsWhere fun k => k.waits.contains waitTally && pbytes k.words 8 1 = t && pbytes k.words 9 1 = c
  let s3 := tws.foldl (fun s e => s.stopPkt e.1 e.2.id stLost 0) s2
  if (s.clu t c).loads = [] then s3 else s3.abandon (.table t c)

/-- Give back every grant of a cluster's bins and hatch. -/
def State.releaseClu (s : State) (t c : Nat) : State :=
  s.modTower t fun w =>
    { w with grants := w.grants.filter fun x => x.req.requester.toNat / 18 ≠ c
             grantQ := w.grantQ.filter fun x => x.requester.toNat / 18 ≠ c }

/-- A cluster's engines are reset (Table 14-5, scope 0): thread engines and their bunches, array, banks, normalisation unit,
queues, tallies, LFSRs, shelf cache, check-value unit and registers. Its shelf, its bay and a suspended team in its save area
stay. -/
def State.clearCluster (s : State) (t c : Nat) : State :=
  let s1 := ((((s.commitArr t c).cutCommands t c).cutCounts t c).deadCache t c).releaseClu t c
  let k := cluKey t c
  let s2 : State :=
    { s1 with
      bunches := s1.bunches.filter fun e => e.1 / 64 ≠ k
      tes := s1.tes.filter fun e => e.1 / 4 ≠ k
      cvu := s1.cvu.filter fun e => e.1 / 8 ≠ t * 137 + c
      reqs := s1.reqs.filter fun r =>
        match r.owner with
        | .bunch b => b / 64 ≠ k
        | .hatch a d _ _ => cluKey a d ≠ k
        | _ => true }
  (s2.modClu t c fun x =>
    { Cluster.init with absent := x.absent, dom := x.dom, limited := x.limited, saved := x.saved, selfTested := x.selfTested }).resetRange
    t (c * 0x100000) ((c + 1) * 0x100000) RegName.lasting

/-- A suspended team of a cluster loses its save area, and its launch with it. -/
def State.loseSaved (s : State) (t c : Nat) : State :=
  let ids := (s.clu t c).saved.map fun v => v.team.launch
  (ids.foldl (fun s i => s.stopLaunch i stLost) s).modClu t c fun x => { x with saved := [] }

/-- A cluster is lost while its tower runs (R26, R408): it is switched off and absent. (DEDUCED, log entry 117.) -/
def State.loseCluster (s : State) (t c : Nat) : State :=
  if (s.clu t c).absent then s
  else
    let p := s.phys t c
    let s1 := ((s.clearCluster t c).modClu t c fun x => { x with absent := true, dom := .lost }).abandon (.wake t c)
    let s2 := s1.modTower t fun w => { w with lostPos := w.lostPos ++ [p], hot := w.hot.filter (· ≠ c) }
    let s3 := s2.logEvent 0x0020 1 t [p, c]
    if s3.spare t (gridRow c) = 0xFF then s3.rehealth else s3.trigger 0

/-! ## Spares at an ATTIC reset (R24, R25, R299, R425) -/

/-- A row's spare replaces a column, or is given up (0xFE), or is free (0xFF). -/
def State.putSpare (s : State) (t row v : Nat) : State := s.modTower t fun w => { w with spares := SMap.put 0xFF w.spares row v }

/-- The bay of a pantry way. -/
def State.wayBay (s : State) (t half set w : Nat) : Nat := (s.waySite t half set w).2.1

/-- A row's spare stands in for a lost cluster: the pantry lines of the leaving bay are written back and dropped, and every row
of the new bay starts invalid. -/
def State.standIn (s : State) (t c : Nat) : State :=
  let row := gridRow c
  let old := s.phys t c
  let s1 := s.flushWays t fun half set w => s.wayBay t half set w = old
  let s2 := (s1.putSpare t row (gridCol c)).clearRows t fun _ bay _ => bay = 17 * row + 8
  s2.modClu t c fun x => { x with absent := false, dom := .retention, selfTested := false }

/-- The absent cluster of a row that its free spare stands in for: the lowest number. -/
def State.rowLost (s : State) (t row : Nat) : Option Nat :=
  if s.spare t row ≠ 0xFF ∨ (s.tower t).lostPos.contains (17 * row + 8) then none
  else (List.range 128).find? fun c => gridRow c = row && (s.clu t c).absent

/-- Soft repair of a tower's spare clusters; those that stand in wake with the waves. -/
def State.repairClusters (s : State) (t : Nat) : State :=
  (List.range 8).foldl (fun s row =>
    match s.rowLost t row with
    | none => s
    | some c => (s.standIn t c).modTower t fun w => { w with hot := w.hot ++ [c] }) s

/-- Clusters of a tower that were awake, or waking, wait for a wave and their self-test; clusters in retention stay there
(R426, R431). -/
def State.toWaves (s : State) (t : Nat) : State :=
  let cs := (List.range 128).filter fun c =>
    let x := s.clu t c
    !x.absent && (x.dom = .on || x.dom = .waking || (s.tower t).hot.contains c)
  (cs.foldl (fun s c => s.modClu t c fun x => { x with dom := .retention, selfTested := false }) s).modTower t fun w => { w with hot := cs }

/-- The waves of a tower have ended: no cluster waits for one or is waking. -/
def State.wavesDone (s : State) (t : Nat) : Bool :=
  (s.tower t).hot.isEmpty && (List.range 128).all fun c => (s.clu t c).absent || (s.clu t c).dom ≠ .waking

/-- Phase 7 of bring-up ends when every cluster that is not lost has passed (Table 14-1); ports still in training are down
(R422). -/
def State.wavesEnd (s : State) : State :=
  if s.mod.phase = 6 ∧ ((List.range 4).all fun t => (s.tower t).fence ≠ 0 || s.wavesDone t) then
    ((List.range 32).foldl (fun (s : State) k =>
      if (s.port (k / 8) (k % 8)).mode = .training then s.portClose (k / 8) (k % 8) .down else s) s).modMod fun m => { m with phase := 7 }
  else s

/-! ## Cellars (R263-R265, R299) -/

/-- A cellar die's arrays are reset: its valid bits, scrubber, registers and pantry sets; suspended teams whose save area lies on it
are lost with it. -/
def State.clearDie (s : State) (t die : Nat) : State :=
  let s1 := s.dropWays t fun half set w => (s.waySite t half set w).1 = die
  let s2 := s1.clearRows t fun d _ _ => d = die
  let s3 := s2.modTower t fun w =>
    { w with scrubPtr := w.scrubPtr.filter (fun e => e.1 / 136 ≠ die)
             scrubBay := (List.range 2).map fun d => if d = die then 0 else w.scrubBay.getD d 0
             lapStart := (List.range 2).map fun d => if d = die then s.stamp t else w.lapStart.getD d 0
             repairQ := SMap.put [] w.repairQ die [] }
  let base := RegName.celStatus.place.base + die * 0x10000
  let s4 := s3.resetRange t base (base + 0x10000) RegName.lasting
  let s5 := if (List.range 12).any fun g => s.inSave t die (g * 2 ^ 20) then (List.range 128).foldl (fun s c => s.loseSaved t c) s4 else s4
  { s5 with
    clusters := s5.clusters.map fun e =>
      (e.1, { e.2 with hatchRun := e.2.hatchRun.map fun h =>
        (h.1, if h.2.moved ∧ h.2.dies.contains (2 * t + die) then { h.2 with lost := true } else h.2) }) }

/-! ## Towers -/

/-- Fills of a tower are dropped; accesses of other towers that waited for them are on their way again. -/
def State.dropFills (s : State) (t : Nat) : State :=
  let ids := (s.mem.fills.filter fun e => e.1 / 2 = t).flatMap fun e => e.2.flatMap fun f => f.reqs.map fun r => r.1
  let s1 := s.modMem fun m => { m with fills := m.fills.filter fun e => e.1 / 2 ≠ t }
  { s1 with
    reqs := (s1.reqs.filter fun r => match r.owner with | .fill x _ _ => x ≠ t | _ => true).map fun r =>
      if ids.contains r.id ∧ r.stage = .filling then { r with stage := .issued } else r }

/-- Writes that the controllers of a tower have accepted reach their units before the stacks rest (R315, R319). (DEDUCED, log entry 15.) -/
def State.drainAll (s : State) (t : Nat) : State :=
  let ks := (s.mem.wq.filter fun e => e.1 / 512 = t).map fun e => e.1
  ks.foldl (fun s k => s.drainWrites 64 t (k / 64 % 8) (k % 64)) s

/-- Every started packet of a tower's queues completes with RESOURCE_LOST, but for RESETs, which complete as their scope gives
(R368); launches among them leave their clusters. -/
def State.cutQueues (s0 : State) (t : Nat) (resets : Bool) : State :=
  let ks := (s0.queues.filter fun q => qTower q.1 = t).flatMap fun q => q.2.running.map fun k => (q.1, k)
  let s : State :=
    { s0 with
      queues := s0.queues.map fun q =>
        (q.1, if qTower q.1 = t then { q.2 with next := q.2.next.map fun (k : Pkt) => { k with accepted := false } } else q.2) }
  (ks.filter fun e => resets || hOpcode e.2.words ≠ 0x60).foldl (fun s e =>
    ((s.stopTeams e.2.id).dropLaunch e.2.id).stopPkt e.1 e.2.id stLost 0) s

/-- The storekeeper of a tower starts anew: no grant, no request, no run-next command, a full reserve account. (DEDUCED, log entry 12.) -/
def Tower.powerReset (w : Tower) (depth : ℚ) (now : Nat) : Tower :=
  { w with grants := [], grantQ := [], derate := 1024, guardOn := false, runNextIds := [], c7Order := [], rr := [], windowMj := 0, reserveMj := depth, reserveAt := now
           thermalMw := none, halvedDies := [], estimates := [] }

/-- Requests that units of a tower itself issued or serve are forgotten. -/
def ReqOwner.inTower (o : ReqOwner) (t : Nat) : Bool :=
  match o with
  | .writeBack x _ _ => x = t
  | .link p _ _ _ => p / 8 = t
  | .fill x _ _ => x = t
  | _ => false

/-- All three dies, the spine and the control cores of a tower are reset (R121, R266, R300, R319, Table 14-5): clusters, cellar
valid bits, pantry with its records and filter, counts, tag entries, started packets. HBM, remap and failed channels stay. -/
def State.clearTower (s : State) (t : Nat) : State :=
  let s1 := (List.range 128).foldl (fun s c => (s.clearCluster t c).loseSaved t c) s
  let s2 := (((s1.cutQueues t false).dropFills t).drainAll t).clearRows t fun _ _ _ => true
  let s3 := s2.modMem fun m => { m with pantry := m.pantry.filter fun e => e.1 / 2 ^ 25 ≠ t }
  let depth := s3.reserveDepth t
  let now := s3.stamp t
  let s4 := s3.modTower t fun w =>
    { w.powerReset depth now with
      pins := [], deadFilter := [], deadLog := [], pressRun := 0, pressure := false, missUnpinned := 0, accUnpinned := 0
      scrubPtr := [], scrubBay := [], lapStart := [now, now], repairQ := [], clsBytes := [], demoted := [], uncorrTimes := []
      inCelU := false, inCelL := false, inAttic := false, domRet := [] }
  let s5 : State :=
    { s4 with
      tags := s4.tags.filter fun e => e.1 / 4096 ≠ t
      cvu := s4.cvu.filter fun e => e.1 / 8 / 137 ≠ t
      reqs := s4.reqs.filter fun r => !r.owner.inTower t }
  s5.resetRange t 0 0x100000000 RegName.lasting

/-- The ports of a tower are down, without an event: each starts anew from its failed lanes. -/
def State.portsDown (s : State) (t : Nat) : State :=
  (List.range 8).foldl (fun s p =>
    if (s.port t p).mode = .bridge then s
    else
      let x := s.port t p
      (s.portClose t p .down).modPort t p fun _ =>
        { Port.init with mode := .down, badLanes := x.badLanes, failedOnce := x.failedOnce, half := x.half, halfHigh := x.halfHigh, window := 100 }) s

/-- The ports of a tower that are enabled train again; the others are disabled. -/
def State.portsTrain (s : State) (t : Nat) : State :=
  (List.range 8).foldl (fun s p =>
    if (s.port t p).mode = .bridge then s
    else s.portMode t p (if bit (s.reg ⟨.lnkCfg, t, 0, 0, 0⟩) p then .training else .disabled)) s

/-- The bridge on a tower loses its PCIe link, and its controller is reset. -/
def State.bridgeOff (s : State) (t : Nat) : State := if s.mod.bridge = some t then s.bridgeReset t else s

/-- The lead role passes to the other of T0 and T1 when that one runs (R434, R441). -/
def State.passLead (s : State) (t : Nat) : State :=
  if s.mod.lead = t ∧ t < 2 ∧ (s.tower (1 - t)).fence = 0 ∧ !(s.tower (1 - t)).inTower then
    s.modMod fun m => { m with lead := 1 - t }
  else s

/-- Commits and wakes of a tower that packets wait for will not come. -/
def State.abandonTower (s : State) (t : Nat) : State :=
  let ws : List Wait := [.cellar t, .pantry t, .hbm t, .dispatch t, .power t]
  (List.range 128).foldl (fun s c => (s.abandon (.array t c)).abandon (.wake t c)) (ws.foldl (fun s w => s.arrived w) s)

/-! ## Resets in progress (R368, R432) -/

/-- The tower of a reset's target. -/
def resetTower (scope target : Nat) : Nat := if scope = 0 then target / 128 else target
/-- One reset lies inside another. -/
def resetWithin (inner outer : Nat × Nat) : Bool :=
  outer.1 = 5 || inner = outer ||
  (inner.1 ≠ 5 && resetTower inner.1 inner.2 = resetTower outer.1 outer.2 && ((outer.1 = 1 && inner.1 = 0) || outer.1 = 4))
/-- The number of a reset among the waits. -/
def resetWait (scope target : Nat) : Wait :=
  .reset (if scope = 0 then target else if scope ≤ 4 then 512 + 4 * (scope - 1) + target else 528)

/-- A reset begins: one inside another that is in progress joins it, and those inside it will end with it. (DEDUCED, log entry 11.) -/
def State.beginReset (s : State) (scope target : Nat) (act : State → State) : Did :=
  match s.mod.waiting.find? fun w => resetWithin (scope, target) (w.1, w.2.1) with
  | some w => { s := s, waits := [(resetWait w.1 w.2.1).code] }
  | none =>
    let code := (resetWait scope target).code
    let old := s.mod.waiting.filter fun w => resetWithin (w.1, w.2.1) (scope, target)
    let codes := old.map fun w => (resetWait w.1 w.2.1).code
    let s1 : State :=
      { s with
        queues := s.queues.map fun q =>
          (q.1, { q.2 with
            running := q.2.running.map fun k => if k.waits.any (fun x => codes.contains x) then { k with waits := [code] } else k }) }
    { s := act (s1.modMod fun m => { m with waiting := m.waiting.filter (fun w => !old.contains w) ++ [(scope, target, m.aonStamp)] })
      waits := [code] }

/-- A reset is over: it leaves the list, and its packets complete. (DEDUCED, log entry 14.) -/
def State.finishReset (s : State) (scope target : Nat) : State :=
  (s.modMod fun m => { m with waiting := m.waiting.filter fun w => !(w.1 = scope && w.2.1 = target) }).arrived (resetWait scope target)

/-- Resets of a tower that will not end: their packets complete with RESOURCE_LOST. -/
def State.loseResets (s : State) (t : Nat) : State :=
  (s.mod.waiting.filter fun w => w.1 ≤ 4 && resetTower w.1 w.2.1 = t).foldl (fun s w =>
    (s.modMod fun m => { m with waiting := m.waiting.filter (· ≠ w) }).abandon (resetWait w.1 w.2.1)) s

/-! ## Fencing off a tower (R439-R441) -/

/-- A tower is fenced off for a cause: its dies switch off, its ports go down, its packets complete with RESOURCE_LOST, and its
budget becomes 0; T1 or T0 takes the lead role. -/
def State.fenceTower (s : State) (t cause : Nat) : State :=
  if (s.tower t).fence ≠ 0 then s
  else
    let s1 := ((((s.clearTower t).portsDown t).bridgeOff t).cutQueues t true).loseResets t
    let s2 := (s1.modTower t fun w =>
      { w with fence := cause, on := false, inTower := false, transitStop := false, hot := [], aligned := false }).fset
      pwrBudgetTowerW 0 t
    let s3 := ((s2.abandonTower t).passLead t).logEvent 0x0021 2 t [cause]
    if s3.leadsGone then s3.setHealth .failed else s3.trigger 6

/-- TOWER_RESET_TIMEOUT (R433). -/
def execTowerResetTimeout (t : Fin 4) (s : State) : Out :=
  match s.mod.waiting.find? fun w => w.1 = 4 && w.2.1 = t.val with
  | none => .next s
  | some w => .next (if w.2.2 + 2000000000 ≤ s.mod.aonStamp then s.fenceTower t 4 else s)

/-! ## The RESET command -/

/-- A queue's packet ring or completion ring is a host address (R434). -/
def State.ringsHost (s : State) (q : Nat) : Bool := isHost (s.reg (qLoc .cmdQring q)) || isHost (s.reg (qLoc .cmdQcring q))

/-- Scope and target of a RESET. -/
def rsScope (p : Packet) : Nat := pbytes p 8 1
def rsTarget (p : Packet) : Nat :=
  match rsScope p with
  | 0 => pbytes p 9 1 * 128 + pbytes p 10 1
  | 5 => 0
  | _ => pbytes p 9 1

/-- Checks of RESET (R431, R434). -/
def State.checkReset (s : State) (q : Nat) (p : Packet) : Nat × Nat :=
  let sc := rsScope p
  let t := pbytes p 9 1
  let c := pbytes p 10 1
  if sc = 5 then (0, 0)
  else
    (firstBad [if 3 < t ∨ (sc = 0 ∧ 127 < c) then stBadAddress else 0
      , if (s.tower t).fence ≠ 0 ∨ (sc = 0 ∧ (s.clu t c).absent) then stLost else 0
      , if sc = 4 ∧ s.mod.bridge = some t ∧ s.ringsHost q then stBadState else 0], 0)

/-- ATTIC begins: every cluster as for CLUSTER, soft repair, then the waves. -/
def State.atticBegin (s : State) (t : Nat) : State :=
  let s1 := (List.range 128).foldl (fun s c => s.clearCluster t c) s
  ((s1.toWaves t).repairClusters t).modTower t fun w => { w with inAttic := true }

/-- TOWER begins: the spine router stops, the tower's dies are reset and its ports are down; a lead tower passes its role on. -/
def State.towerBegin (s : State) (t : Nat) : State :=
  let s1 := ((s.clearTower t).portsDown t).bridgeOff t
  let s2 := (s1.toWaves t).repairClusters t
  ((s2.modTower t fun w => { w with inTower := true, transitStop := true }).passLead t).rehealth

/-- The default budgets (R391): the variant's module budget, a quarter of it for each tower that is not fenced off. -/
def State.defaultBudgets (s : State) : State :=
  let b := match s.mod.variant with | .x => 5600 | .s => 3200
  (List.range 4).foldl (fun s t =>
    (s.fset pwrBudgetModuleW b t).fset pwrBudgetTowerW (if (s.tower t).fence ≠ 0 then 0 else b / 4) t) s

/-- The sources of the package in the order of the strap SB_FWSRC (Table 01-4): 0 host, 1 neighbour, 2 SPI NOR. -/
def fwOrder (strap : Fin 4) : List Nat :=
  match strap.val with
  | 0 => [0]
  | 1 => [1]
  | 2 => [2]
  | _ => [2, 1, 0]

/-- Bring-up uses the valid copy of the inventory record with the higher boot_count (R428); which of two with one count is free. -/
def State.pickRecord (s : State) : State :=
  let b := s.freeB
  (s.modMod fun m =>
    { m with invCurB :=
        match m.invA, m.invB with
        | some x, some y => if x.bootCount = y.bootCount then b else decide (x.bootCount < y.bootCount)
        | none, some _ => true
        | _, _ => false }).drawn 1
/-- The record in use; none when it is missing. -/
def Module.record (m : Module) : Option Inventory := if m.invCurB then m.invB else m.invA
/-- Bring-ups that the record counts. -/
def Module.boots (m : Module) : Nat := match m.record with | some r => r.bootCount | none => 0

/-- The pair of a tower becomes the PCIe endpoint, when SB_BRIDGE_EN is high (R348). -/
def State.setBridge (s : State) (t : Nat) : State :=
  if !s.mod.straps.bridgeEn then s
  else
    let s1 := [0, 1].foldl (fun (s : State) p => s.modPort (1 - t) p fun x => { x with mode := if x.mode = .bridge then .down else x.mode }) s
    ([0, 1].foldl (fun (s : State) p => s.modPort t p fun x => { x with mode := .bridge }) s1).modMod fun m => { m with bridge := some t }

/-- Enabled ports of a tower that are not trained begin to train; trained ones stay so (R419). -/
def State.trainPorts (s : State) (t : Nat) : State :=
  (List.range 8).foldl (fun s p =>
    let m := (s.port t p).mode
    if (m = .disabled ∨ m = .down) ∧ bit (s.reg ⟨.lnkCfg, t, 0, 0, 0⟩) p then s.portMode t p .training else s) s

/-- The ROM turns to a source of the package (R419): for the host and a neighbour it locks T0's PLL, and trains the bridge pair or
T0's ports. -/
def State.openSource (s : State) (src : Nat) : State :=
  let s1 := s.modMod fun m => { m with fwSource := src, fwFail := 0, staging := none, stage := [] }
  let lock (s : State) : State := s.modMod fun m => { m with pllPhase := m.pllPhase.set 0 true }
  match src with
  | 0 => if s.mod.straps.bridgeEn then (lock s1).setBridge 0 else s1
  | 1 => (lock s1).trainPorts 0
  | _ => s1

/-- Phase 2 begins (R418, R428, R458): the record is chosen, every measurement slot is zero, and the first source is tried. -/
def State.startFirmware (s : State) : State :=
  (s.pickRecord.modMod fun m =>
    { m with phase := 1, ready := false, bootCount := m.boots + 1, verified := false, fwTried := [], meas := [], findings := none }).openSource
    ((fwOrder s.mod.straps.fwsrc).headD 2)

/-- MODULE_WARM begins: every tower is reset, and bring-up runs again from phase 2; stamps go on from the island's count (R45),
escalations end (R121), budgets return to their defaults, and the next LINK_CONFIG may assign another module ID (R466). -/
def State.warmBegin (s : State) : State :=
  let s1 := (List.range 4).foldl (fun s t => (((s.clearTower t).portsDown t).bridgeOff t).abandonTower t) s
  let s2 := (List.range 4).foldl (fun (s : State) t =>
    (s.modTower t fun w =>
      { w with stamp := BitVec.ofNat 64 s.mod.aonStamp, frac := 0#32, rate := 0, steer := 0, aligned := false
               inTower := false, transitStop := false, hot := [], suspect := false, estRun := [] }).resetRange
      t 0 0x100000000 fun r => r ≠ .lnkRoute) s1
  let s3 : State := { s2 with esc := [] }
  (s3.modMod fun m =>
    { m with warm := true, idFree := true, pllPhase := [false, false, false, false], bridge := none, bootStart := m.aonStamp
             synced := false, stepped := false, rootId := none, isRoot := false, parent := none, offsetNs := 0, transit := [], heldDb := []
             orders := [], epoch := 0#32, epochChange := false
             ovfEvent := [false, false, false, false] }).defaultBudgets.startFirmware

/-- The work of a RESET. -/
def State.workReset (q : Nat) (p : Packet) (_ : Pkt) (s : State) : Did :=
  let e := s.checkReset q p
  let x := rsTarget p
  if e.1 ≠ 0 then .fail s e.1 e.2
  else s.beginReset (rsScope p) x fun s =>
    match rsScope p with
    | 0 => s.clearCluster (x / 128) (x % 128)
    | 1 => s.atticBegin x
    | 2 => (s.clearDie x 0).modTower x fun w => { w with inCelU := true }
    | 3 => (s.clearDie x 1).modTower x fun w => { w with inCelL := true }
    | 4 => s.towerBegin x
    | _ => s.warmBegin

/-- A RESET of one scope. -/
def State.runReset (s : State) (q scope : Nat) (p : Packet) : Out :=
  .next (if rsScope p = scope then s.runPkt q 0x60 p (State.workReset q p) else s)

/-- CLUSTER_RESET. -/
def execClusterReset (q : Fin 1024) (p : Packet) (s : State) : Out := s.runReset q 0 p
/-- ATTIC_RESET. -/
def execAtticReset (q : Fin 1024) (p : Packet) (s : State) : Out := s.runReset q 1 p
/-- CELLAR_U_RESET. -/
def execCellarUReset (q : Fin 1024) (p : Packet) (s : State) : Out := s.runReset q 2 p
/-- CELLAR_L_RESET. -/
def execCellarLReset (q : Fin 1024) (p : Packet) (s : State) : Out := s.runReset q 3 p
/-- TOWER_RESET. -/
def execTowerReset (q : Fin 1024) (p : Packet) (s : State) : Out := s.runReset q 4 p
/-- MODULE_WARM. -/
def execModuleWarm (q : Fin 1024) (p : Packet) (s : State) : Out := s.runReset q 5 p

/-! ## The end of a reset -/

/-- The stamp counter that a returning tower loads (R45): the lead tower's, or the island's count where it holds the lead. -/
def State.returnStamp (s : State) (t : Nat) : W64 :=
  if s.mod.lead = t then BitVec.ofNat 64 s.mod.aonStamp else (s.tower s.mod.lead).stamp

/-- What the end of a reset of each scope does. -/
def State.resetDone (s : State) (scope target : Nat) : State :=
  match scope with
  | 1 => (s.modTower target fun w => { w with inAttic := false }).repin target 0 fun _ => true
  | 2 => (s.modTower target fun w => { w with inCelU := false }).repin target 0 fun _ => true
  | 3 => (s.modTower target fun w => { w with inCelL := false }).repin target 0 fun _ => true
  | 4 =>
    let v := s.returnStamp target
    let r := (s.tower s.mod.lead).rate
    (s.modTower target fun w =>
      { w with inTower := false, transitStop := false, stamp := v, frac := 0#32, rate := r, steer := 0, aligned := true }).portsTrain target
  | _ => s

/-- Fetches that a reset held are held no longer, but for those that another one still holds (R181). -/
def State.freeFetches (s : State) : State :=
  let still (key : Nat) (f : Nat × Nat) : Bool :=
    s.fetchHeld ⟨Fin.ofNat 4 (key / 128), Fin.ofNat 128 (key % 128), Fin.ofNat 4 (f.1 / 16), Fin.ofNat 16 (f.1 % 16)⟩
  { s with clusters := s.clusters.map fun e => (e.1, { e.2 with fetchAt := e.2.fetchAt.filter (still e.1) }) }

/-- RESET_END: the reset of a scope below MODULE_WARM finishes, once the waves that it started have. -/
def execResetEnd (scope : Nat) (t : Fin 4) (c : Fin 128) (s : State) : Out :=
  let x := if scope = 0 then cluKey t c else t.val
  if 4 < scope ∨ !(s.mod.waiting.any fun w => w.1 = scope && w.2.1 = x) ∨ ((scope = 1 ∨ scope = 4) ∧ !s.wavesDone t) then .next s
  else .next (((s.resetDone scope x).freeFetches.finishReset scope x).rehealth)

end Sys2Proof.Machine
end

