-- ==== Sys2Proof/Machine/Orders.lean ====
section
/-! DEFINITION. Orders (R362, R372, R375): the commands CONFIG, FORMAT_POLICY, POWER_BUDGET, DOMAIN_STATE and LINK_CTL, the conflicts
among them, and the dispatch tick that applies them and commits the records of the dispatchers and the health manager. -/

namespace Sys2Proof.Machine

/-- The wait of a packet for the dispatch tick that applies its orders (DEDUCED, log entry 55). -/
def waitOrder : Nat := 1077

/-- Targets of orders, each a list of numbers: module budget, tower budget, domain, field of a tag range, route, directory entry,
field of a record instance; a packet's own mark; and what safety actions act on (R375). -/
def tgtModule : List Nat := [0]
def tgtTower (t : Nat) : List Nat := [1, t]
def tgtDomain (t d : Nat) : List Nat := [2, t, d]
def tgtTags (first n i : Nat) : List Nat := [3, first, n, i]
def tgtRoute (dst : Nat) : List Nat := [4, dst]
def tgtSlot (slot : Nat) : List Nat := [5, slot]
def tgtField (r x i : Nat) : List Nat := [6, r, x, i]
def tgtMark (id : Nat) : List Nat := [9, id]
def tgtAll : List Nat := []
def tgtDie (t die : Nat) : List Nat := [7, t, die]
def tgtPower : List Nat := [8]

/-- The count of dispatch ticks so far, ⌊stamp / 200⌋ of the lead tower. -/
def State.tickNow (s : State) : Nat := s.stamp s.mod.lead / 200

/-- A safety action on a target, which beats the orders on it of its tick (R375). -/
def State.safetyOn (s : State) (target : List Nat) : State :=
  let o : Order := { target := target, value := 0, q := 0, pkt := 0, tick := s.tickNow, safety := true }
  s.modMod fun m => { m with orders := m.orders ++ [o] }

/-! ## Power budgets (R391) -/

/-- Ranges of the module budget, and the greatest tower budget, in W (R5, Table 00-1). -/
def budgetRange : Variant → Nat × Nat
  | .x => (2000, 7200)
  | .s => (1500, 3600)
def towerMost : Variant → Nat
  | .x => 2000
  | .s => 1200

/-- Values of a POWER_BUDGET. -/
def pbModule (p : Packet) : Nat := pbytes p 8 4
def pbTower (p : Packet) (t : Nat) : Nat := pbytes p (16 + 4 * t) 4

/-- The module budget and the four tower budgets that a POWER_BUDGET sets, and its clamp mask. -/
def State.budgetsOf (s : State) (p : Packet) : Nat × List Nat × Nat :=
  let v := s.mod.variant
  let m0 := pbModule p
  let m := if m0 = 0 then s.fget pwrBudgetModuleW s.mod.lead else clampN (budgetRange v).1 (budgetRange v).2 m0
  let one (t : Nat) : Nat :=
    if (s.tower t).fence ≠ 0 then 0 else if pbTower p t = 0 then s.setBudget t else clampN 370 (towerMost v) (pbTower p t)
  let own (t : Nat) : Bool := pbTower p t ≠ 0 && one t ≠ pbTower p t
  let low := [3, 2, 1, 0].foldl (fun (a : List Nat × List Nat) t =>
    let b := a.1.getD t 0
    let cut := min (a.1.sum - m) (b - 370)
    if cut = 0 then a else (a.1.set t (b - cut), a.2 ++ [t])) ((List.range 4).map one, [])
  (m, low.1, (if m0 ≠ 0 ∧ m ≠ m0 then 1 else 0) + ((List.range 4).map fun t => if own t || low.2.contains t then 2 ^ (1 + t) else 0).sum)

/-- A POWER_BUDGET takes effect. -/
def State.setBudgets (s : State) (p : Packet) : Did :=
  let b := s.budgetsOf p
  let s1 := (List.range 4).foldl (fun (s : State) t => (s.fset pwrBudgetModuleW b.1 t).fset pwrBudgetTowerW (b.2.1.getD t 0) t) s.refillAll
  { s := (List.range 4).foldl (fun s t => s.clampDuty t) s1, st := okStatus b.2.2, clamp := b.2.2 }

/-! ## Domain states (R404-R407) -/

def dsTower (p : Packet) : Nat := pbytes p 8 1
def dsKind (p : Packet) : Nat := pbytes p 9 1
def dsIndex (p : Packet) : Nat := pbytes p 10 1
def dsAction (p : Packet) : Nat := pbytes p 11 1
def dsCap (p : Packet) : Nat := pbytes p 12 4

/-- The domain of a DOMAIN_STATE: that of a logical cluster, or of a physical bay's cellar array. -/
def State.dsDomain (s : State) (p : Packet) : Nat :=
  if dsKind p = 0 then s.phys (dsTower p) (dsIndex p) else dsKind p * 256 + dsIndex p

/-- A cluster has a team or queued or running work (R404). -/
def State.occupied (s : State) (t c : Nat) : Bool :=
  let x := s.clu t c
  x.team.isSome || !x.arr.queue.isEmpty || (x.arr.bins.any fun b => b.2.run.isSome) || !x.hatchQ.isEmpty || !x.hatchRun.isEmpty ||
  !x.nrmQ.isEmpty || x.nrmRun.isSome || (List.range 4).any fun e => !(s.te t c e).qcv.isEmpty || (s.te t c e).qcvRun.isSome

/-- Checks of DOMAIN_STATE. -/
def State.checkDomain (s : State) (_q : Nat) (p : Packet) : Nat × Nat :=
  let t := dsTower p
  let i := dsIndex p
  let off := decide (dsAction p = 1)
  (firstBad [if 3 < t ∨ (dsKind p = 0 ∧ 127 < i) ∨ 135 < i then stBadAddress else 0
    , if (s.tower t).fence ≠ 0 ∨ (dsKind p = 0 ∧ (s.clu t i).absent) then stLost else 0
    , if dsKind p = 0 then (if off && s.occupied t i then stBadState else 0)
      else if off && s.priv t (dsKind p - 1) ≠ 12 then stBadState else 0], 0)

/-- The least cap of a domain: its standing current in 1/16 A. -/
def State.leastCap (s : State) (p : Packet) : Nat := if dsKind p = 0 then cdiv (s.standing160 (dsTower p) (dsIndex p)) 10 else 0

/-- The cap that a DOMAIN_STATE sets; 0 removes it. -/
def State.newCap (s : State) (p : Packet) : Nat :=
  let hw := s.hwCap (dsTower p) (s.dsDomain p)
  if dsCap p = 0 then 0 else clampN (s.leastCap p) hw (dsCap p)

/-- The state of a domain as a number by which the more restrictive order is the smaller one. -/
def State.dsValue (s : State) (p : Packet) : Nat :=
  match dsAction p with
  | 1 => 0
  | 2 => if dsCap p = 0 then 2 ^ 31 else 1 + s.newCap p
  | _ => 2 ^ 32

/-- A cluster is switched off with retention; a wake that it waited for will not come. -/
def State.switchOff (s : State) (t c : Nat) : State :=
  let s1 := if (s.tower t).hot.contains c ∨ (s.clu t c).dom = .waking then s.abandon (.wake t c) else s
  ((s1.clearCluster t c).modTower t fun w => { w with hot := w.hot.filter (· ≠ c) }).modClu t c fun x =>
    { x with dom := .retention, halfSlope := false }

/-- A numbers list kept in rising order. -/
def insertUp (x : Nat) : List Nat → List Nat
  | [] => [x]
  | y :: ys => if x < y then x :: y :: ys else if x = y then y :: ys else y :: insertUp x ys

/-- The DOMAIN_STATE actions. -/
def State.domainOn (s : State) (p : Packet) : Did :=
  let t := dsTower p
  let i := dsIndex p
  if dsKind p ≠ 0 then { s := s.wakeDie t (dsKind p - 1) i }
  else
    match (s.clu t i).dom with
    | .on => { s := s }
    | .waking => { s := s, waits := [(Wait.wake t i).code] }
    | _ => { s := s.modTower t fun w => { w with hot := insertUp i w.hot }, waits := [(Wait.wake t i).code] }
def State.domainOff (s : State) (p : Packet) : Did :=
  let t := dsTower p
  let i := dsIndex p
  if dsKind p = 0 then { s := s.switchOff t i }
  else { s := s.modTower t fun w => { w with domRet := insertUp ((dsKind p - 1) * 136 + i) w.domRet } }
def State.domainCap (s : State) (p : Packet) : Did :=
  let t := dsTower p
  let d := s.dsDomain p
  let cap := s.newCap p
  let clamp := if cap = dsCap p then 0 else 1
  let s1 := s.modTower t fun w =>
    { w with domCap := SMap.put 0 w.domCap d cap
             grants := w.grants.map fun g => if cap ≠ 0 ∧ g.req.domain.toNat = d then { g with granted := min g.granted cap } else g }
  { s := s1.clampDuty t, st := okStatus clamp, clamp := clamp }

/-- A DOMAIN_STATE takes effect; what it needs is checked again at the tick. -/
def State.setDomain (s : State) (q : Nat) (p : Packet) : Did :=
  let e := s.checkDomain q p
  if e.1 ≠ 0 then .fail s e.1 e.2
  else match dsAction p with
    | 0 => s.domainOn p
    | 1 => s.domainOff p
    | _ => s.domainCap p

/-! ## Routes, directory and retraining (R329, R334, R349) -/

def lcAction (p : Packet) : Nat := pbytes p 8 1
def lcSlot (p : Packet) : Nat := pbytes p 9 1
def lcId (p : Packet) : Nat := pbytes p 10 2

/-- The entry of a route without its reserved bits. -/
def lcRoute (p : Packet) : W64 := BitVec.ofNat 64 (pbytes p 12 4) &&& 0x83FFFFFF#64
/-- The directory entry. -/
def lcEntry (p : Packet) : W64 :=
  setFld (setFld (setFld 0#64 63 63 (pbytes p 12 1 % 2)) 59 48 (lcId p)) 47 26 (pbytes p 16 8 / 2 ^ 26)

/-- Tower and port of a retraining. -/
def lcPort (p : Packet) : Nat × Nat := (pbytes p 9 1 / 8 % 4, pbytes p 9 1 % 8)

/-- Checks of LINK_CTL. (DEDUCED, log entry 96.) -/
def State.checkLink (s : State) (_q : Nat) (p : Packet) : Nat × Nat :=
  match lcAction p with
  | 0 => (if 4095 < lcId p then stBadAddress else 0, 0)
  | 1 => (firstBad [if 4095 < lcId p ∨ lcSlot p = 0 ∨ 63 < lcSlot p then stBadAddress else 0, if s.mod.bridge.isNone then stBadState else 0], 0)
  | _ =>
    let e := lcPort p
    let m := (s.port e.1 e.2).mode
    (if (s.tower e.1).fence ≠ 0 then stLost else if m = .disabled ∨ m = .bridge then stBadState else 0, 0)

/-- A route or directory entry changes in every tower's copy. -/
def State.setLink (s : State) (q : Nat) (p : Packet) : Did :=
  let e := s.checkLink q p
  if e.1 ≠ 0 then .fail s e.1 e.2
  else match lcAction p with
    | 0 => { s := (List.range 4).foldl (fun s t => s.setReg ⟨.lnkRoute, t, 0, lcId p, 0⟩ (lcRoute p)) s }
    | _ => { s := match s.mod.bridge with | some t => s.setReg ⟨.brgDir, t, 0, lcSlot p, 0⟩ (lcEntry p) | none => s }

/-! ## Guard policy (R131) -/

def fpFirst (p : Packet) : Nat := pbytes p 8 2
def fpLast (p : Packet) : Nat := pbytes p 10 2
def fpCount (p : Packet) : Nat := pbytes p 12 1
/-- The clamped fields of a FORMAT_POLICY, and the mask of those that a clamp changed. -/
def fpFields (p : Packet) : List Nat := (List.range (fpCount p)).map fun i => (clampPolicy i (pbytes p (16 + 4 * i) 4)).1
def fpClamp (p : Packet) : Nat := ((List.range (fpCount p)).map fun i => if (clampPolicy i (pbytes p (16 + 4 * i) 4)).2 then 2 ^ i else 0).sum

/-- The entries of a range of layer tags (R120): the first, and how many in ascending order modulo 4,096; tag 0xFFFF has none. -/
def tagRange (first last : Nat) : Nat × Nat := (first % 4096, min 4096 (min last 0xFFFE + 1 - first))
def tagList (first last : Nat) : List Nat := (List.range (tagRange first last).2).map fun i => (first + i) % 4096

/-- Checks of FORMAT_POLICY. -/
def State.checkFormat (_s : State) (_q : Nat) (p : Packet) : Nat × Nat :=
  (firstBad [if 9 < fpCount p then stBadLength else 0, if fpLast p < fpFirst p then stBadAddress else 0], 0)

/-- A FORMAT_POLICY is handed to the health manager, entry by entry. -/
def State.setFormat (s : State) (p : Packet) : Did :=
  let es := (tagList (fpFirst p) (fpLast p)).map fun i => (i, fpFields p)
  { s := { s with policyStaged := s.policyStaged ++ es }, st := configStatus (fpClamp p) (fpCount p) 9, clamp := fpClamp p
    waits := [Wait.guard.code] }

/-- GUARD_POLICY_COMMIT (R132): the health manager applies what was staged. -/
def execGuardPolicyCommit (s : State) : Out :=
  let s1 := s.policyStaged.foldl (fun s e => s.applyPolicy e.1 e.2) s
  .next (({ s1 with policyStaged := [] } : State).arrived .guard)

/-! ## CONFIG -/

/-- A CONFIG takes effect on its owners' staged copies; it waits for their commits. -/
def State.setConfig (s : State) (q : Nat) (p : Packet) : Did :=
  let (clamp, waits, s1) := s.applyRecord q p
  if waits = [] then .fail s stLost
  else { s := s1, st := configStatus clamp (gCount p) (recFields (gRec p)).length, detail := s.configDetail p, clamp := clamp, waits := waits }

/-! ## What a packet orders -/

/-- Checks 6 and 7 of the packets that give orders. -/
def State.checkOrder (s : State) (q : Nat) (p : Packet) : Nat × Nat :=
  match hOpcode p with
  | 0x40 => s.checkConfig q p
  | 0x42 => s.checkFormat q p
  | 0x52 => s.checkDomain q p
  | 0x90 => s.checkLink q p
  | _ => (0, 0)

/-- The orders of a packet: targets and the values after their own clamps. -/
def State.ordersOf (s : State) (q : Nat) (p : Packet) : List (List Nat × Nat) :=
  match hOpcode p with
  | 0x40 =>
    let r := gRec p
    let xs := if recTower r then (s.maskTowers (gMask p)).1 else if r = recQueue then [gInst p] else [0]
    xs.flatMap fun x => (gFields p).zipIdx.map fun e =>
      (tgtField r x e.2, if recTower r then s.ownClamp q r x 0 e.2 e.1 else s.ownClamp q r (qTower x) x e.2 e.1)
  | 0x42 => (fpFields p).zipIdx.map fun e => (tgtTags (tagRange (fpFirst p) (fpLast p)).1 (tagRange (fpFirst p) (fpLast p)).2 e.2, e.1)
  | 0x50 =>
    let b := budgetRange s.mod.variant
    (if pbModule p = 0 then [] else [(tgtModule, clampN b.1 b.2 (pbModule p))]) ++
      ((List.range 4).filter fun t => pbTower p t ≠ 0 && (s.tower t).fence = 0).map fun t =>
        (tgtTower t, clampN 370 (towerMost s.mod.variant) (pbTower p t))
  | 0x52 => [(tgtDomain (dsTower p) (s.dsDomain p), s.dsValue p)]
  | 0x90 => if lcAction p = 0 then [(tgtRoute (lcId p), (lcRoute p).toNat)] else [(tgtSlot (lcSlot p), (lcEntry p).toNat)]
  | _ => []

/-- The start of a packet that gives orders: they are accepted, and wait for the dispatch tick. -/
def State.workOrder (q : Nat) (p : Packet) (k : Pkt) (s : State) : Did :=
  let e := s.checkOrder q p
  if e.1 ≠ 0 then .fail s e.1 e.2
  else
    let mk (x : List Nat × Nat) : Order := { target := x.1, value := x.2, q := q, pkt := k.id, tick := s.tickNow, safety := false }
    { s := s.modMod fun m => { m with orders := m.orders ++ (s.ordersOf q p ++ [(tgtMark k.id, 0)]).map mk }, waits := [waitOrder] }

/-- CONFIG. -/
def execConfigCmd (q : Fin 1024) (p : Packet) (s : State) : Out := .next (s.runPkt q 0x40 p (State.workOrder q p))
/-- FORMAT_POLICY. -/
def execFormatPolicy (q : Fin 1024) (p : Packet) (s : State) : Out := .next (s.runPkt q 0x42 p (State.workOrder q p))
/-- POWER_BUDGET. -/
def execPowerBudget (q : Fin 1024) (p : Packet) (s : State) : Out := .next (s.runPkt q 0x50 p (State.workOrder q p))

/-- A DOMAIN_STATE of one action. -/
def State.runDomain (s : State) (q action : Nat) (p : Packet) : Out :=
  .next (if dsAction p = action then s.runPkt q 0x52 p (State.workOrder q p) else s)
/-- DOMAIN_STATE_ON. -/
def execDomainStateOn (q : Fin 1024) (p : Packet) (s : State) : Out := s.runDomain q 0 p
/-- DOMAIN_STATE_OFF. (DEDUCED, log entry 17.) -/
def execDomainStateOff (q : Fin 1024) (p : Packet) (s : State) : Out := s.runDomain q 1 p
/-- DOMAIN_STATE_CAP. -/
def execDomainStateCap (q : Fin 1024) (p : Packet) (s : State) : Out := s.runDomain q 2 p

/-- The work of LINK_CTL: a retraining sets no target of R375 and starts at once. -/
def State.workLinkCtl (q : Nat) (p : Packet) (k : Pkt) (s : State) : Did :=
  if lcAction p ≤ 1 then State.workOrder q p k s
  else
    let e := s.checkLink q p
    if e.1 ≠ 0 then .fail s e.1 e.2 else { s := s.retrain (lcPort p).1 (lcPort p).2 }
/-- LINK_CTL. -/
def execLinkCtl (q : Fin 1024) (p : Packet) (s : State) : Out := .next (s.runPkt q 0x90 p (State.workLinkCtl q p))

/-! ## Conflicts (R375) -/

/-- A safety action's target, or another order's, meets the target of an order. (DEDUCED, log entry 9.) -/
def meets (x o : List Nat) : Bool :=
  match x, o with
  | [], 9 :: _ => false
  | [], _ => true
  | [3, a, n, i], [3, c, m, j] => i = j && decide ((c + 4096 - a) % 4096 < n ∨ (a + 4096 - c) % 4096 < m)
  | [7, t, die], [2, u, d] => t = u && dieOfDom d = some die
  | [8], [0] => true
  | [8], [1, _] => true
  | [8], [2, _, _] => true
  | x, y => x = y

/-- Two orders of one tick that conflict. -/
def clash (x o : Order) : Bool :=
  !o.safety && x.tick = o.tick && (x.safety || x.pkt ≠ o.pkt) && meets x.target o.target && (x.safety || x.value ≠ o.value)

/-- Budgets and domain states. -/
def isPowerTgt (t : List Nat) : Bool := match t with | [0] => true | [1, _] => true | [2, _, _] => true | _ => false
/-- The targets on which the management block has precedence. -/
def isMgmtTgt (t : List Nat) : Bool := isPowerTgt t || match t with | 6 :: r :: _ => r = recPower || r = recHealth | _ => false

/-- The start stamp of a running packet. -/
def State.startOf (s : State) (id : Nat) : Nat := match s.running? id with | some e => e.2.start | none => 0

/-- Of two conflicting orders the first beats the second. -/
def State.beats (s : State) (x o : Order) : Bool :=
  let mx := s.qMaster x.q = 1
  let mo := s.qMaster o.q = 1
  let later :=
    let a := s.startOf x.pkt
    let b := s.startOf o.pkt
    if a ≠ b then decide (b < a) else if x.q ≠ o.q then decide (o.q < x.q) else decide (o.pkt < x.pkt)
  if x.safety then true
  else if isMgmtTgt o.target ∧ mx ≠ mo then mx
  else if isPowerTgt o.target ∧ x.value ≠ o.value then decide (x.value < o.value)
  else later

/-- Orders whose tick has passed; those of packets that no longer run have gone. -/
def State.dueOrders (s : State) : List Order :=
  s.mod.orders.filter fun o => decide (o.tick < s.tickNow) && (o.safety || (s.running? o.pkt).isSome)

/-- The orders that beat some order of a packet. -/
def State.winners (s : State) (due : List Order) (id : Nat) : List Order :=
  due.filter fun x => due.any fun o => o.pkt = id && clash x o && s.beats x o

/-- The strongest of the winners: a safety action, else the one that no other of them beats. -/
def State.winner (s : State) : List Order → Option Order
  | [] => none
  | w :: ws => some (ws.foldl (fun a x => if a.safety then a else if s.beats x a then x else a) w)

/-- The detail of SUPERSEDED. -/
def State.winDetail (s : State) (w : Order) : Nat :=
  if w.safety then 0xFFFFFFFF else w.q * 2 ^ 16 + match s.running? w.pkt with | some e => hTag e.2.words | none => 0

/-- The orders of a packet are applied. -/
def State.applyOrders (s : State) (id : Nat) : State :=
  match s.running? id with
  | none => s
  | some (q, k) =>
    let p := k.words
    s.settleWork q k
      (match hOpcode p with
       | 0x40 => s.setConfig q p
       | 0x42 => s.setFormat p
       | 0x50 => s.setBudgets p
       | 0x52 => s.setDomain q p
       | _ => s.setLink q p)

/-! ## Commits of the dispatch tick -/

/-- A queue as its enable bit changes (R355, R374). (DEDUCED, log entry 130.) -/
def Queue.turned (y : Queue) (was on : Bool) : Queue :=
  if was && !on then { y with next := none, heldC7 := false, runNext := false, bells := [] }
  else if !was && on then { y with head := 0#32, tail := 0#32, ctail := 0#32, chead := 0#32, bells := [], next := none, remote := [] }
  else y

/-- The dispatchers' staged values of a tower become active. -/
def State.commitCmd (s : State) (t : Nat) : State :=
  if !s.commitPending .cmdCommit t 0 then s
  else
    let on (s : State) (q : Nat) : Bool := s.qget cmdQcfgEnable q = 1
    let s1 := s.commitDone .cmdCommit t 0
    let s2 := (List.range 255).foldl (fun a i =>
      let q := t * 256 + i
      if on s q = on s1 q then a
      else
        let b := match (a.queue q).next with | some k => a.modTower t fun w => w.forgetPkt k.id | none => a
        b.modQueue q fun y =>
          y.turned (on s q) (on s1 q)) s1
    s2.arrived (.dispatch t)

/-- The cause of a sticky trigger still holds (Table 14-6). -/
def State.causeHolds (s : State) (i : Nat) : Bool :=
  let ts := List.range 4
  let lostMany (d n : Nat) : Bool :=
    match s.mod.variant with
    | .x => decide (d < 0x100 ∧ 2 ≤ n)
    | .s => decide (d < 0x100 ∧ 1 ≤ n) || decide (0x330 ≤ d ∧ 2 ≤ n)
  match i with
  | 0 => ts.any fun t => (s.absents t).any fun c => s.spare t (gridRow c) ≠ 0xFF
  | 1 => ts.any fun t => (List.range 136).any fun b => decide (819 < (s.sparesUsed t 0 b).length + (s.sparesUsed t 1 b).length)
  | 2 => ts.any fun t => (List.range 8).any fun p => (s.port t p).badLanes ≠ 0#8 || (s.port t p).half || (s.port t p).mode = .down
  | 3 => ts.any fun t => (List.range 8).any fun h => s.reg ⟨.hbmChanFail, t, 0, h, 0⟩ ≠ 0#64
  | 4 => ts.any fun t => (s.tower t).phasesLost.any fun e => lostMany e.1 e.2
  | 5 => decide (s.mod.ceWindows ≤ s.mod.ceOver)
  | 6 => ts.any fun t => (s.tower t).fence ≠ 0
  | _ => false

/-- Sticky triggers whose cause no longer holds are cleared (Table 14-7, field 4). -/
def State.clearTriggers (s : State) : State :=
  let m := (List.range 8).foldl (fun (m : BitVec 14) i => if s.causeHolds i then m else m &&& ~~~(1#14 <<< i)) s.mod.sticky
  (s.modMod fun x => { x with sticky := m }).rehealth

/-- One field of HEALTH_POLICY becomes active. -/
def State.putHealth (s : State) (i v : Nat) : State :=
  match i with
  | 0 => s.modMod fun m => { m with ceThreshold := v }
  | 1 => s.modMod fun m => { m with ceWindows := v }
  | 2 => (s.modMod fun m => { m with nextTest := v }).writeInventory
  | 3 => s.modMod fun m => { m with fenceMask := v }
  | _ => if v % 2 = 1 then s.clearTriggers else s

/-- The health manager's staged record becomes active. -/
def State.commitHealth (s : State) : State :=
  let s1 := s.mod.healthStaged.foldl (fun s e => s.putHealth e.1 e.2) s
  (s1.modMod fun m => { m with healthStaged := [] }).arrived (.dispatch s.mod.lead)

/-- DISPATCH_TICK (R375, R372): the conflicts of the orders accepted before are resolved, the others apply in the order of their
acceptance, what the dispatchers and the health manager own commits, and commands that waited too long become run next. -/
def execDispatchTick (s : State) : Out :=
  if !s.mod.ready then .next s
  else
    let due := s.dueOrders
    let ids := ((due.filter fun o => !o.safety).map fun o => o.pkt).dedup
    let pairs := (due.zipIdx.map fun e => ((due.drop (e.2 + 1)).filter fun o => clash e.1 o || clash o e.1).length).sum
    let lost := ids.filterMap fun i => (s.winner (s.winners due i)).map fun w => (i, w)
    let rest := s.mod.orders.filter fun o => decide (s.tickNow ≤ o.tick)
    let s1 := (s.modMod fun m => { m with orders := rest }).bump cmdArbConflicts pairs s.mod.lead
    let det := lost.map fun e => (e.1, e.2, s.winDetail e.2)
    let s2 := det.foldl (fun (s : State) e =>
      (s.stopPkt ((s.running? e.1).elim 0 fun x => x.1) e.1 stSuperseded e.2.2).bump cmdArbSuperseded 1 s.mod.lead) s1
    let s3 := (ids.filter fun i => !(lost.any fun e => e.1 = i)).foldl (fun s i => s.applyOrders i) s2
    let s4 := ((List.range 4).foldl (fun s t => s.commitCmd t) s3).commitHealth
    .next ((s4.queues.map fun e => e.1).foldl (fun s q => s.markNext q) s4)

end Sys2Proof.Machine
end

