-- ==== Sys2Proof/Machine/Reports.lean ====
section
/-! DEFINITION. The commands that report: QUERY, POWER_QUERY, TELEMETRY, LOG_READ (R141, R370, R417, R464, R465), and CVU_SET and
CVU_GET (R445, R446). -/

namespace Sys2Proof.Machine

/-- n bytes with fields at offsets: offset, width in bytes, value. -/
def layout (n : Nat) (fs : List (Nat × Nat × Nat)) : List Byte :=
  leBytes n ((fs.map fun f => f.2.2 % 256 ^ f.2.1 * 256 ^ f.1).sum)

/-- Records written as a reply: the address check of what fits, then the bytes (R370). (DEDUCED, log entry 95.) -/
def State.sendReply (s : State) (q : Nat) (k : Pkt) (a : W64) (cap : Nat) (recs : List (List Byte)) : Did :=
  let n := min cap (recs.map List.length).sum
  let st := if n = 0 then 0 else s.crange (qTower q) a n
  if st ≠ 0 then .fail s st else s.replyRecords (s.cmdAgent q k) a cap recs

/-! ## QUERY -/

/-- Bits of a tower's ports that pass a test. -/
def State.portBits (s : State) (t : Nat) (p : Port → Bool) : Nat := ((List.range 8).map fun i => if p (s.port t i) then 2 ^ i else 0).sum

/-- Failed HBM channels of a tower. -/
def State.failedChannels (s : State) (t : Nat) : Nat := ((List.range 8).map fun h => popN 64 (s.reg ⟨.hbmChanFail, t, 0, h, 0⟩).toNat).sum

/-- Free spare clusters of a tower. -/
def State.freeSpares (s : State) (t : Nat) : Nat := ((List.range 8).filter fun r => s.spare t r = 0xFF).length

/-- A tower's 16 bytes of the module reply; a fenced tower's read 0. -/
def State.queryTower (s : State) (t : Nat) : List (Nat × Nat × Nat) :=
  if (s.tower t).fence ≠ 0 then []
  else
    let gone := (s.absents t).length
    let o := 32 + 16 * t
    [(o, 1, 128 - gone), (o + 1, 1, gone), (o + 2, 1, s.freeSpares t), (o + 3, 1, s.portBits t fun x => x.mode = .up)
      , (o + 4, 1, s.portBits t fun x => x.half), (o + 5, 1, s.granules t), (o + 6, 2, s.failedChannels t), (o + 8, 4, 512 - 2 * s.failedChannels t)]

/-- The module reply of QUERY (Table 12-6). -/
def State.queryModule (s : State) (q : Nat) : List Byte :=
  let m := s.mod
  let v := m.variant
  let fenced := towerBits fun t => (s.tower t).fence ≠ 0
  layout 128 ([(0, 2, 1), (2, 1, if v = .x then 0 else 1), (3, 1, m.health.code), (4, 2, match m.moduleId with | some i => i.toNat | none => 0xFFFF)
    , (6, 1, m.lead), (7, 1, (15 - fenced) + 16 * fenced), (8, 4, s.fget pwrBudgetModuleW m.lead), (12, 2, (budgetRange v).1)
    , (14, 2, (budgetRange v).2), (16, 8, s.stamp (qTower q)), (24, 1, m.pcieRate % 8 + m.pcieWidth % 8 * 8)] ++
    (List.range 4).flatMap s.queryTower)

/-- The work of QUERY; its detail holds the bytes written. -/
def State.workQuery (q : Nat) (p : Packet) (k : Pkt) (s : State) : Did :=
  let cap := pbytes p 24 4
  if pbytes p 16 1 = 0 then
    if cap < 128 then .fail s stBadLength
    else
      let d := s.sendReply q k (wordAt p 1) cap [s.queryModule q]
      if d.st = stOK then { d with detail := 128 } else d
  else
    let v := s.recordValues (pbytes p 18 2) (pbytes p 17 1) (pbytes p 20 2)
    if v.1 ≠ 0 then .fail s v.1
    else
      let d := s.sendReply q k (wordAt p 1) cap (v.2.map fun x => leBytes 4 x)
      if d.st ≤ stPartial then { d with detail := 4 * d.detail } else d

/-- QUERY. -/
def execQuery (q : Fin 1024) (p : Packet) (s : State) : Out := .next (s.runPkt q 0x41 p (State.workQuery q p))

/-! ## POWER_QUERY -/

/-- Watts of a power in mW, and whole mJ. -/
def watts (mw : ℚ) : Nat := (mw / 1000).floor.toNat

/-- A tower's power record (Table 13-10); zeros for a fenced one. -/
def State.powerRecord (s : State) (t : Nat) : List Byte :=
  let w := s.tower t
  if w.fence ≠ 0 then List.replicate 64 0#8
  else
    layout 64 [(0, 4, s.setBudget t), (4, 4, watts (s.effectiveMw t)), (8, 4, watts (s.grantedMw t)), (12, 4, w.drawnW), (16, 4, w.peakW)
      , (20, 4, watts (s.reserveMw t)), (24, 4, (s.reserveNow t).floor.toNat), (28, 2, w.derate), (30, 2, min 65535 w.grantQ.length)
      , (32, 1, degC (w.temp 0)), (33, 1, degC (w.temp 1)), (34, 1, degC (w.temp 2)), (35, 1, degC (w.temp 3)), (36, 1, degC (w.temp 4))
      , (37, 1, nb (s.throttled t) + 2 * nb (w.halvedDies ≠ []) + 4 * nb w.suspect + 8 * nb (w.runNextIds ≠ []))
      , (38, 2, ((List.range 128).filter fun c => !(s.clu t c).absent && (s.clu t c).dom = .retention).length)
      , (40, 2, (w.phasesLost.map fun e => e.2).sum), (42, 2, min 65535 w.guards)]

/-- The header of the power report. The input voltage and current are measurements (DESIGN CHOICE, log entry 2); a stop is pending while the
input lies below 9.6 V (R410). -/
def State.powerHeader (s : State) (q : Nat) : List Byte :=
  layout 32 [(0, 2, 1), (2, 1, if s.mod.variant = .x then 0 else 1), (3, 1, nb s.mod.sagged + 2 * nb (s.mod.sagged && decide (s.mod.vinMv < 9600)))
    , (4, 4, s.fget pwrBudgetModuleW s.mod.lead), (8, 4, s.free1), (12, 4, Config.freeNat (s.free + 1))
    , (16, 4, ((List.range 4).map fun t => (s.tower t).drawnW).sum), (20, 4, s.mod.sagCount), (24, 8, s.stamp (qTower q))]

/-- The work of POWER_QUERY. -/
def State.workPowerQuery (q : Nat) (p : Packet) (k : Pkt) (s : State) : Did :=
  if pbytes p 16 4 < 288 then .fail s stBadLength
  else
    let d := s.sendReply q k (wordAt p 1) 288 [s.powerHeader q ++ (List.range 4).flatMap s.powerRecord]
    { d with s := d.s.drawn 2, detail := if d.st = stHeld then d.detail else 0 }

/-- POWER_QUERY. -/
def execPowerQuery (q : Fin 1024) (p : Packet) (s : State) : Out := .next (s.runPkt q 0x51 p (State.workPowerQuery q p))

/-! ## TELEMETRY -/

/-- A guard record (Table 04-3) of a tag entry on a tower; zeros for a fenced one. -/
def State.guardRecord (s : State) (t tag : Nat) : List Byte :=
  if (s.tower t).fence ≠ 0 then List.replicate 256 0#8
  else
    let y := s.tag t tag
    let g := s.pol tag
    let e := s.escOf tag
    let flags := g.mode % 4 + 4 * nb (e = .escalated || e = .releasePending) + 8 * nb (e = .pending) + 16 * nb (e = .releasePending) + 32 * nb y.ovf +
      64 * nb (g.shadowLog2 ≠ 0)
    let eight (o : Nat) (l : List Nat) : List (Nat × Nat × Nat) := l.zipIdx.map fun v => (o + 8 * v.2, 8, v.1)
    layout 256 ([(0, 2, tag), (2, 2, flags), (4, 2, y.badRun), (6, 2, y.reports), (8, 4, y.lastSqnr.toNat), (12, 4, y.invocations)] ++
      eight 16 [y.q.getD 0 0, y.qEnergy.toNat, y.qError.toNat, y.q.getD 1 0, y.q.getD 2 0, y.q.getD 3 0, y.s.getD 0 0, y.sEnergy.toNat
        , y.sError.toNat, y.s.getD 1 0, y.s.getD 2 0, y.d.getD 0 0, y.d.getD 1 0, y.d.getD 2 0, y.oClips, y.ovfCount, y.ovfStamp.toNat
        , y.escStamp.toNat, y.shChunks, y.shSkipped] ++
      ((List.range 16).map fun i => (176 + 4 * i, 4, SMap.get 0 y.hist i)) ++
      [(240, 1, match y.native with | some f => f % 16 | none => 0x80), (248, 8, y.mismatch)])

/-- Towers of a mask. -/
def maskList (m : Nat) : List Nat := (List.range 4).filter fun t => m / 2 ^ t % 2 = 1

/-- The records that a TELEMETRY names, in order: entry and tower, or tower. -/
def telemetryNames (p : Packet) : List (Nat × Nat) :=
  let ts := maskList (pbytes p 17 1 % 16)
  if pbytes p 16 1 = 0 then (tagList (pbytes p 18 2) (pbytes p 20 2)).flatMap fun g => ts.map fun t => (t, g) else ts.map fun t => (t, 0)

/-- Checks of TELEMETRY. -/
def State.checkTelemetry (_s : State) (_q : Nat) (p : Packet) : Nat × Nat :=
  (if pbytes p 16 1 = 0 ∧ pbytes p 20 2 < pbytes p 18 2 then stBadAddress else 0, 0)

/-- A record that was written is cleared (R141, R417). -/
def State.clearRecord (s : State) (guard : Bool) (e : Nat × Nat) : State :=
  if (s.tower e.1).fence ≠ 0 then s
  else if guard then s.modTag e.1 e.2 TagEntry.clearStats
  else s.modTower e.1 fun w => { w with peakW := 0, guards := 0 }

/-- The work of TELEMETRY; its detail holds the records written, and the clear flag clears those. -/
def State.workTelemetry (q : Nat) (p : Packet) (k : Pkt) (s : State) : Did :=
  let c := s.checkTelemetry q p
  let guard := decide (pbytes p 16 1 = 0)
  let names := telemetryNames p
  if c.1 ≠ 0 then .fail s c.1
  else
    let d := s.sendReply q k (wordAt p 1) (pbytes p 24 4) (names.map fun e => if guard then s.guardRecord e.1 e.2 else s.powerRecord e.1)
    if stPartial < d.st ∨ hFlags p % 2 = 0 then d
    else { d with s := (names.take d.detail).foldl (fun s e => s.clearRecord guard e) d.s }

/-- TELEMETRY. -/
def execTelemetry (q : Fin 1024) (p : Packet) (s : State) : Out := .next (s.runPkt q 0x80 p (State.workTelemetry q p))

/-! ## LOG_READ (R464, R465) -/

/-- The 32 bytes of a log entry (Table 15-6). -/
def LogEnt.bytes (e : LogEnt) : List Byte :=
  layout 32 ([(0, 4, e.seq), (4, 2, e.code), (6, 1, e.severity), (7, 1, e.source % 4), (8, 8, e.stamp.toNat)] ++
    e.detail.zipIdx.map fun d => (16 + 4 * d.2, 4, d.1.toNat))

/-- The work of LOG_READ; from the management queue it acknowledges the last entry written. -/
def State.workLogRead (q : Nat) (p : Packet) (k : Pkt) (s : State) : Did :=
  let cap := pbytes p 24 4
  if cap < 32 then .fail s stBadLength
  else
    let es := s.mod.log.filter fun e => decide ((wordAt p 2).toNat ≤ e.seq)
    let d := s.sendReply q k (wordAt p 1) cap (es.map LogEnt.bytes)
    if stPartial < d.st ∨ s.qMaster q ≠ 1 then d
    else match (es.take d.detail).getLast? with
      | some e => { d with s := d.s.ackLog e.seq }
      | none => d

/-- LOG_READ. -/
def execLogRead (q : Fin 1024) (p : Packet) (s : State) : Out := .next (s.runPkt q 0x81 p (State.workLogRead q p))

/-! ## CVU_SET and CVU_GET (R445, R446) -/

/-- Register unit of the check-value unit that a packet names. -/
def cuUnit (p : Packet) : Nat :=
  match pbytes p 8 1 with
  | 0 => pbytes p 10 1
  | 1 => 128 + pbytes p 10 1
  | _ => 136

/-- Checks 1 and 2 of R445. -/
def State.checkCvu (s : State) (_q : Nat) (p : Packet) : Nat × Nat :=
  let k := pbytes p 8 1
  let t := pbytes p 9 1
  let i := pbytes p 10 1
  (firstBad [if 7 < pbytes p 11 1 ∨ 3 < t ∨ (k = 0 ∧ 127 < i) ∨ (k = 1 ∧ 7 < i) ∨ (k = 2 ∧ (2 ≤ t ∨ i ≠ 0)) then stBadAddress else 0
    , if (s.tower t).fence ≠ 0 ∨ (k = 0 ∧ (s.clu t i).absent) then stLost else 0], 0)

/-- Write fields of a register, active and staged alike. -/
def State.setBoth (s : State) (l : Loc) (fs : List (Fld × Nat)) : State := (s.setReg l (ov (s.reg l) fs)).setStg l (ov (s.stg l) fs)

/-- The work of CVU_SET: its fields, clamped; a context in compatibility mode ignores those that its code fixes (R444). -/
def State.workCvuSet (q : Nat) (p : Packet) (_ : Pkt) (s : State) : Did :=
  let c := s.checkCvu q p
  if c.1 ≠ 0 then .fail s c.1
  else
    let t := pbytes p 9 1
    let u := cuUnit p
    let i := pbytes p 11 1
    let f := pbytes p 13 1
    let compat := f / 16 % 2 = 1
    let w0 := pbytes p 12 1
    let w := if compat then (crcCompat (f / 4 % 4)).w else cvuWidth w0
    let poly := pbytes p 16 8
    let val := pbytes p 24 8
    let xo := pbytes p 32 8
    let ex := pbytes p 40 8
    let tally := pbytes p 49 1
    let high (x : Nat) : Bool := 2 ^ w ≤ x
    let clamp := (if !compat && cvuWidth w0 ≠ w0 then 1 else 0) + (if !compat && high poly then 2 else 0) + (if high val then 4 else 0) +
      (if !compat && high xo then 8 else 0) + (if high ex then 16 else 0) + (if 127 < tally then 32 else 0)
    let own : List (Fld × Nat) := if compat then [] else [(cvuCtlRefin, f % 2), (cvuCtlRefout, f / 2 % 2), (cvuCtlWidth, w)]
    let s1 := s.setBoth ⟨.cvuCtl, t, u, i, 0⟩ (own ++ [(cvuCtlCompat, f / 16 % 2), (cvuCtlCompatCode, f / 4 % 4), (cvuCtlCheck, pbytes p 48 1 % 2)
      , (cvuCtlSignal, pbytes p 48 1 / 2 % 2), (cvuCtlTally, min 127 tally)])
    let whole (s : State) (r : RegName) (v : Nat) : State := s.setBoth ⟨r, t, u, i, 0⟩ [(⟨r, 63, 0⟩, v % 2 ^ w)]
    let s2 := if compat then s1 else whole (whole s1 .cvuPoly poly) .cvuXorout xo
    let s3 := whole (whole s2 .cvuExpect ex) .cvuRun val
    { s := s3.setCtx t u i { s3.ctx t u i with run := BitVec.ofNat 64 (val % 2 ^ w), bytes := 0, done := false, newRun := false }
      st := okStatus clamp, clamp := clamp }

/-- CVU_SET. -/
def execCvuSet (q : Fin 1024) (p : Packet) (s : State) : Out := .next (s.runPkt q 0x70 p (State.workCvuSet q p))

/-- The reply of CVU_GET: the values in effect, and the last result. -/
def State.cvuReply (s : State) (p : Packet) : List Byte :=
  let t := pbytes p 9 1
  let u := cuUnit p
  let i := pbytes p 11 1
  let a := s.cvuPar t u i
  let w := s.reg ⟨.cvuCtl, t, u, i, 0⟩
  let g (f : Fld) : Nat := fld w f.hi f.lo
  layout 64 [(0, 1, pbytes p 8 1), (1, 1, t), (2, 1, pbytes p 10 1), (3, 1, i), (4, 1, a.w)
    , (5, 1, nb a.refin + 2 * nb a.refout + 4 * g cvuCtlCompatCode + 16 * g cvuCtlCompat), (8, 8, a.poly)
    , (16, 8, (s.ctx t u i).run.toNat % 2 ^ a.w), (24, 8, a.xorout), (32, 8, s.fget cvuExpectValue t u i % 2 ^ a.w)
    , (40, 1, g cvuCtlCheck + 2 * g cvuCtlSignal), (41, 1, g cvuCtlTally), (56, 8, (s.reg ⟨.cvuResult, t, u, i, 0⟩).toNat)]

/-- The work of CVU_GET. -/
def State.workCvuGet (q : Nat) (p : Packet) (k : Pkt) (s : State) : Did :=
  let c := s.checkCvu q p
  if c.1 ≠ 0 then .fail s c.1
  else
    let d := s.sendReply q k (wordAt p 2) 64 [s.cvuReply p]
    { d with detail := if d.st = stHeld then d.detail else 0 }

/-- CVU_GET. -/
def execCvuGet (q : Fin 1024) (p : Packet) (s : State) : Out := .next (s.runPkt q 0x71 p (State.workCvuGet q p))

end Sys2Proof.Machine
end

