-- ==== Sys2Proof/Machine/Snapshots.lean ====
section
/-! DEFINITION. Sequence contexts, SNAPSHOT and RESTORE (R380-R382, Table 12-10). -/

namespace Sys2Proof.Machine

/-- An extent of a context descriptor: address, length, flags. -/
structure Extent where
  addr : W64
  len : Nat
  pin : Bool
  drop : Bool

/-- A context descriptor: user word, extents, tallies (tower, cluster, tally). -/
structure SeqCtx where
  user : Nat
  exts : List Extent
  tallies : List (Nat × Nat × Nat)

/-- A little-endian field of marked bytes. -/
def numAt (bs : List (BitVec 9)) (off n : Nat) : Nat := leNat (((bs.drop off).take n).map dataOf)

/-- Bytes padded to a multiple of 64. -/
def pad64 (n : Nat) : Nat := cdiv n 64 * 64

/-- Sizes of an image: before its data, and whole. -/
def SeqCtx.tables (c : SeqCtx) : Nat := 64 + pad64 (8 * c.exts.length) + pad64 (16 * c.tallies.length)
def SeqCtx.size (c : SeqCtx) : Nat := c.tables + (c.exts.map Extent.len).sum

/-- An extent is aligned and lies in local HBM or a bay. -/
def State.extentOk (s : State) (t : Nat) (e : Extent) : Bool :=
  let there (a : W64) : Bool := !isHost a && (match s.home t a with | .hbm _ _ => true | .bay _ _ _ _ => true | .held => true | .lost => true | _ => false)
  e.addr.toNat % 64 = 0 && e.len % 64 = 0 && there e.addr && (e.len = 0 || (there (e.addr + BitVec.ofNat 64 (e.len - 1)) &&
    s.crange t e.addr e.len ≠ stBadAddress))

/-- The fields of a descriptor's bytes; none when they break the layout of R380. -/
def State.parseCtx (s : State) (t : Nat) (bs : List (BitVec 9)) : Option SeqCtx :=
  let e := numAt bs 5 1
  let n := numAt bs 6 1
  let exts := (List.range e).map fun i =>
    let o := 64 + 32 * i
    let f := numAt bs (o + 16) 1
    ({ addr := BitVec.ofNat 64 (numAt bs o 8), len := numAt bs (o + 8) 8, pin := f % 2 = 1, drop := f / 2 % 2 = 1 } : Extent)
  let tl := (List.range n).map fun i =>
    let o := 64 + 32 * e + 4 * i
    (numAt bs o 1, numAt bs (o + 1) 1, numAt bs (o + 2) 1, numAt bs (o + 3) 1)
  let head := numAt bs 0 4 = 0x58435153 && numAt bs 4 1 = 1 && decide (e ≤ 128 ∧ n ≤ 16) && numAt bs 7 1 = 0 && numAt bs 16 48 = 0
  if head && exts.all (s.extentOk t) && tl.all (fun y => decide (y.1 ≤ 3 ∧ y.2.1 ≤ 127 ∧ y.2.2.1 ≤ 127 ∧ y.2.2.2 = 0)) then
    some { user := numAt bs 8 8, exts := exts, tallies := tl.map fun y => (y.1, y.2.1, y.2.2.1) }
  else none

/-- What reading a queue's context gave: a descriptor, or how the command ends without one. -/
structure CtxRead where
  ctx : Option SeqCtx
  did : Did

/-- The context descriptor of a queue, read from module memory. -/
def State.readCtx (s : State) (q : Nat) (k : Pkt) : CtxRead :=
  let a := s.reg (qLoc .cmdQctx q)
  let g := s.cmdAgent q k
  let stop (r : Got) (st : Nat) : CtxRead := ⟨none, .fail r.s st (if st = stHeld then r.at_ else 0)⟩
  let far : Bool := isHost a || (match s.home (qTower q) a with | .remote _ _ => true | _ => false)
  let h := s.cread g a 64
  if far || a.toNat % 64 ≠ 0 then ⟨none, .fail s stBadState⟩
  else if h.st ≠ 0 then stop h (if h.st = stBadAddress then stBadState else h.st)
  else
    let n := 64 + 32 * min 128 (numAt h.data 5 1) + 4 * min 16 (numAt h.data 6 1)
    let r := h.s.cread g a n
    if r.st ≠ 0 then stop r (if r.st = stBadAddress then stBadState else r.st)
    else if r.data.any isBad then stop r stUncorrectable
    else match s.parseCtx (qTower q) r.data with
      | none => stop r stBadState
      | some c =>
        if c.tallies.any fun y => s.cluStatus y.1 y.2.1 ≠ 0 then stop r stLost else ⟨some c, { s := r.s }⟩

/-- Extents read in order: their bytes, the first failing status, the first extent with an uncorrectable byte. -/
structure ExtRead where
  bytes : List (BitVec 9)
  st : Nat
  at_ : Nat
  bad : Option Nat
  s : State

def State.readExts (s : State) (g : Agent) (es : List Extent) : ExtRead :=
  es.zipIdx.foldl (fun (r : ExtRead) e =>
    let x := r.s.cread g e.1.addr e.1.len
    { bytes := r.bytes ++ x.data, st := if r.st = 0 then x.st else r.st, at_ := if r.st = 0 then x.at_ else r.at_
      bad := if r.bad.isSome then r.bad else if x.data.any isBad then some e.2 else none, s := x.s }) ⟨[], 0, 0, none, s⟩

/-- The 16 bytes of a tally in an image. -/
def tallyImage (y : Tally) : List Byte := layout 16 [(0, 4, y.count.toNat), (4, 4, y.target.toNat), (8, 1, nb y.auto + 2 * nb y.phase + 4 * nb y.done)]

/-- Fill up to 64 bytes. -/
def padded (bs : List Byte) : List Byte := bs ++ List.replicate (pad64 bs.length - bs.length) 0#8

/-- An image (Table 12-10). -/
def State.imageOf (s : State) (q : Nat) (c : SeqCtx) (data : List Byte) : List Byte :=
  let body := padded (c.exts.flatMap fun e => leBytes 8 e.len) ++ padded (c.tallies.flatMap fun y => tallyImage (s.tally y.1 y.2.1 y.2.2)) ++ data
  layout 64 [(0, 4, 0x4D495153), (4, 1, 1), (5, 1, c.exts.length), (6, 1, c.tallies.length), (8, 8, c.user)
    , (16, 2, match s.mod.moduleId with | some i => i.toNat | none => 0xFFFF), (18, 2, q), (24, 8, s.stamp (qTower q)), (32, 8, c.size)
    , (40, 8, crc64xz body)] ++ body

/-- Whether a DISCARD of an extent would be refused for its address. -/
def State.dropBad (s : State) (q : Nat) (e : Extent) : Bool :=
  e.drop && (match s.moduleAddr e.addr with
    | none => true
    | some a => (if a < 0x020000000000 then (s.hbmRange e.addr e.len).1 else (s.bayRange (qTower q) e.addr e.len).1) = stBadAddress)
/-- Whether a PIN of an extent would be refused for its address. -/
def State.pinBad (s : State) (e : Extent) : Bool := e.pin && (s.hbmRange e.addr e.len).1 = stBadAddress

/-- DISCARD the flagged extents, in order. -/
def State.dropExts (s : State) (q : Nat) (es : List Extent) : Did :=
  (es.filter fun e => e.drop).foldl (fun (d : Did) e =>
    if d.st ≠ 0 then d
    else
      let x := d.s.discard q e.addr e.len
      if x.st ≠ 0 then x else { s := x.s }) { s := s }

/-- Streams of a command over a context's extents and an image. -/
def seqStreams (c : SeqCtx) (img : W64) : List (W64 × Nat) := c.exts.map (fun e => (e.addr, e.len)) ++ [(img, c.size)]

/-- The work of SNAPSHOT. -/
def State.workSnapshot (q : Nat) (p : Packet) (k : Pkt) (s : State) : Did :=
  let g := s.cmdAgent q k
  let img := wordAt p 1
  let r := s.readCtx q k
  match r.ctx with
  | none => r.did
  | some c =>
    let s1 := r.did.s
    let st := s1.crange (qTower q) img c.size
    if (wordAt p 2).toNat < c.size then .fail s stBadLength (cdiv c.size 65536)
    else if st ≠ 0 then .fail s st
    else if c.exts.any fun e => s.dropBad q e then .fail s stBadAddress
    else if !s.streamsHeld q k.id (seqStreams c img) then .fail s stWait
    else
      let d := s1.readExts g c.exts
      if d.st ≠ 0 then .fail d.s d.st (if d.st = stHeld then d.at_ else 0)
      else match d.bad with
        | some i => .fail d.s stUncorrectable i
        | none =>
          let w := d.s.cwriteB g img (d.s.imageOf q c (d.bytes.map dataOf))
          if w.st ≠ 0 then .fail w.s w.st (if w.st = stHeld then w.at_ else 0)
          else
            let x := w.s.dropExts q c.exts
            if x.st ≠ 0 then x else { x with detail := min (c.size / 64) 0xFFFFFFFF }

/-- SNAPSHOT. -/
def execSnapshot (q : Fin 1024) (p : Packet) (s : State) : Out := .next (s.runPkt q 0x61 p (State.workSnapshot q p))

/-- How an image differs from a context: 0xFFFF for the header, else the extent. -/
def imageDiff (c : SeqCtx) (n : Nat) (h t : List (BitVec 9)) : Option Nat :=
  if numAt h 0 4 ≠ 0x4D495153 ∨ numAt h 4 1 ≠ 1 ∨ numAt h 5 1 ≠ c.exts.length ∨ numAt h 6 1 ≠ c.tallies.length ∨ numAt h 32 8 ≠ n then some 0xFFFF
  else match c.exts.zipIdx.find? fun e => e.1.len ≠ numAt t (8 * e.2) 8 with
    | some e => some e.2
    | none => if n ≠ c.size then some 0xFFFF else none

/-- A tally is set from its image. -/
def State.putTally (s : State) (y : Nat × Nat × Nat) (bs : List (BitVec 9)) : State :=
  let f := numAt bs 8 1
  s.modTally y.1 y.2.1 y.2.2 fun z =>
    { z with count := BitVec.ofNat 32 (numAt bs 0 4), target := BitVec.ofNat 32 (numAt bs 4 4), auto := f % 2 = 1, phase := f / 2 % 2 = 1
             done := f / 4 % 2 = 1 }

/-- Extents written in order from the image's data. -/
def State.writeExts (s : State) (g : Agent) (es : List Extent) (data : List (BitVec 9)) : Put :=
  (es.foldl (fun (r : Put × List (BitVec 9)) e =>
    (r.1.andThen fun s => s.cwriteM g e.addr ((r.2.take e.len).map some), r.2.drop e.len)) (⟨0, 0, s⟩, data)).1

/-- Bytes that are not defined. -/
def State.freeBytes (s : State) (n : Nat) : List (BitVec 9) := (List.range n).map fun i => BitVec.ofNat 9 (Config.freeNat (s.free + i))

/-- The flagged extents are pinned with the fetch option; the lines left unpinned. -/
def State.pinExts (s : State) (es : List Extent) : Nat × State :=
  (es.filter fun e => e.pin).foldl (fun a e =>
    let r := a.2.pinParts true (a.2.hbmRange e.addr e.len).2
    (a.1 + r.1, r.2)) (0, s)

/-- The work of RESTORE. -/
def State.workRestore (q : Nat) (p : Packet) (k : Pkt) (s : State) : Did :=
  let g := s.cmdAgent q k
  let img := wordAt p 1
  let n := (wordAt p 2).toNat
  let r := s.readCtx q k
  match r.ctx with
  | none => r.did
  | some c =>
    let bad (x : Got) : Did := .fail x.s x.st (if x.st = stHeld then x.at_ else 0)
    let st := if n < 64 then 0 else s.crange (qTower q) img (min n c.size)
    let pins := c.exts.filter fun e => e.pin
    if n < 64 then .fail s stInconsistent 0xFFFF
    else if st ≠ 0 then .fail s st
    else if pins.any fun e => s.pinBad e then .fail s stBadAddress
    else if (List.range 4).any fun t => 1024 < (s.tower t).pins.length +
        (pins.filter fun e => (s.hbmRange e.addr e.len).2.any fun x => x.1 = t).length then .fail s stBadState
    else if !s.streamsHeld q k.id (seqStreams c img) then .fail s stWait
    else
      let h := r.did.s.cread g img (min n c.tables)
      if h.st ≠ 0 then bad h
      else if h.s.needs ≠ [] then { s := h.s }
      else if h.data.any isBad then .fail h.s stUncorrectable
      else match imageDiff c n h.data (h.data.drop 64) with
        | some e => .fail h.s stInconsistent e
        | none =>
          let x := h.s.cread g img n
          if x.st ≠ 0 then bad x
          else if x.s.needs ≠ [] then { s := x.s }
          else
            let data := x.data.drop c.tables
            let torn := data.any isBad
            let wrong := crc64xz ((x.data.drop 64).map dataOf) ≠ numAt x.data 40 8
            let lost : Bool := torn || wrong
            let w := if lost then (x.s.drawn data.length).writeExts g c.exts (x.s.freeBytes data.length) else x.s.writeExts g c.exts data
            if w.st ≠ 0 then .fail w.s w.st (if w.st = stHeld then w.at_ else 0)
            else if torn then .fail w.s stUncorrectable
            else if wrong then .fail w.s stInconsistent 0xFFFFFFFF
            else
              let tt := x.data.drop (64 + pad64 (8 * c.exts.length))
              let s2 := c.tallies.zipIdx.foldl (fun s y => s.putTally y.1 ((tt.drop (16 * y.2)).take 16)) w.s
              pinDid (s2.pinExts c.exts)

/-- RESTORE. -/
def execRestore (q : Fin 1024) (p : Packet) (s : State) : Out := .next (s.runPkt q 0x62 p (State.workRestore q p))

end Sys2Proof.Machine
end

