-- ==== Sys2Proof/Machine/Dispatchers.lean ====
section
/-! DEFINITION. The dispatchers (R354-R364, R376, R377): fetching and checking packets, starting them, class-7 acceptance,
deadlines, and completion entries. -/

namespace Sys2Proof.Machine

/-! ## Fetching (R354-R356, R359) -/

/-- The owner of a dispatcher's own accesses for a queue: fetches, and completion entries. -/
def fetchOwner (q : Nat) : ReqOwner := cmdOwner q 0
def entryOwner (q : Nat) : ReqOwner := .command q 0 (some 0#64)

/-- The agent of a queue's dispatcher; those of a tower that does not run are taken over by the lead tower's. -/
def State.ringAgent (s : State) (q : Nat) (o : ReqOwner) : Agent :=
  let t := if (s.tower (qTower q)).fence ≠ 0 || (s.tower (qTower q)).inTower then s.mod.lead else qTower q
  ⟨t, 1, o, 1, 0x3FF, 4000 + q⟩

/-- n entries of a queue's packet ring from its head; the management queue's ring lies in the management block. -/
def State.ringRead (s : State) (q n : Nat) : Got :=
  let y := s.queue q
  let size := 2 ^ s.qSize q
  let ring := (s.reg (qLoc .cmdQring q)).toNat / 64 * 64
  (List.range n).foldl (fun (r : Got) i =>
    let o := 64 * ((y.head.toNat + i) % size)
    if qLocal q = 255 then { r with bytes := r.bytes ++ (List.range 64).map fun b => some (clean (SMap.get 0#8 s.mod.mgmtRing (o + b))) }
    else
      let x := r.s.cread (s.ringAgent q (fetchOwner q)) (BitVec.ofNat 64 (ring + o)) 64
      { bytes := r.bytes ++ x.bytes, st := if r.st = 0 then x.st else r.st, at_ := x.at_, s := x.s }) ⟨[], 0, 0, s⟩

/-- A tail lies at or beyond an index, on free-running counts. -/
def covers (tail idx : W32) : Bool := (tail - idx).toNat < 2 ^ 31

/-- Checks 6 and 7 of R359, opcode by opcode. -/
def State.checkState (s : State) (q : Nat) (p : Packet) : Nat × Nat :=
  match hOpcode p with
  | 0x10 => s.checkCopy q p
  | 0x11 => s.checkFill q p
  | 0x13 => s.checkClear p
  | 0x14 => s.checkDiscard q p
  | 0x15 => s.checkPin q p
  | 0x16 => s.checkUnpin p
  | 0x20 => s.checkLaunch q p
  | 0x21 => s.checkMatrix p
  | 0x22 => s.checkTable q p
  | 0x30 => s.checkTally (pbytes p 8 1) (pbytes p 9 1) (pbytes p 10 1)
  | 0x31 => s.checkTally (pbytes p 8 1) (pbytes p 9 1) (pbytes p 10 1)
  | 0x32 => s.checkSignal p
  | 0x60 => s.checkReset q p
  | 0x70 => s.checkCvu q p
  | 0x71 => s.checkCvu q p
  | 0x72 => s.checkScrub p
  | 0x73 => s.checkInject p
  | 0x80 => s.checkTelemetry q p
  | 0x91 => s.checkRemote p
  | _ => s.checkOrder q p

/-- The checks of a fetched packet in their order (R359, R369): a status and a detail. (DEDUCED, log entry 61.) -/
def State.checkPacket (s : State) (q : Nat) (p : Packet) (reply : Option Reply) : Nat × Nat :=
  let st := s.headerStatus q p
  let nested : Bool := match reply with | some r => hOpcode p = 0x91 && decide (r.src < 4096) | none => false
  if st ≠ 0 then (st, 0) else if nested then (stBadOpcode, 0) else s.checkState q p

/-- A packet of n entries leaves the ring: it is checked, and waits as the next of its queue or is rejected. -/
def State.takeEntries (s : State) (q n : Nat) (bs : List (BitVec 9)) : State :=
  let y := s.queue q
  let now := s.stamp (qTower q)
  let head := y.head + BitVec.ofNat 32 n
  let bell := ((y.bells.find? fun b => covers (BitVec.ofNat 32 b.1) head).map fun b => b.2).getD now
  let p := wordsOf (8 * n) (bs.map dataOf)
  let reply := (y.remote.find? fun r => r.1 = y.head.toNat).map fun r => r.2
  let k : Pkt := { s.newPkt p bell with reply := reply }
  let e := if bs.any isBad then (stUncorrectable, 0) else s.checkPacket q p reply
  let s1 := s.newId.modQueue q fun z =>
    { z with head := head, bells := z.bells.filter fun b => BitVec.ofNat 32 b.1 ≠ head && covers (BitVec.ofNat 32 b.1) head
             remote := z.remote.filter fun r => r.1 ≠ y.head.toNat }
  if e.1 ≠ 0 then s1.reject q k e.1 e.2
  else s1.modQueue q fun z => { z with next := some k, deferSince := now, runNext := false }

/-- PACKET_FETCH. A ring that cannot be read now is tried again. (DEDUCED, log entry 129.) -/
def execPacketFetch (q : Fin 1024) (s : State) : Out :=
  let y := s.queue q
  let o := fetchOwner q
  if !s.dispatching q || !s.qEnabled q || y.next.isSome || y.head = y.tail || (s.reqs.any fun r => r.owner = o && r.stage ≠ .done) then
    .next s
  else
    let ask (r : Got) : State := (({ s with needs := r.s.needs, sends := [] } : State).issueRemote (s.ringAgent q o)).2
    let h := s.ringRead q 1
    let n := numAtWord h.data 19 16 + 1
    if h.s.needs ≠ [] then .next (ask h)
    else if h.st ≠ 0 ∨ (y.tail - y.head).toNat < n then .next (s.forget o)
    else
      let r := s.ringRead q n
      if r.s.needs ≠ [] then .next (ask r)
      else if r.st ≠ 0 then .next (s.forget o)
      else .next ((r.s.forget o).takeEntries q n r.data)
where
  /-- Bits of the first header word. -/
  numAtWord (bs : List (BitVec 9)) (hi lo : Nat) : Nat := fld (wordAt (wordsOf 1 (bs.map dataOf)) 0) hi lo

/-! ## Starting (R361, R362, R376, R377) -/

/-- PACKET_START: the dispatchers' choice starts, when it is the next packet of this queue. -/
def execPacketStart (q : Fin 1024) (s : State) : Out :=
  match (s.queue q).next with
  | none => .next s
  | some k => .next (if s.pktClass q k.words = 7 then s else if s.choice (qTower q) = some q.val then s.startPkt q k else s.markNext q)

/-- A command's total estimate over its towers, in mJ, a whole number that saturates. -/
def State.estimateMj (s : State) (q : Nat) (p : Packet) : Nat :=
  min 0xFFFFFFFF (((s.estimate q p).map fun (e : Est) => match e.mj with | some m => m | none => 0).sum.ceil.toNat)

/-- CLASS7_ACCEPT (R376): the class-7 packet at the head of a queue is accepted while its tower holds fewer than the limit; one that
the reserve does not cover gets an interim DEFERRED_POWER entry (R377, R358). -/
def execClass7Accept (q : Fin 1024) (s : State) : Out :=
  let t := qTower q
  match (s.queue q).next with
  | none => .next s
  | some k =>
    if s.pktClass q k.words ≠ 7 ∨ k.accepted ∨ !s.dispatching q then .next s
    else if clampN 1 64 (s.fget cmdDispatchClass7QueueLimit t) ≤ (s.tower t).c7Order.length then
      .next (s.modQueue q fun y => { y with heldC7 := true })
    else
      let now := s.stamp t
      let c : Compl :=
        { tag := hTag k.words, status := stDeferred, clamp := 0, start := now, end_ := 0, energy := 0, detail := s.estimateMj q k.words
          irq := hIrq k.words, interim := true, quiet := hQuiet k.words, reply := none }
      let late := !s.covered q k.words
      let s1 := (s.modTower t fun w => { w with c7Order := w.c7Order ++ [k.id] }).modQueue q fun y =>
        { y with next := some { k with accepted := true }, heldC7 := false, done := if late then y.done ++ [c] else y.done }
      .next (if late then s1.bump cmdC7Deferred 1 t else s1)

/-- CLASS7_START (R377). -/
def execClass7Start (q : Fin 1024) (s : State) : Out :=
  match (s.queue q).next with
  | none => .next s
  | some k => .next (if s.pktClass q k.words = 7 ∧ s.startable q k then s.startPkt q k else s)

/-! ## Completion -/

/-- A packet whose accesses have all been answered, or whose own wait has ended, completes (R295, R369). -/
def State.settlePkt (s : State) (q : Nat) (k : Pkt) : State :=
  let mine := s.reqs.filter fun r => r.owner = cmdOwner q k.id
  let ended := mine.all fun r => r.stage = .done
  let st := firstBad (mine.map fun r => r.status)
  let waits := if ended then k.waits.filter (· ≠ Wait.replies.code) else k.waits
  let stop (st detail : Nat) : State := (((s.forget (cmdOwner q k.id)).complete k.id st detail k.clamp).releaseCmd k.id)
  if !k.begun then s
  else if ended ∧ st ≠ 0 ∧ k.waits.contains Wait.replies.code then stop st 0
  else if !waits.isEmpty then s.modPkt k.id fun x => { x with waits := waits }
  else
    match (List.range 16).findSome? fun i => k.got.find? fun g => g.1 = i && g.2 ≠ 0 with
    | some g => stop g.2 g.1
    | none => stop (endStatus k.clamp stOK) k.detail

/-- The message of a vendor command whose entries are all there leaves (R462). -/
def State.vendorDone (s : State) (id : Nat) : State :=
  match s.mod.vendor.find? fun v => v.id = id with
  | none => s
  | some v =>
    if v.entries.all fun e => e.isSome then
      (s.modMod fun m => { m with vendor := m.vendor.filter fun x => x.id ≠ id }).emit (.mgmt (v.entries.flatMap fun e => e.getD []))
    else s

/-- The entry of a packet of the management queue goes into its message. -/
def State.vendorEntry (s : State) (r : Reply) (bs : List Byte) : State :=
  (s.modMod fun m =>
    { m with vendor := m.vendor.map fun v => if v.id = r.tag then { v with entries := v.entries.set r.agent (some bs) } else v }).vendorDone r.tag

/-- The phase of completion entry j of a ring of 2^c entries (R358). -/
def entryPhase (j c : Nat) : Nat := (1 + j / 2 ^ c) % 2

/-- The MSI-X vector of a queue is raised: at the module's own bridge at once, else by an HIRQ packet after the earlier writes. -/
def State.raise (s : State) (q : Nat) : State :=
  match s.hostWay with
  | .direct => s.emit (.msix (s.qget cmdQcfgMsix q))
  | .link => s.modQueue q fun y => { y with irqs := y.irqs + 1 }
  | _ => s

/-- A completion entry is written at ctail (R357). One for a ring that cannot be reached is lost. (DEDUCED, log entry 101.) -/
def State.putEntry (s : State) (q : Nat) (c : Compl) : State :=
  let y := s.queue q
  let cs := s.qCsize q
  let c1 := if c.interim then { c with end_ := s.stamp (qTower q) } else c
  let a := (s.reg (qLoc .cmdQcring q)).toNat / 32 * 32 + 32 * (y.ctail.toNat % 2 ^ cs)
  let g := s.ringAgent q (entryOwner q)
  let w := s.cwriteB g (BitVec.ofNat 64 a) (c1.bytes (entryPhase y.ctail.toNat cs))
  let s1 := if w.st = 0 then (w.s.issueRemote g).2 else s
  let s2 := s1.modQueue q fun z => { z with ctail := z.ctail + 1#32 }
  if c.irq ∨ c.status ≠ stOK then s2.raise q else s2

/-- The oldest completion of a queue is written; the reply to a CMD leaves beside it. -/
def State.writeDone (s : State) (q : Nat) : State :=
  let y := s.queue q
  let used := (y.ctail - y.chead).toNat
  match y.done with
  | [] => s
  | c :: rest =>
    let s1 := s.modQueue q fun z => { z with done := rest }
    let finals := y.running.length + (rest.filter fun x => !x.interim).length
    let none_ : Bool := c.quiet && c.status = stOK
    if qLocal q = 255 then
      match c.reply with
      | some r => s1.vendorEntry r (c.bytes 1)
      | none => s1
    else if c.interim then
      (if used + finals < 2 ^ s.qCsize q then s1.putEntry q c else s1.bump cmdQstatLostInterim 1 (qTower q) 0 (qLocal q))
    else if !none_ && decide (2 ^ s.qCsize q ≤ used) then s
    else
      let s2 := match c.reply with | some r => s1.sendCmp r c | none => s1
      if none_ then s2 else s2.putEntry q c

/-- HIRQ packets leave once the queue's host writes are posted (R352). -/
def State.sendIrqs (s : State) (q : Nat) : State :=
  let n := (s.queue q).irqs
  let w := s.reg ⟨.lnkHostBridge, s.mod.lead, 0, 0, 0⟩
  if n = 0 ∨ (s.reqs.any fun r => r.owner = entryOwner q) then s
  else
    let pkt : LinkPkt :=
      ⟨mkHdr opHIRQ s.selfId (fld w 11 0) (agentOf (entryOwner q) (qTower q)) (s.mod.nextId % 65536), mkRspW 1 0 (s.qget cmdQcfgMsix q) false, []⟩
    (List.range n).foldl (fun s _ => (s.sendPkt pkt).2) (s.newId.modQueue q fun y => { y with irqs := 0 })

/-- Answered accesses of a queue's completion entries are forgotten. -/
def State.dropEntries (s : State) (q : Nat) : State :=
  { s with reqs := s.reqs.filter fun r => !(r.owner = entryOwner q && r.stage = .done) }

/-- COMPLETION_WRITE: commands whose waits are over complete, and the oldest waiting completion entry is written. -/
def execCompletionWrite (q : Fin 1024) (s : State) : Out :=
  let s1 := (s.queue q).running.foldl (fun s k => s.settlePkt q k) (s.dropEntries q)
  .next ((s1.writeDone q).sendIrqs q)

/-! ## Deadlines (R363, Table 12-4) -/

/-- Ranges that a SNAPSHOT or RESTORE stopped at its deadline leaves undefined: the image, or the extents. -/
def State.undefine (s : State) (q : Nat) (k : Pkt) (image : Bool) : State :=
  match (s.readCtx q k).ctx with
  | none => s
  | some c =>
    let rs := if image then [(wordAt k.words 1, c.size)] else c.exts.map fun e => (e.addr, e.len)
    rs.foldl (fun s e =>
      let w := (s.drawn e.2).cwriteM (s.cmdAgent q k) e.1 ((s.freeBytes e.2).map some)
      if w.st = 0 then (w.s.issueRemote (s.ringAgent q (entryOwner q))).2 else s) s

/-- Clusters of a TABLE_LOAD that have switched (R220). -/
def switchedClusters (k : Pkt) : Nat :=
  (maskClusters (pbytes k.words 17 1) (pbytes k.words 24 16)).length - (k.waits.filter fun w => decide (4000 ≤ w)).length

/-- A running packet at its deadline. (DESIGN CHOICE, log entry 98.) -/
def State.deadline (s : State) (q : Nat) (k : Pkt) : State :=
  let end_ (s : State) (detail : Nat) : State := s.stopPkt q k.id stTimeout detail
  match hOpcode k.words with
  | 0x01 => end_ s 0
  | 0x10 => end_ (s.drawn 1) (if k.begun then s.free1 % (pbytes k.words 28 4 + 2) else 0)
  | 0x11 => end_ (s.drawn 1) (if k.begun then s.free1 % (pbytes k.words 20 4 + 2) else 0)
  | 0x13 => end_ (s.drawn 1) (if k.begun then s.free1 % (pbytes k.words 20 4 + 1) else 0)
  | 0x15 => end_ (s.drawn 1) (if k.begun then s.free1 % (pbytes k.words 16 8 / 128 + 1) else 0)
  | 0x20 => if k.begun then s.stopLaunch k.id stTimeout else end_ s 0
  | 0x22 => end_ s (if k.begun then switchedClusters k else 0)
  | 0x31 => end_ s 0
  | 0x61 => end_ (s.undefine q k true) 0
  | 0x62 => end_ (s.undefine q k false) 0
  | 0x91 => if k.waits.contains waitCmp then end_ s 0 else s
  | _ => s

/-- PACKET_DEADLINE. -/
def execPacketDeadline (q : Fin 1024) (id : Nat) (s : State) : Out :=
  let y := s.queue q
  match y.next with
  | some k =>
    if k.id = id then .next (if s.late q k then s.reject q k stTimeout 0 else s)
    else .next (running y s)
  | none => .next (running y s)
where
  /-- The running packet of that number, when it is late. -/
  running (y : Queue) (s : State) : State :=
    match y.running.find? fun k => k.id = id with
    | some k => if s.late q k then s.deadline q k else s
    | none => s

end Sys2Proof.Machine
end

