-- ==== Sys2Proof/Machine/Heat.lean ====
section
/-! DEFINITION. Power, current and heat at run time (R385-R390, R396-R399, R404-R416): budget windows, wakes, regulator losses, the
12 V supply, and the thermal limits. -/

namespace Sys2Proof.Machine

/-- A tower whose dies are powered and that is not fenced off. -/
def State.powered (s : State) (t : Nat) : Bool := (s.tower t).on && (s.tower t).fence = 0

/-! ## Budget windows (R386, R389, R390) -/

/-- The derate factor after a window: the ratio of measured to predicted energy when that exceeds 1.02, at most 2.0; one step of 1/64
lower when less was drawn, at least 1.0. In 1/1024, rounded up (DEDUCED, log entry 56). -/
def newDerate (old : Nat) (measured predicted : ℚ) : Nat :=
  if predicted * 102 / 100 < measured then
    (if predicted = 0 then 2048 else max 1024 (min 2048 (measured * 1024 / predicted).ceil.toNat))
  else if measured < predicted then max 1024 (old - 16) else old

/-- BUDGET_WINDOW_END. -/
def execBudgetWindowEnd (t : Fin 4) (m : WindowMeas) (s : State) : Out :=
  if !s.powered t then .next s
  else
    let s1 := m.domains.foldl (fun (s : State) d =>
      if isDomain s.mod.variant t d.1 then
        s.setReg ⟨.pwrDomCur, t, 0, d.1, 0⟩
          (ov 0#64 [(pwrDomCurPeak, min 65535 d.2.2), (pwrDomCurAvg, min 65535 d.2.1), (pwrDomCurWindow, s.stamp t % 2 ^ 32)])
      else s) s
    let s2 := s1.modTower t fun w =>
      { w with drawnW := m.energyMj, peakW := max w.peakW m.peakW, derate := newDerate w.derate m.energyMj w.windowMj, windowMj := 0
               guardOn := false }
    .next (s2.clampDuty t)

/-- BUDGET_GUARD: the measured energy has reached the window's allowance (R389). -/
def execBudgetGuard (t : Fin 4) (energyUj : Nat) (s : State) : Out :=
  if !s.powered t ∨ (s.tower t).guardOn ∨ (energyUj : ℚ) < s.effectiveMw t then .next s
  else
    let s1 := (s.modTower t fun w => { w with guardOn := true, guards := w.guards + 1 }).fset pwrStatusGuard 1 t
    .next ((s1.safetyOn (tgtTower t)).clampDuty t)

/-- POWER_POLICY_COMMIT (R416): the storekeeper's next 1 µs boundary. -/
def execPowerPolicyCommit (t : Fin 4) (s : State) : Out :=
  if !s.commitPending .pwrCommit t 0 then .next s
  else .next (((s.refill t).commitDone .pwrCommit t 0).arrived (.power t))

/-! ## Wakes (R396, R397, R399, R405) -/

/-- The number of the 40 µs period that a tower's stamp lies in; tower t's periods start 10·t µs late. -/
def wavePeriod (stamp t : Nat) : Nat := (stamp + 8000 - 2000 * t) / 8000

/-- WAKE_WAVE: once in each period, the first pending wakes of a tower begin. -/
def execWakeWave (t : Fin 4) (s : State) : Out :=
  let w := s.tower t
  let p := wavePeriod (s.stamp t) t + 1
  if !s.powered t ∨ w.hot.isEmpty ∨ w.waveUsed = p then .next s
  else
    let cs := w.hot.take (clampN 1 16 (s.fget pwrPolicyWakeWave t))
    let s1 := s.modTower t fun w => { w with hot := w.hot.filter fun c => !cs.contains c, waveUsed := p }
    .next (cs.foldl (fun s c => s.modClu t c fun x => { x with dom := .waking, halfSlope := false }) s1)

/-- WAKE_WAIT_EXPIRE (R397): a wake, or an array's ramp-up, goes on at half slope. -/
def execWakeWaitExpire (r : CluRef) (s : State) : Out :=
  let x := s.clu r.t r.c
  let ramps := x.arr.bins.any fun b => b.2.mode = .rampUp
  .next (if x.dom = .waking || ramps then s.modClu r.t r.c fun x => { x with halfSlope := true } else s)

/-- DOMAIN_WAKE_COMPLETE (R405): the voltage has returned; the cluster stands as after a CLUSTER reset and can take work. Clusters
that a reset or bring-up wakes run their self-test first (R426). -/
def execDomainWakeComplete (r : CluRef) (s : State) : Out :=
  let x := s.clu r.t r.c
  if x.dom ≠ .waking ∨ !x.selfTested then .next s
  else .next ((((s.clearCluster r.t r.c).modClu r.t r.c fun x => { x with dom := .on, halfSlope := false }).arrived (.wake r.t r.c)).wavesEnd)

/-! ## Regulator losses (R384, R408, R415) -/

/-- A cluster cell or LDO supplies its cluster no longer: the cluster is lost; a spare that stands in for none is given up. -/
def State.losePosition (s : State) (t p : Nat) : State :=
  match s.logical t p with
  | some c => s.loseCluster t c
  | none =>
    if p % 17 = 8 then (s.putSpare t (p / 17) 0xFE).modTower t fun w => { w with lostPos := w.lostPos ++ [p] }
    else s

/-- The grants of a row's clusters within its rail's cap (R384): in proportion, where they exceed it. (DEDUCED, log entry 99.) -/
def State.railGrants (s : State) (t row : Nat) : State :=
  let mine (g : Grant) : Bool := decide (g.req.domain.toNat < 0x100) && g.req.domain.toNat / 17 = row
  let sum := (((s.tower t).grants.filter mine).map fun g => g.granted).sum
  let stand := (((List.range 128).filter fun c => s.phys t c / 17 = row).map fun c => s.standing160 t c).sum
  let room := (s.domCapNow t (0x330 + row) * 10 - stand) / 10
  if sum ≤ room then s
  else s.modTower t fun w => { w with grants := w.grants.map fun g => if mine g then { g with granted := g.granted * room / sum } else g }

/-- What the loss of the n-th phase of a domain does (Table 13-7). -/
def State.phaseEffect (s : State) (t d n : Nat) : State :=
  let capped := ((s.safetyOn (tgtDomain t d)).clampDuty t).rehealth
  if 0x300 ≤ d ∧ d ≤ 0x323 then s.fenceTower t 2
  else if 0x330 ≤ d then
    let s1 := (((s.safetyOn (tgtDomain t d)).railGrants t (d - 0x330)).clampDuty t).rehealth
    if n = 2 then s1.trigger 4 else s1
  else
    match s.mod.variant, decide (d < 0x100) with
    | .x, true => if n = 1 then capped else if n = 2 then (s.losePosition t d).trigger 4 else s
    | .s, true => if n = 1 then (s.losePosition t d).trigger 4 else s
    | .x, false => if n = 1 then capped else if n = 2 then s.fenceTower t 3 else s
    | .s, false => s.fenceTower t 3

/-- PHASE_LOST. -/
def execPhaseLost (t : Fin 4) (domain : Nat) (s : State) : Out :=
  let most := max 1 (domPhases s.mod.variant domain)
  let n := s.lostPhases t domain + 1
  if !s.powered t ∨ !isDomain s.mod.variant t domain ∨ most < n then .next s
  else
    let s1 := s.modTower t fun w => { w with phasesLost := SMap.put 0 w.phasesLost domain n }
    let s2 := (s1.fset pwrStatusPhaseEvent 1 t).logEvent 0x0013 1 t [domain, n]
    .next (s2.phaseEffect t domain n)

/-- CURRENT_LIMIT (R415): the regulator holds the current; the duty ceiling stays at 8/16 until the cluster's next grant. -/
def execCurrentLimit (r : CluRef) (s : State) : Out :=
  let x := s.clu r.t r.c
  if !s.powered r.t ∨ x.absent ∨ x.dom ≠ .on then .next s
  else
    let s1 := (s.modClu r.t r.c fun x => { x with limited := true }).fset pwrStatusCurrentLimit 1 r.t
    .next ((s1.safetyOn (tgtDomain r.t (s1.phys r.t r.c))).clampDuty r.t)

/-! ## The 12 V supply (R409, R410) -/

/-- Every array of the module under its duty ceiling. -/
def State.clampAll (s : State) : State := (List.range 4).foldl (fun s t => s.clampDuty t) s

/-- SUPPLY_SAG: the input lies below 10.8 V, at the voltage told. -/
def execSupplySag (mv : Nat) (s : State) : Out :=
  if 10800 ≤ mv ∨ !s.mod.railsOn then .next s
  else if s.mod.sagged then .next (s.modMod fun m => { m with sagMin := min m.sagMin mv, vinMv := mv, inputOk := false })
  else
    let s1 := s.refillAll.modMod fun m =>
      { m with sagged := true, sagStart := s.stamp s.mod.lead, sagMin := mv, sagCount := m.sagCount + 1, vinMv := mv, inputOk := false }
    let s2 := (List.range 4).foldl (fun (s : State) t => (s.fset pwrStatusSagEvent 1 t).bump pwrSupplySags 1 t) s1
    .next ((s2.safetyOn tgtPower).clampAll)

/-- The entry of a sag that ends: the stamp of the fall, the lowest input, and the duration in µs. -/
def State.logSag (s : State) : State :=
  if s.mod.sagged then s.logAt s.mod.sagStart 0x0010 1 s.mod.lead [s.mod.sagMin, min 0xFFFFFFFF ((s.stamp s.mod.lead - s.mod.sagStart) / 200)]
  else s

/-- SAG_EXIT: the input has held 11.0 V for 10 ms. -/
def execSagExit (s : State) : Out :=
  if !s.mod.sagged then .next s
  else .next ((s.logSag.refillAll).modMod fun m => { m with sagged := false, vinMv := max 11000 m.vinMv, inputOk := true })

/-- Every completion entry that its ring can take is written. -/
def State.writeAll (s : State) : State :=
  (s.queues.map fun e => e.1).foldl (fun s q => (List.range (s.queue q).done.length).foldl (fun s _ => s.writeDone q) s) s

/-- The main rails switch off: every die loses its contents; what is outside the always-on island, and the repair state that only
a cold reset clears, starts anew at the next bring-up (R410, R463). (DEDUCED, log entry 100.) -/
def State.railsOff (s : State) : State :=
  let m := s.mod
  let keep : Module :=
    { Module.init with
      variant := m.variant, straps := m.straps, pwrEn := m.pwrEn, pwrGood := false, alertN := m.alertN, thermtripN := m.thermtripN
      perstN := m.perstN, railsOn := false, overvolt := m.overvolt, inputOk := m.inputOk, vinMv := m.vinMv, sagCount := m.sagCount
      tripped := m.tripped, aonStamp := m.aonStamp, aonTower := m.aonTower, aonUp := m.aonUp, mirrorOk := m.mirrorOk, bootCount := m.bootCount
      invA := m.invA, invB := m.invB, invCurB := m.invCurB, nor := m.nor, helper := m.helper, certs := m.certs, log := m.log
      newest := m.newest, acked := m.acked, dynAddr := m.dynAddr, eid := m.eid, ibi := m.ibi, nextId := m.nextId
      spdmLog := m.spdmLog, phase := 1 }
  let cold := State.reset
  { cold with
    pending := s.pending, free := s.free, mod := keep, mem := { cold.mem with host := s.mem.host }, out := s.out
    towers := (List.range 4).foldl (fun x t =>
      SMap.put Tower.init x t { Tower.init with on := false, phasesLost := (s.tower t).phasesLost }) [] }.defaultBudgets

/-- The ordered stop (R410), for a cause: 1 undervoltage, 2 SB_PWR_EN. -/
def State.orderedStop (s : State) (cause : Nat) : State :=
  if !s.mod.railsOn then s
  else
    let s1 := s.logSag.logEvent 0x0011 2 s.mod.lead [cause]
    let s2 := (List.range 4).foldl (fun s t => (s.cutQueues t true).modTower t fun w => { w with grants := [], grantQ := [] }) s1
    s2.writeAll.railsOff

/-- ORDERED_STOP: the input has stayed below 9.6 V for more than 20 ms. -/
def execOrderedStop (s : State) : Out := .next (if s.mod.sagged ∧ s.mod.vinMv < 9600 then s.orderedStop 1 else s)

/-! ## Heat (R385, R411-R414) -/

/-- Limits and trip values of the dies in m°C: attic, upper cellar, lower cellar, HBM (Table 13-8). -/
def limitOf (die : Nat) : Int := if die = 0 then 105000 else 95000
def tripOf (die : Nat) : Int := if die = 0 then 115000 else 105000

/-- The temperature in use of a die. -/
def Tower.dieTemp (w : Tower) (die : Nat) : Int :=
  match die with
  | 0 => w.temp 0
  | 1 => w.upperUsed
  | 2 => w.temp 3
  | _ => w.temp 4

/-- The estimate of a region (R414): half the sum of its hottest attic and lower-cellar sensors plus 0.25 °C/W of hatch power. -/
def regionEst (r : Int × Int × Int × Nat) : Int := (r.1 + r.2.1) / 2 + (r.2.2.2 : Int) / 4

/-- A condition that holds since a stamp: that stamp plus 1, or 0. -/
def since (old now : Nat) (holds : Bool) : Nat := if holds then (if old = 0 then now + 1 else old) else 0

/-- THERMAL_SENSE: one reading of a tower's sensors. -/
def execThermalSense (t : Fin 4) (m : ThermalMeas) (s : State) : Out :=
  if !s.powered t then .next s
  else
    let now := s.stamp t
    let rs := (m.regions.take 16).map fun r => (regionEst r, r.2.2.1)
    let est := rs.foldl (fun (a : Int) r => max a r.1) (rs.headD (0, 0)).1
    .next (s.modTower t fun w =>
      let w1 : Tower :=
        { w with
          temps := [m.attic, m.upper, est, m.lower, m.hbm], regions := rs
          estRun := (List.range 16).foldl (fun e i =>
            let r := rs.getD i (0, 0)
            SMap.put 0 e i (since (SMap.get 0 e i) now (decide (r.2 + 6000 < r.1)))) w.estRun }
      { w1 with
        tripSince := (List.range 4).foldl (fun e i => SMap.put 0 e i (since (SMap.get 0 e i) now (decide (tripOf i ≤ w1.dieTemp i)))) w.tripSince })

/-- A temperature of the tower lies at or above its limit less a margin in m°C. -/
def Tower.hotter (w : Tower) (margin : Int) : Bool := (List.range 4).any fun d => decide (limitOf d - margin ≤ w.dieTemp d)

/-- The next thermal limit in mW (R411): 2 % of the set budget lower, or 1 % higher up to the set budget. -/
def State.nextLimit (s : State) (t : Nat) : Option Nat :=
  let w := s.tower t
  let set := s.setBudget t
  let margin : Int := (max 2 (s.fget pwrPolicyThrottleMarginC t) : Nat) * 1000
  let cur := match w.thermalMw with | some x => min x (set * 1000) | none => set * 1000
  if w.hotter margin then some (max (s.standingMw t).ceil.toNat (cur - 20 * set))
  else if w.hotter (margin + 3000) then w.thermalMw
  else if cur + 10 * set < set * 1000 then some (cur + 10 * set) else none

/-- THROTTLE_STEP. (DEDUCED, log entry 116.) -/
def execThrottleStep (t : Fin 4) (s : State) : Out :=
  let n := s.nextLimit t
  if !s.powered t ∨ n = (s.tower t).thermalMw then .next s
  else
    let begins := !s.throttled t
    let s1 := (s.refill t).modTower t fun w => { w with thermalMw := n }
    let s2 := if s1.throttled t ∧ begins then s1.fset thmStatusHotEvent 1 t else s1
    .next ((s2.safetyOn (tgtTower t)).clampDuty t)

/-- THERMAL_HALVING (R412). -/
def execThermalHalving (t : Fin 4) (die : Fin 4) (s : State) : Out :=
  let w := s.tower t
  if !s.powered t ∨ w.halvedDies.contains die.val ∨ w.dieTemp die < limitOf die then .next s
  else
    let s1 := (s.modTower t fun w =>
      { w with halvedDies := w.halvedDies ++ [die.val]
               grants := w.grants.map fun g => if dieOfDom g.req.domain.toNat = some die.val then { g with granted := g.granted / 2 } else g }).fset
      thmStatusHotEvent 1 t
    .next ((s1.safetyOn (tgtDie t die)).clampDuty t)

/-- THERMAL_HALVING_END. -/
def execThermalHalvingEnd (t : Fin 4) (die : Fin 4) (s : State) : Out :=
  let w := s.tower t
  .next (if w.halvedDies.contains die.val ∧ w.dieTemp die < limitOf die - 2000 then
    s.modTower t fun w => { w with halvedDies := w.halvedDies.filter (· ≠ die.val) } else s)

/-- Whole degrees of a temperature, 0 for 0 °C and below. -/
def wholeC (m : Int) : Nat := (m / 1000).toNat

/-- THERMAL_TRIP (R413): the rails switch off without an ordered stop. -/
def execThermalTrip (t : Fin 4) (die : Fin 4) (s : State) : Out :=
  let w := s.tower t
  let at_ := SMap.get 0 w.tripSince die
  if !s.powered t ∨ at_ = 0 ∨ s.stamp t + 1 < at_ + 20000 ∨ w.dieTemp die < tripOf die then .next s
  else
    let s1 := s.logEvent 0x0015 3 t [die.val, wholeC (w.dieTemp die)]
    .next ((s1.modMod fun m => { m with thermtripN := false, tripped := true }).railsOff)

/-- THERMAL_SENSOR_SUSPECT (R414). -/
def execThermalSensorSuspect (t : Fin 4) (region : Fin 16) (s : State) : Out :=
  let w := s.tower t
  let at_ := SMap.get 0 w.estRun region
  if !s.powered t ∨ w.suspect ∨ at_ = 0 ∨ s.stamp t + 1 < at_ + 4000000 then .next s
  else
    let s1 := (s.modTower t fun w => { w with suspect := true }).fset thmStatusHotEvent 1 t
    .next ((s1.logEvent 0x0014 1 t [region.val, wholeC (w.regions.getD region (0, 0)).1]).rehealth)

end Sys2Proof.Machine
end

