-- ==== Sys2Proof/Machine/Inventory.lean ====
section
/-! DEFINITION. The firmware package's verification (R451, R452), the identity (R455-R457), the inventory record's bytes and its
comparison (R428, R429, R467), and soft repair (R425). -/

namespace Sys2Proof.Machine

/-! ## The package (R451, R452) -/

/-- A little-endian field of a package. -/
def pkgNat (p : List Byte) (off n : Nat) : Nat := leNat ((p.drop off).take n)
/-- Bytes of a package. -/
def pkgBytes (p : List Byte) (off n : Nat) : List Byte := (p.drop off).take n
/-- Reserved bytes are zero. -/
def pkgZero (p : List Byte) (off n : Nat) : Bool := (pkgBytes p off n).all fun b => b = 0#8

/-- The component table of a package: type, length, offset, digest. -/
structure Component where
  type : Nat
  len : Nat
  off : Nat
  digest : List Byte
  deriving DecidableEq, Repr

def components (p : List Byte) : List Component :=
  (List.range (pkgNat p 6 2)).map fun i =>
    let b := 512 + 64 * i
    ⟨pkgNat p b 1, pkgNat p (b + 4) 4, pkgNat p (b + 8) 8, pkgBytes p (b + 16) 48⟩

/-- Two components share a byte. -/
def Component.meets (a b : Component) : Bool := decide (a.off < b.off + b.len) && decide (b.off < a.off + a.len)

/-- Step 1 of R452: magic, format, reserved fields, sizes and component table are well formed. -/
def pkgFormed (p : List Byte) : Bool :=
  let n := p.length
  let cs := components p
  let sig := n - 1792
  decide (n % 64 = 0) && decide (n ≤ 2 ^ 25) && decide (512 + 64 * pkgNat p 6 2 ≤ sig) && decide (pkgNat p 0 4 = 0x4B505A4F) && decide (pkgNat p 4 2 = 1) &&
  decide (1 ≤ pkgNat p 6 2) && decide (pkgNat p 6 2 ≤ 32) && decide (pkgNat p 24 8 = n) &&
  pkgZero p 12 4 && pkgZero p 32 96 && pkgZero p 280 232 && pkgZero p (n - 84) 84 &&
  ((List.range cs.length).all fun i => pkgZero p (512 + 64 * i + 1) 3) &&
  (cs.all fun c => decide (1 ≤ c.type) && decide (c.type ≤ 5) && decide (c.off % 4096 = 0) && decide (c.off + c.len ≤ sig)) &&
  (cs.zipIdx.all fun a => cs.zipIdx.all fun b => a.2 = b.2 || (a.1.type ≠ b.1.type && !a.1.meets b.1)) &&
  ([1, 2, 3].all fun t => cs.any fun c => c.type = t)

/-- The digest of the signed region, M. -/
def pkgM (p : List Byte) : BitVec 384 := Config.sha384 (p.take (p.length - 1792))

/-- The first step of R452 that a package fails, 0 when it is valid. -/
def pkgStep (p : List Byte) : Nat :=
  let e := p.length - 1792
  let ecdsa := pkgBytes p 128 96
  let lms := pkgBytes p 224 56
  if !pkgFormed p then 1
  else if Config.sha384 ecdsa ≠ Config.romEcdsaDigest ∨ Config.sha384 lms ≠ Config.romLmsDigest then 2
  else if !Config.ecdsaVerify ecdsa (pkgM p) (pkgBytes p e 96) then 3
  else if !Config.lmsVerify lms (digestBytes (pkgM p)) (pkgBytes p (e + 96) 1612) then 4
  else if (components p).all fun c => digestBytes (Config.sha384 (pkgBytes p c.off c.len)) = c.digest then 0 else 5

/-! ## Identity (R455, R457) -/

/-- The trust block tries T0's helper record and then T1's. -/
def State.findIdentity (s : State) : State :=
  let try_ (t : Nat) : Option (Nat × BitVec 384) :=
    s.mod.helper.findSome? fun r => if leNat (r.take 1) = t then (Config.pufUnwrap t r).map fun k => (t, k) else none
  match (try_ 0).orElse fun _ => try_ 1 with
  | some (t, k) => s.modMod fun m => { m with seed := some k, pufTower := t }
  | none => (s.modMod fun m => { m with seed := none, pufTower := 0 }).logEvent 0x0005 2 s.mod.lead []

/-! ## Measurements at bring-up (Table 15-5) -/

/-- Extend a slot with a digest. -/
def State.extendDigest (s : State) (i : Nat) (d : BitVec 384) : State :=
  let old := SMap.get 0#384 s.mod.meas i
  s.modMod fun m => { m with meas := SMap.put 0#384 m.meas i (Config.sha384 (digestBytes old ++ digestBytes d)) }

/-- The record of slot 8: straps, the source used, the variant. -/
def State.bootRecord (s : State) (src : Nat) : List Byte :=
  leBytes 1 s.mod.straps.fwsrc ++ leBytes 1 (nb s.mod.straps.bridgeEn) ++ leBytes 1 src ++
  leBytes 1 (match s.mod.variant with | .x => 0 | .s => 1) ++ leBytes 12 0

/-- The extensions of phase 2. -/
def State.measureBoot (s : State) (pkg : List Byte) (src : Nat) : State :=
  let s1 := (((s.modMod fun m => { m with meas := [] }).extendDigest 0 Config.romDigest).extend 1 (pkgBytes pkg 0 512)).extend 2 (pkgBytes pkg 8 16)
  let s2 := [1, 2, 3, 4, 5].foldl (fun (s : State) k =>
    match pkgComponent pkg k with
    | some (off, len) => s.extend (k + 2) (pkgBytes pkg off len)
    | none => s) s1
  s2.extend 8 (s.bootRecord src)

/-! ## The inventory record (Tables 14-3 and 14-4) -/

def InvTower.bytes (w : InvTower) : List Byte :=
  w.spareMap.flatMap (leBytes 1) ++ leBytes 2 w.lost ++ leBytes 1 (nb w.fenced) ++ leBytes 1 0 ++ leBytes 4 w.retiredU ++ leBytes 4 w.retiredL ++
  leBytes 2 w.worstBay ++ leBytes 2 w.worstUsed ++ w.hbmRepairs.flatMap (leBytes 2) ++ w.hbmFailed.flatMap (leBytes 4) ++
  w.lanes.flatMap (leBytes 1) ++ leBytes 2 w.phasesLost ++ leBytes 2 0 ++ leBytes 4 (min (2 ^ 32 - 1) w.ceHour) ++ leBytes 168 0

/-- Bytes 16 to 1,087. -/
def Inventory.body (r : Inventory) : List Byte :=
  leBytes 16 r.fingerprint.toNat ++ leBytes 1 r.nextTest ++ leBytes 31 0 ++ r.towers.flatMap InvTower.bytes

/-- The record's 1,088 bytes. -/
def Inventory.bytes (r : Inventory) : List Byte :=
  leBytes 4 0x564E4951 ++ leBytes 1 1 ++ leBytes 1 r.lastHealth ++ leBytes 2 1088 ++ leBytes 4 r.bootCount ++ leBytes 4 (crc32c r.body) ++ r.body

/-- A cold bring-up runs the quick memory test (R424). -/
def Module.quick (m : Module) : Bool :=
  match m.record with
  | some r => r.nextTest = 1 && r.lastHealth = 0 && decide ((r.bootCount + 1) % 16 ≠ 0)
  | none => false

/-! ## Comparison at the end of phase 6 (R429, R467) -/

/-- What a record without defects holds for a tower. -/
def InvTower.none : InvTower := ⟨List.replicate 8 0xFF, 0, false, 0, 0, 0, 0, List.replicate 8 0, List.replicate 8 0, List.replicate 8 0, 0, 0⟩

/-- NEW_DEFECT and DEFECT_CLEARED entries. -/
def State.newDefect (s : State) (t kind loc fig : Nat) : State := s.logEvent 0x0007 1 t [kind, t * 2 ^ 24 + loc, fig]
def State.oldDefect (s : State) (t kind loc fig : Nat) : State := s.logEvent 0x0008 0 t [kind, t * 2 ^ 24 + loc, fig]

/-- Bits of one mask that another lacks. -/
def bitsOnly (n a b : Nat) : List Nat := (List.range n).filter fun i => a.testBit i && !b.testBit i

/-- Lost clusters: those that a spare replaces, and failed spares, stand in the record by their place; of the others it holds the
number, so that of these only those beyond that number count as new, and the place of one that is cleared is free. (DEDUCED, log entry 108.) -/
def State.compareClusters (s : State) (t : Nat) (old : InvTower) : State :=
  let here := (s.tower t).lostPos
  let known (p : Nat) : Bool :=
    let v := old.spareMap.getD (p / 17) 0xFF
    if p % 17 = 8 then v = 0xFE else v = p % 17
  let place (p : Nat) : Nat := p / 17 * 256 + p % 17
  let fresh := here.filter fun p => !known p
  let named := fresh.filter fun p => p % 17 = 8
  let rest := fresh.filter fun p => p % 17 ≠ 8
  let gone := (List.range 136).filter fun p => known p && !here.contains p
  let s1 := (named ++ rest.drop old.lost).foldl (fun (s : State) p => s.newDefect t 1 (place p) 0) s
  let s2 := gone.foldl (fun (s : State) p => s.oldDefect t 1 (place p) 0) s1
  (List.range (old.lost - rest.length)).foldl (fun (s : State) _ => (s.oldDefect t 1 (s.free1 % 65536) 0).drawn 1) s2

/-- Failed channels and lane pairs. -/
def State.compareMasks (s : State) (t kind n : Nat) (now old : List Nat) : State :=
  (List.range 8).foldl (fun (s : State) i =>
    let s1 := (bitsOnly n (now.getD i 0) (old.getD i 0)).foldl (fun (s : State) b => s.newDefect t kind (i * 256 + b) 0) s
    (bitsOnly n (old.getD i 0) (now.getD i 0)).foldl (fun (s : State) b => s.oldDefect t kind (i * 256 + b) 0) s1) s

/-- Lost phases: the record holds their number only, so that more of them than it counts are told domain by domain, and the
domain of cleared ones is free. -/
def State.comparePhases (s : State) (t : Nat) (old : InvTower) : State :=
  let mine := (s.tower t).phasesLost
  let n := (mine.map fun e => e.2).sum
  if old.phasesLost < n then mine.foldl (fun (s : State) e => s.newDefect t 4 (e.1 % 1024) e.2) s
  else if n < old.phasesLost then (s.oldDefect t 4 (s.free1 % 1024) (old.phasesLost - n)).drawn 1
  else s

/-- Spare rows grown by more than 16 on a die. -/
def State.compareRows (s : State) (t : Nat) (now old : InvTower) : State :=
  let s1 := if old.retiredU + 16 < now.retiredU then s.newDefect t 5 0 now.retiredU else s
  if old.retiredL + 16 < now.retiredL then s1.newDefect t 5 256 now.retiredL else s1

/-- The findings of a tower against its section of the record. -/
def State.compareTower (s : State) (t : Nat) (old : InvTower) : State :=
  let now := s.invTower t
  let s1 := (s.compareClusters t old).compareMasks t 2 32 now.hbmFailed old.hbmFailed
  ((s1.compareMasks t 3 8 now.lanes old.lanes).comparePhases t old).compareRows t now old

/-- The comparison: a foreign record counts as missing. (DEDUCED, log entry 107.) -/
def State.compareInventory (s : State) : State :=
  let foreign := match s.mod.record with | some r => s.mod.seed.isNone || r.fingerprint ≠ s.fingerprint | none => false
  let old := if foreign then none else s.mod.record
  let s1 := if foreign then (s.logEvent 0x0006 1 s.mod.lead []).modMod fun m => { m with bootCount := 1 } else s
  let s2 := (List.range 4).foldl (fun (s : State) t =>
    if (s.tower t).fence ≠ 0 then s
    else s.compareTower t (match old with | some r => r.towers.getD t InvTower.none | none => InvTower.none)) s1
  match old with
  | some r => if r.lastHealth = 2 then s2.trigger 7 else s2
  | none => s2

/-! ## Soft repair (R425) -/

/-- A failing physical row: a spare becomes unusable, and the data row it held, or a failing data row, is retired to another. -/
def State.repairRow (s : State) (t die bay prow : Nat) : State :=
  let row := s.rowOf t die bay prow
  let k := die * 136 + bay
  let s1 := if prow < dataRows then s
    else s.modTower t fun w =>
      { w with usedSpares := SMap.put [] w.usedSpares k ((SMap.get [] w.usedSpares k).filter (· ≠ prow))
               badSpares := SMap.put [] w.badSpares k ((SMap.get [] w.badSpares k).filter (· ≠ prow) ++ [prow]) }
  match row with
  | some r => s1.retireRow t die bay r
  | none => s1

/-- A failing row that still holds data makes its bay unusable. -/
def State.bayBad (s : State) (f : TestFindings) (t bay : Nat) : Bool :=
  f.rows.any fun e => e.1 = t && e.2.2.1 = bay && (s.rowOf t e.2.1 bay e.2.2.2).isSome

/-- Phases whose loss takes a cluster cell out: two of OZ3-X, the LDO of OZ3-S. -/
def State.cellLost (s : State) (t p : Nat) : Bool :=
  match s.mod.variant with | .x => decide (2 ≤ s.lostPhases t p) | .s => decide (1 ≤ s.lostPhases t p)

/-- Lost positions of a tower. -/
def State.findLost (s : State) (f : TestFindings) (t : Nat) : List Nat :=
  (List.range 136).filter fun p => (f.shelves.any fun e => e.1 = t && 17 * e.2.1 + e.2.2 = p) || s.bayBad f t p || s.cellLost t p

/-- The logical cluster whose own column is a position. -/
def ownCluster (p : Nat) : Nat := if p % 17 ≤ 7 then p / 17 * 8 + p % 17 else 64 + p / 17 * 8 + (p % 17 - 9)

/-- The column that a row's spare replaces, given the lost positions: that of the lost cluster with the lowest number. -/
def spareFor (lost : List Nat) (row : Nat) : Nat :=
  if lost.contains (17 * row + 8) then 0xFE
  else match (lost.filter fun p => p / 17 = row).map ownCluster with
    | [] => 0xFF
    | c :: cs => gridCol (cs.foldl min c)

/-- Clusters of a tower after repair: those that lost their place and have no spare are absent, the others wait for a wave. -/
def State.placeClusters (s : State) (t : Nat) (lost : List Nat) : State :=
  let s1 := s.modTower t fun w =>
    { w with lostPos := lost, spares := (List.range 8).foldl (fun m r => SMap.put 0xFF m r (spareFor lost r)) [] }
  let gone (c : Nat) : Bool := lost.contains (17 * gridRow c + gridCol c) && s1.spare t (gridRow c) ≠ gridCol c
  let s2 := (List.range 128).foldl (fun (s : State) c =>
    s.modClu t c fun x => { x with absent := gone c, dom := if gone c then .lost else .retention, selfTested := false }) s1
  s2.modTower t fun w => { w with hot := (List.range 128).filter fun c => !gone c }

/-- HBM rows: repaired where their bank can be, else the channel fails. -/
def State.repairHbm (s : State) (t : Nat) (f : TestFindings) : State :=
  (f.hbm.filter fun e => e.1 = t).foldl (fun (s : State) e =>
    if e.2.2.2 then s.modTower t fun w => { w with hbmRepairs := SMap.put 0 w.hbmRepairs e.2.1 (SMap.get 0 w.hbmRepairs e.2.1 + 1) }
    else s.failChannel t e.2.1 e.2.2.1) s

/-- Sticky triggers that the findings raise (Table 14-6). -/
def State.repairTriggers (s : State) (t : Nat) : State :=
  let s1 := if (s.absents t).any fun c => s.spare t (gridRow c) ≠ 0xFF then s.trigger 0 else s
  if (s.tower t).phasesLost.any fun e => decide (2 ≤ e.2) || (s.mod.variant = .s && decide (e.1 < 0x100)) then s1.trigger 4 else s1

/-- Soft repair of one tower. -/
def State.repairTower (s : State) (f : TestFindings) (t : Nat) : State :=
  let spares := f.rows.filter fun e => e.1 = t && decide (dataRows ≤ e.2.2.2)
  let data := f.rows.filter fun e => e.1 = t && decide (e.2.2.2 < dataRows)
  let s1 := (spares ++ data).foldl (fun (s : State) e => s.repairRow t e.2.1 e.2.2.1 e.2.2.2) s
  ((s1.repairHbm t f).placeClusters t (s1.findLost f t)).repairTriggers t

end Sys2Proof.Machine
end

