-- ==== Sys2Proof/Machine/Bringup.lean ====
section
/-! DEFINITION. Supply, resets by pins, clocks and stamps (R22, R29-R36, R40-R45), and bring-up from phase 1 to READY
(R418-R429, R437). -/

namespace Sys2Proof.Machine

/-! ## Cold reset and the 12 V input (R29-R36, R410, R463) -/

/-- The module right after a cold reset, with the straps sampled (R29, R30): the reset state, with what lies outside the module
(pins, EEPROM, flash, certificates, host memory) and the variant as they were, and LOG_START with this bring-up's boot count. (DEDUCED, log entry 102.) (DEDUCED, log entry 104.) (DEDUCED, log entry 114.) -/
def State.afterCold (s : State) (straps : Straps) : State :=
  let m := s.mod
  let boots := (max (match m.invA with | some r => r.bootCount | none => 0) (match m.invB with | some r => r.bootCount | none => 0)) + 1
  let keep : Module :=
    { Module.init with
      variant := m.variant, straps := straps, pwrEn := m.pwrEn, perstN := m.perstN, vinMv := m.vinMv, invA := m.invA, invB := m.invB
      invCurB := m.invCurB, nor := m.nor, helper := m.helper, certs := m.certs, bootCount := boots
      log := [⟨1, 1, 0, 0, 0#64, [BitVec.ofNat 32 boots]⟩] }
  { State.reset with pending := s.pending, free := s.free, mod := keep, mem := { State.reset.mem with host := s.mem.host }, out := s.out }.defaultBudgets

/-- COLD_RESET: SB_COLD_RST_N low for heldNs nanoseconds; whether a pulse below 10 µs resets is free (R30). (DESIGN CHOICE, log entry 115.) -/
def execColdReset (heldNs : Nat) (straps : Straps) (s : State) : Out :=
  if 10000 ≤ heldNs then .next (s.afterCold straps)
  else .next (if s.freeB then (s.drawn 1).afterCold straps else s.drawn 1)

/-- The main rails come up and phase 2 begins, when SB_PWR_EN is high and nothing holds the module off (R31, R34, R36, R413). A cold
bring-up that begins again after a stop logs its own LOG_START (R410, Table 15-7). (DEDUCED, log entry 112.) -/
def State.powerUp (s : State) : State :=
  if s.mod.railsOn ∨ !s.mod.pwrEn ∨ !s.mod.inputOk ∨ s.mod.overvolt ∨ s.mod.tripped ∨ !(s.mod.aonUp.any id) then s
  else
    let s0 := (List.range 4).foldl (fun (s : State) t => s.modTower t fun w => { w with on := true }) s
    let s1 := if s.mod.phase = 0 then s0 else s0.logEvent 0x0001 0 s.mod.lead [s.mod.boots + 1]
    (s1.modMod fun m =>
      { m with railsOn := true, pwrGood := true, bootStart := if m.phase = 0 then 0 else m.aonStamp }).startFirmware

/-- INPUT_QUALIFIED: the input has held 10.8 V for 10 ms. -/
def execInputQualified (s : State) : Out := .next (s.modMod fun m => { m with inputOk := true, vinMv := max 10800 m.vinMv }).powerUp

/-- SB_PWR_EN_FALL (R31). -/
def execSbPwrEnFall (s : State) : Out :=
  .next (if s.mod.pwrEn then (s.modMod fun m => { m with pwrEn := false }).orderedStop 2 else s)

/-- SB_PWR_EN_RISE: it also ends a thermal trip (R32, R410, R413). -/
def execSbPwrEnRise (s : State) : Out :=
  .next (if s.mod.pwrEn then s else (s.modMod fun m => { m with pwrEn := true, thermtripN := true, tripped := false }).powerUp)

/-- INPUT_OVERVOLTAGE (R36): only a cold reset restarts the module. -/
def execInputOvervoltage (mv us : Nat) (s : State) : Out :=
  if mv ≤ 13800 ∨ us ≤ 100 ∨ s.mod.overvolt then .next s
  else .next (((s.modMod fun m => { m with overvolt := true, vinMv := mv }).logEvent 0x0012 2 s.mod.lead [mv]).railsOff)

/-- INPUT_LOSS (R34, R463): the island stops, and with it goes the event log; a cold reset starts the module again. -/
def execInputLoss (s : State) : Out :=
  .next ((s.afterCold s.mod.straps).modMod fun m =>
    ({ m with log := [], newest := 0, aonUp := [false, false], vinMv := 0, railsOn := false } : Module).alert)

/-- ISLAND_FAILOVER (R22). (DEDUCED, log entry 111.) -/
def execIslandFailover (s : State) : Out :=
  .next (if s.mod.aonTower = 0 ∧ s.mod.aonUp.getD 1 false then s.modMod fun m => { m with aonTower := 1, aonUp := [false, true], mirrorOk := false }
    else s)

/-! ## Clocks and stamps (R40-R45) -/

/-- A tower whose PLL runs. (DEDUCED, log entry 109.) -/
def State.clocked (s : State) (t : Nat) : Bool := s.powered t && s.mod.pllPhase.getD t false

/-- PLL_HOLDOVER. -/
def execPllHoldover (t : Fin 4) (s : State) : Out :=
  if !s.clocked t ∨ s.mod.holdover.getD t false then .next s
  else
    let s1 := (s.modMod fun m => { m with holdover := m.holdover.set t true }).fset hltClkStatusHoldoverSeen 1 t
    .next ((s1.logEvent 0x0016 1 t [1]).rehealth)

/-- PLL_HOLDOVER_EXIT. -/
def execPllHoldoverExit (t : Fin 4) (s : State) : Out :=
  if !(s.mod.holdover.getD t false) then .next s
  else .next (((s.modMod fun m => { m with holdover := m.holdover.set t false }).logEvent 0x0016 1 t [0]).rehealth)

/-- 100 ppm in 2^-32 counts per TELE cycle. -/
def ppm100 : Int := 429496

/-- The count that a TELE cycle adds, in 2^-32: 1 and the adjustments, at most ±100 ppm (R41, R42). -/
def Tower.tickStep (w : Tower) : Nat := (2 ^ 32 + max (-ppm100) (min ppm100 (w.rate + w.steer))).toNat

/-- Stamp and fraction as one count of 2^-32. -/
def Tower.fine (w : Tower) : Nat := w.stamp.toNat * 2 ^ 32 + w.frac.toNat
def Tower.setFine (w : Tower) (n : Nat) : Tower := { w with stamp := BitVec.ofNat 64 (n / 2 ^ 32), frac := BitVec.ofNat 32 n }

/-- STAMP_TICK: one TELE cycle of a tower. A tower in TOWER reset holds its counter (R45); the island's own count goes with the lead
tower's cycles (DEDUCED, log entry 71). The granted power of 5 ns enters the budget window's prediction (R390). -/
def execStampTick (t : Fin 4) (s : State) : Out :=
  let s1 := if s.mod.lead = t.val then s.modMod fun m => { m with aonStamp := m.aonStamp + 1 } else s
  if !s.clocked t ∨ (s.tower t).inTower then .next s1
  else .next (s1.modTower t fun w => { w.setFine (w.fine + w.tickStep) with windowMj := w.windowMj + s.grantedMw t / 200000000 })

/-- STAMP_TOWER_STEER (R42): a tower other than the lead takes the lead's rate and steers against its own difference; by how much
is free (DESIGN CHOICE, log entry 52). -/
def execStampTowerSteer (t : Fin 4) (s : State) : Out :=
  let l := s.tower s.mod.lead
  let w := s.tower t
  if s.mod.lead = t.val ∨ !s.clocked t ∨ w.inTower then .next s
  else
    let size : Int := 1 + (s.free1 % 429496 : Nat)
    let steer : Int := if w.fine < l.fine then size else if l.fine < w.fine then -size else 0
    .next ((s.modTower t fun w => { w with rate := l.rate, steer := steer }).drawn 1)

/-! ## Phase 2: firmware (R419-R421, R452) -/

/-- Phase 3 ends when every tower is locked or fenced off: training begins (R348, R421, R422). -/
def State.clocksDone (s : State) : State :=
  if s.mod.phase ≠ 2 ∨ s.leadsGone ∨ !((List.range 4).all fun t => (s.tower t).fence ≠ 0 || s.mod.pllPhase.getD t false) then s
  else
    let s1 := (s.modMod fun m => { m with phase := 3 }).setBridge (if (s.tower 0).fence ≠ 0 then 1 else 0)
    (List.range 4).foldl (fun (s : State) t => if (s.tower t).fence ≠ 0 then s else s.trainPorts t) s1

/-- Phase 3 begins: every tower is tested anew, but for those of fence_mask (R439), and T0 leads while it is not fenced off. (DEDUCED, log entry 105.) -/
def State.startClocks (s : State) : State :=
  let s1 := (List.range 4).foldl (fun (s : State) t => s.modTower t fun w => { w with fence := 0, on := true }) s
  let s2 := (s1.modMod fun m => { m with phase := 2, lead := 0 }).defaultBudgets
  ((List.range 4).foldl (fun (s : State) t => if s.mod.fenceMask.testBit t then s.fenceTower t 5 else s) s2).clocksDone

/-- A verified package is loaded: identity, measurements, and phase 3. -/
def State.loadPackage (s : State) (src : Nat) (pkg : List Byte) : State :=
  ((s.modMod fun m => { m with verified := true, pkg := pkg, fwSource := src }).findIdentity.measureBoot pkg src).startClocks

/-- What a source delivers is the package: the bytes that the host staged, what a neighbour sent over a trained port of T0, or
the image in the flash, which the first read of it tells the model (DESIGN CHOICE, log entry 60). -/
def State.delivers (s : State) (src : Nat) (pkg : List Byte) : Bool :=
  match src with
  | 0 => s.mod.bridge.isSome && s.mod.staging = some pkg.length && decide (pkg.length ≤ 2 ^ 26) &&
    (pkg.zipIdx.all fun b => SMap.get 0#8 s.mod.stage b.2 = b.1)
  | 1 => (List.range 8).any fun p => (s.port 0 p).live
  | _ => s.mod.nor = [] || s.mod.nor = pkg

/-- FIRMWARE_FETCH: a package that fails a step of R452 makes its source fail. -/
def execFirmwareFetch (src : Fin 3) (pkg : List Byte) (s : State) : Out :=
  if s.mod.phase ≠ 1 ∨ !s.mod.railsOn ∨ s.mod.fwSource ≠ src.val ∨ s.mod.fwFail ≠ 0 ∨ !s.delivers src pkg then .next s
  else
    let s1 := if src.val = 2 then s.modMod fun m => { m with nor := pkg } else s
    .next (match pkgStep pkg with
      | 0 => s1.loadPackage src pkg
      | k => s1.modMod fun m => { m with fwFail := k })

/-- The source after one that has failed, in the strap's order. -/
def Module.nextSource (m : Module) : Option Nat := (fwOrder m.straps.fwsrc).find? fun x => !m.fwTried.contains x

/-- FW_SOURCE_FAILED (R420). (DEDUCED, log entry 106.) -/
def execFwSourceFailed (src : Fin 3) (s : State) : Out :=
  if s.mod.phase ≠ 1 ∨ !s.mod.railsOn ∨ s.mod.fwSource ≠ src.val then .next s
  else
    let s1 := (s.logEvent 0x0004 2 s.mod.lead [src, if s.mod.fwFail = 0 then 1 else 2 + s.mod.fwFail * 256]).modMod fun m =>
      { m with fwTried := m.fwTried ++ [src.val] }
    .next (match s1.mod.nextSource with
      | some n => s1.openSource n
      | none => (s1.modMod fun m => { m with phase := 15 }).setHealth .failed)

/-- STAGING_LENGTH_WRITE (R419). -/
def execStagingLengthWrite (len : Nat) (s : State) : Out :=
  .next (if s.staged? ∧ s.hostUp ∧ s.mod.staging = none then s.modMod fun m => { m with staging := some len } else s)

/-! ## Phases 3 to 5 (R421-R424) -/

/-- PLL_LOCK; after a MODULE_WARM the counter loads the island's count (R45). -/
def execPllLock (t : Fin 4) (s : State) : Out :=
  if s.mod.phase ≠ 2 ∨ !s.powered t ∨ s.mod.pllPhase.getD t false then .next s
  else
    let s1 := s.modMod fun m => { m with pllPhase := m.pllPhase.set t true }
    .next (if s.mod.warm then s1.modTower t fun w => { w with stamp := BitVec.ofNat 64 s.mod.aonStamp, frac := 0#32 } else s1).clocksDone

/-- PLL_LOCK_TIMEOUT (R421, R433): the cause is 1, or 4 in a MODULE_WARM. -/
def execPllLockTimeout (t : Fin 4) (s : State) : Out :=
  if s.mod.phase ≠ 2 ∨ !s.powered t ∨ s.mod.pllPhase.getD t false then .next s
  else .next ((s.fenceTower t (if s.mod.warm then 4 else 1)).clocksDone)

/-- TRAINING_COMPLETE: channels that failed training fail (tower, stack, channel). -/
def execTrainingComplete (failed : List (Nat × Nat × Nat)) (s : State) : Out :=
  if s.mod.phase ≠ 3 then .next s
  else
    let fs := failed.filter fun e => decide (e.1 < 4) && (s.tower e.1).fence = 0 && decide (e.2.1 < 8) && decide (e.2.2 < 32)
    .next ((fs.foldl (fun (s : State) e => s.failChannel e.1 e.2.1 e.2.2) s).modMod fun m => { m with phase := 4 })

/-- MEMORY_TEST: full, quick, or the short test of a MODULE_WARM, which leaves HBM alone. What it finds waits for soft repair. -/
def execMemoryTest (f : TestFindings) (s : State) : Out :=
  if s.mod.phase ≠ 4 then .next s
  else
    let warm := s.mod.warm
    let up (t : Nat) : Bool := decide (t < 4) && (s.tower t).fence = 0
    let g : TestFindings := ⟨f.rows.filter fun e => up e.1, f.shelves.filter fun e => up e.1, if warm then [] else f.hbm.filter fun e => up e.1⟩
    let s1 := s.modMem fun m =>
      { m with shelf := [], cells := [], valid := [], hbm := if warm then m.hbm else [], wq := [] }
    .next (s1.modMod fun m => { m with findings := some g, test := if warm then 2 else if s.mod.quick then 1 else 0, phase := 5 })

/-! ## Phases 6 to 9 (R425-R429) -/

/-- SOFT_REPAIR. -/
def execSoftRepair (s : State) : Out :=
  match s.mod.phase, s.mod.findings with
  | 5, some f =>
    let s1 := (List.range 4).foldl (fun (s : State) t => if (s.tower t).fence ≠ 0 then s else s.repairTower f t) s
    .next ((s1.compareInventory.modMod fun m => { m with phase := 6, findings := none }).wavesEnd)
  | _, _ => .next s

/-- A cluster that fails its self-test is lost; its row's spare takes its place when it is free and passed, and a spare that
fails leaves the cluster absent (R426). -/
def State.failSelfTest (s : State) (t c : Nat) : State :=
  let p := s.phys t c
  let row := gridRow c
  let s1 := ((s.modClu t c fun x => { x with absent := true, dom := .lost }).modTower t fun w => { w with lostPos := w.lostPos ++ [p] }).logEvent
    0x0020 1 t [p, c]
  if p % 17 = 8 then ((s1.putSpare t row 0xFE).abandon (.wake t c)).trigger 0
  else
    match s1.rowLost t row with
    | some d => ((s1.standIn t d).modTower t fun w => { w with hot := w.hot ++ [d] })
    | none => (s1.abandon (.wake t c)).trigger 0

/-- CLUSTER_SELF_TEST of a physical position. -/
def execClusterSelfTest (t : Fin 4) (row : Fin 8) (col : Fin 17) (pass : Bool) (s : State) : Out :=
  match s.logical t (17 * row + col) with
  | none => .next s
  | some c =>
    let x := s.clu t c
    if !s.powered t ∨ x.dom ≠ .waking ∨ x.selfTested then .next s
    else if pass then .next (s.modClu t c fun x => { x with selfTested := true })
    else .next (s.failSelfTest t c).wavesEnd

/-- Every port is qualified, at half width, or down (Table 14-1, phase 8). -/
def State.portsSettled (s : State) : Bool :=
  (List.range 32).all fun k => let m := (s.port (k / 8) (k % 8)).mode; m ≠ .training && m ≠ .qualifying

/-- READY (R427): the towers' stamps are aligned to the lead's (R42), health is computed, the inventory record is written and
measured (R428, R458), and a MODULE_WARM completes. -/
def execReady (s : State) : Out :=
  if s.mod.phase ≠ 7 ∨ !s.portsSettled then .next s
  else
    let l := s.tower s.mod.lead
    let s1 := (List.range 4).foldl (fun (s : State) t =>
      s.modTower t fun w => { w with stamp := l.stamp, frac := l.frac, rate := l.rate, aligned := true }) s
    let s2 := s1.modMod fun m => { m with ready := true, phase := 8, warm := false, bootMs := (m.aonStamp - m.bootStart) / 200000 }
    let s3 := ((s2.logEvent 0x0002 0 s2.mod.lead [s2.mod.bootMs, s2.mod.test]).rehealth).writeInventory
    .next (((s3.extend 9 s3.inventory.bytes).electRoot).finishReset 5 0)

/-- CE_TREND_WINDOW (R437): an hour of stamp time ends. -/
def execCeTrendWindow (s : State) : Out :=
  if !s.mod.ready then .next s
  else
    let n := s.mod.ceNow
    let runs := if s.mod.ceThreshold < n then min 255 (s.mod.ceOver + 1) else 0
    let s1 := s.modMod fun m => { m with ceLast := n, ceOver := runs, ceNow := 0 }
    .next (if s.mod.ceWindows ≤ runs ∧ s.mod.sticky.getLsbD 5 = false then (s1.logEvent 0x0026 1 s1.mod.lead [n]).trigger 5 else s1)

end Sys2Proof.Machine
end

