-- ==== Sys2Proof/Machine/Management.lean ====
section
/-! DEFINITION. The management block (R420, R454, R459-R462): firmware updates, SPDM, I3C and MCTP, PLDM, and vendor messages. An
answer's content is what the specification gives; its framing is the standards' own (Config.standardReply, PRESUMED, log entry 72). -/

namespace Sys2Proof.Machine

/-! ## Answers -/

/-- Kinds of answers. -/
def ansError : Nat := 0
def ansBusy : Nat := 1
def ansSpdm (code : Nat) : Nat := 0x100 + code
def ansMctp : Nat := 0x200
def ansPldm (code : Nat) : Nat := 0x300 + code

/-- The management block answers a message. -/
def State.reply (s : State) (kind : Nat) (content : List Byte) : State := s.emit (.mgmt (Config.standardReply kind content))

/-- The block answers while one always-on island does (R22, R34). -/
def State.mgmtUp (s : State) : Bool := s.mod.aonUp.any id

/-! ## Firmware update (R420, R454) -/

/-- FIRMWARE_UPDATE: while the module runs, a valid package replaces the flash image; after bring-up has stopped for want of
firmware, the package restarts phase 2 as its only source. -/
def execFirmwareUpdate (pkg : List Byte) (s : State) : Out :=
  let k := pkgStep pkg
  if s.mod.ready then
    .next (if k = 0 then
      ((s.modMod fun m => { m with nor := pkg }).logEvent 0x0037 0 s.mod.lead [pkgNat pkg 8 4]).reply (ansPldm 5) [0#8]
      else s.reply (ansPldm 5) [1#8])
  else if s.mod.phase = 15 then
    .next (if k = 0 then (s.modMod fun m => { m with phase := 1, bootStart := m.aonStamp }).loadPackage s.mod.fwSource pkg
      else s.logEvent 0x0004 2 s.mod.lead [s.mod.fwSource, 2 + k * 256])
  else .next s

/-! ## SPDM (R457-R459) -/

/-- A request enters the transcript that signatures cover; GET_VERSION begins it anew. -/
def State.spdm (s : State) (fresh : Bool) (request : List Byte) : State :=
  s.modMod fun m => { m with spdmLog := (if fresh then [] else m.spdmLog) ++ request }

/-- A request of the responder and its answer. -/
def State.spdmAnswer (s : State) (code : Nat) (request content : List Byte) : Out :=
  .next (if s.mgmtUp then (s.spdm (code = 4) request).reply (ansSpdm code) content else s)

/-- A signed answer: an error without the identity key. -/
def State.spdmSigned (s : State) (code : Nat) (request content : List Byte) : Out :=
  .next (if !s.mgmtUp then s
    else match s.mod.seed with
      | none => (s.spdm false request).reply ansError request
      | some k =>
        let s1 := s.spdm false request
        s1.reply (ansSpdm code) (content ++ Config.identitySign k (s1.mod.spdmLog ++ content)))

/-- GET_VERSION: 1.2 and 1.3. -/
def execGetVersion (msg : List Byte) (s : State) : Out := s.spdmAnswer 4 msg [0x12#8, 0x13#8]
/-- GET_CAPABILITIES: CERT, CHAL, and MEAS with signatures, as the standard's flag word spells them (PRESUMED, log entry 72). -/
def execGetCapabilities (msg : List Byte) (s : State) : Out := s.spdmAnswer 0x61 msg (leBytes 4 0x16)
/-- NEGOTIATE_ALGORITHMS: ECDSA P-384 and SHA-384 twice, as the standard's masks spell them (PRESUMED, log entry 72). -/
def execNegotiateAlgorithms (msg : List Byte) (s : State) : Out := s.spdmAnswer 0x63 msg (leBytes 4 0x80 ++ leBytes 4 0x02 ++ leBytes 4 0x04)
/-- GET_DIGESTS: slot 0 alone holds a chain; without an identity there is none to tell. -/
def execGetDigests (msg : List Byte) (s : State) : Out :=
  if s.mod.seed.isNone then .next (if s.mgmtUp then (s.spdm false msg).reply ansError msg else s)
  else s.spdmAnswer 1 msg (1#8 :: digestBytes (Config.sha384 s.mod.certs))

/-- GET_CERTIFICATE: a part of the chain of slot 0 and the length of what follows. -/
def execGetCertificate (slot off len : Nat) (s : State) : Out :=
  let request := leBytes 1 slot ++ leBytes 2 off ++ leBytes 2 len
  let part := (s.mod.certs.drop off).take len
  if slot ≠ 0 ∨ s.mod.seed.isNone ∨ s.mod.certs.length < off then .next (if s.mgmtUp then (s.spdm false request).reply ansError request else s)
  else s.spdmAnswer 2 request (leBytes 2 part.length ++ leBytes 2 (s.mod.certs.length - off - part.length) ++ part)

/-- CHALLENGE: slot 0, signed. -/
def execChallenge (slot : Nat) (nonce : List Byte) (s : State) : Out :=
  let request := leBytes 1 slot ++ nonce
  if slot ≠ 0 then .next (if s.mgmtUp then (s.spdm false request).reply ansError request else s)
  else s.spdmSigned 3 request (digestBytes (Config.sha384 s.mod.certs))

/-- The measurements that an index names: s + 1 slot s, 0xFF all sixteen; index 0 asks for their number. -/
def State.measured (s : State) (index : Nat) : Option (List Byte) :=
  let slot (i : Nat) : List Byte := leBytes 1 (i + 1) ++ digestBytes (SMap.get 0#384 s.mod.meas i)
  if index = 0 then some [16#8]
  else if index ≤ 16 then some (slot (index - 1))
  else if index = 0xFF then some ((List.range 16).flatMap slot)
  else none

/-- GET_MEASUREMENTS: without a signature it needs no identity (R457). -/
def execGetMeasurements (index : BitVec 8) (sign : Bool) (nonce : List Byte) (s : State) : Out :=
  let request := index :: nonce
  match s.measured index.toNat with
  | none => .next (if s.mgmtUp then (s.spdm false request).reply ansError request else s)
  | some m => if sign then s.spdmSigned 0x60 request m else s.spdmAnswer 0x60 request m

/-! ## I3C, MCTP and PLDM (R460, R461) -/

/-- DYNAMIC_ADDRESS_ASSIGN. -/
def execDynamicAddressAssign (addr : BitVec 7) (s : State) : Out :=
  .next (if s.mgmtUp then s.modMod fun m => { m with dynAddr := addr } else s)

/-- MCTP_CONTROL: Set Endpoint ID (the standard's command 1, operation 0 or 1) assigns the block's ID; every request is answered. -/
def execMctpControl (msg : List Byte) (s : State) : Out :=
  let at_ (i : Nat) : Nat := (msg.getD i 0#8).toNat
  let sets : Bool := decide (4 ≤ msg.length) && at_ 1 = 1 && decide (at_ 2 ≤ 1)
  .next (if !s.mgmtUp then s
    else (if sets then s.modMod fun m => { m with eid := msg.getD 3 0#8 } else s).reply ansMctp msg)

/-- PLDM_BASE_DISCOVERY. -/
def execPldmBaseDiscovery (msg : List Byte) (s : State) : Out := .next (if s.mgmtUp then s.reply (ansPldm 0) msg else s)

/-- A sensor's value and thresholds (R461): 0 and 1 the measured input voltage and current, which are free, 2 the module power,
3 + 4·t + k tower t's attic, upper-cellar, lower-cellar and hottest HBM temperature with T_L and the trip value, 19 the health
state (numbering: PRESUMED, log entry 72). -/
def State.sensor (s : State) (n : Nat) : Option (List Byte × Nat) :=
  if n = 0 ∨ n = 1 then some (leBytes 4 (s.free1 % 2 ^ 16), 1)
  else if n = 2 then some (leBytes 4 (((List.range 4).map fun t => (s.tower t).drawnW).sum), 0)
  else if n < 19 then
    let die := (n - 3) % 4
    some (leBytes 4 (degC ((s.tower ((n - 3) / 4)).dieTemp die)) ++ leBytes 2 (limitOf die / 1000).toNat ++ leBytes 2 (tripOf die / 1000).toNat, 0)
  else if n = 19 then some (leBytes 4 s.mod.health.code, 0)
  else none

/-- PLDM_SENSOR_READ. -/
def execPldmSensorRead (sensor : Nat) (s : State) : Out :=
  .next (if !s.mgmtUp then s
    else match s.sensor sensor with
      | some (v, n) => (s.reply (ansPldm 2) (leBytes 2 sensor ++ v)).drawn n
      | none => s.reply ansError (leBytes 2 sensor))

/-- POLL_FOR_PLATFORM_EVENT_MESSAGE: the oldest entry beyond the acknowledged number is delivered, and acknowledged (R465). -/
def execPollForPlatformEventMessage (s : State) : Out :=
  .next (if !s.mgmtUp then s
    else match s.mod.log.find? fun e => decide (s.mod.acked < e.seq) with
      | some e => (s.reply (ansPldm 3) e.bytes).ackLog e.seq
      | none => s.reply (ansPldm 3) [])

/-! ## Vendor messages (R462) -/

/-- The lead tower's management queue. (DEDUCED, log entry 75.) -/
def State.mgmtQueue (s : State) : Nat := s.mod.lead * 256 + 255

/-- The packets of a vendor command message with their places, when it is well formed: reserved bytes zero, 1 to 16 packets. -/
def vendorPackets (msg : List Byte) : Option (List (Nat × Packet)) :=
  let body := msg.drop 4
  let ps := splitPackets 16 0 (wordsOf (body.length / 8) body)
  let whole := (ps.map fun e => e.2.length).sum = body.length / 8 && (ps.all fun e => e.2.length = 8 * (fld (e.2.headD 0#64) 19 16 + 1))
  if msg.headD 0#8 = 1#8 && ((msg.drop 1).take 3).all (fun b => b = 0#8) && decide (64 ≤ body.length) && body.length % 64 = 0 && whole then some ps
  else none

/-- Packets enter the management queue at its tail, its doorbell rings, and their completions go into one answer. -/
def State.vendorWrite (s : State) (q : Nat) (body : List Byte) (ps : List (Nat × Packet)) : State :=
  let y := s.queue q
  let n := body.length / 64
  let id := s.mod.nextId
  let size := 2 ^ s.qSize q
  let ring := (List.range body.length).foldl (fun m i =>
    SMap.put 0#8 m (64 * ((y.tail.toNat + i / 64) % size) + i % 64) (body.getD i 0#8)) s.mod.mgmtRing
  let s1 := s.newId.modMod fun m => { m with mgmtRing := ring, vendor := m.vendor ++ [⟨id, ps.map fun _ => none⟩] }
  (s1.modQueue q fun z =>
    { z with remote := z.remote ++ ps.zipIdx.map fun e => ((y.tail + BitVec.ofNat 32 e.1.1).toNat, ⟨4096, e.2, id⟩) }).doorbell q
    (y.tail + BitVec.ofNat 32 n)

/-- VENDOR_COMMAND_MESSAGE: an error when it is malformed or the queue is not enabled, busy while the queue has no room. (DEDUCED, log entry 110.) -/
def execVendorCommandMessage (msg : List Byte) (s : State) : Out :=
  let q := s.mgmtQueue
  .next (if !s.mgmtUp then s
    else match vendorPackets msg with
      | none => s.reply ansError msg
      | some ps =>
        let body := msg.drop 4
        if !s.qEnabled q then s.reply ansError msg
        else if 2 ^ s.qSize q < ((s.queue q).tail - (s.queue q).head).toNat + body.length / 64 then s.reply ansBusy msg
        else s.vendorWrite q body ps)

/-- The management block as the sender of an access. -/
def State.mgmtAgent (s : State) : Agent := ⟨s.mod.lead, 1, .host 0, 1, 0x3FF, 3001⟩

/-- Address and length of a vendor memory message: at most 1,024 bytes of the HBM or bay window, mapped and running. -/
def State.vendorRange (s : State) (kind : Nat) (msg : List Byte) : Option (W64 × Nat) :=
  let a := leNat ((msg.drop 4).take 8)
  let n := leNat ((msg.drop 12).take 2)
  let inside := decide (a + n ≤ 2 ^ 41) || (decide (0x100000000000 ≤ a) && decide (a + n ≤ 0x110000000000))
  if s.mod.ready && (msg.headD 0#8).toNat = kind && decide (14 ≤ msg.length) && decide (n ≤ 1024) && inside &&
    s.rangeStatus s.mod.lead (BitVec.ofNat 64 a) n = 0 then some (BitVec.ofNat 64 a, n)
  else none

/-- VENDOR_MEMORY_READ: the bytes, or an error with no other effect. -/
def execVendorMemoryRead (msg : List Byte) (s : State) : Out :=
  .next (if !s.mgmtUp then s
    else match s.vendorRange 2 msg with
      | none => s.reply ansError msg
      | some (a, n) =>
        let r := s.gread s.mgmtAgent a n
        if r.st ≠ 0 ∨ r.data.any isBad then r.s.reply ansError msg else r.s.emit (.mgmt (r.data.map dataOf)))

/-- VENDOR_MEMORY_WRITE: the data follow the length, from byte 14 (PRESUMED, log entry 72). -/
def execVendorMemoryWrite (msg : List Byte) (s : State) : Out :=
  .next (if !s.mgmtUp then s
    else match s.vendorRange 3 msg with
      | none => s.reply ansError msg
      | some (a, n) =>
        if msg.length ≠ 14 + n then s.reply ansError msg
        else
          let w := s.gwriteB s.mgmtAgent a (msg.drop 14)
          if w.st ≠ 0 then w.s.reply ansError msg else w.s.emit (.mgmt []))

end Sys2Proof.Machine
end

