-- ==== Sys2Proof/Machine/Sfu.lean ====
section
/-! DEFINITION. The special functions (R210-R216): I40 arithmetic, seed tables, the evaluation of Table 07-2 behind the
screen of Table 07-1 and the exact cases of R212. -/

namespace Sys2Proof.Machine

/-! ## I40 (R214) -/

/-- A value rounded to a 40-bit significand, ties to even. -/
def i40 (q : ℚ) : ℚ :=
  if q = 0 then 0
  else
    let st := pow2 (ilog2 |q| - 39)
    let v : ℚ := (rneNat (|q| / st) : ℚ) * st
    if q < 0 then -v else v

def fma40 (a b c : ℚ) : ℚ := i40 (a * b + c)
def mul40 (a b : ℚ) : ℚ := i40 (a * b)
def add40 (a b : ℚ) : ℚ := i40 (a + b)

/-- log₂e as its I40 value. -/
def log2e : ℚ := 793129986396 / 2 ^ 39

/-! ## Seed tables (R215, R217) -/

/-- The coefficients of an entry, c0 and c1 rounded to I40; none when one of them is not a finite number. -/
structure Coef where
  c0 : ℚ
  c1 : ℚ
  c2 : ℚ
  c3 : ℚ
  deriving DecidableEq, Repr

def coefOf (c0 c1 : W64) (c2 c3 : W32) : Option Coef :=
  match fmtF64.decode c0.toNat, fmtF64.decode c1.toNat, f32 c2, f32 c3 with
  | .fin _ a, .fin _ b, .fin _ c, .fin _ d => some ⟨i40 a, i40 b, c, d⟩
  | _, _, _, _ => none

/-- c0 of the default entries that R216 fixes: 1 in EX2, RCP and RSQ entry 0 and SINCOS entry 128, 0 in LG2 entries 63 and
64 and SINCOS entry 0; the other default coefficients are not in the specification (DESIGN CHOICE, log entry 4). -/
def defaultC0 (slot e : Nat) : W64 :=
  if (slot = 0 ∧ e = 0) ∨ (slot = 2 ∧ e = 0) ∨ (slot = 3 ∧ e = 0) ∨ (slot = 4 ∧ e = 128) then 0x3FF0000000000000#64
  else if (slot = 1 ∧ (e = 63 ∨ e = 64)) ∨ (slot = 4 ∧ e = 0) then 0#64
  else Config.seedC0 slot e

/-- An entry of the default tables. -/
def defaultCoef (slot e : Nat) : Option Coef :=
  coefOf (defaultC0 slot e) (Config.seedC1 slot e) (Config.seedC2 slot e) (Config.seedC3 slot e)

/-- An entry as its table holds it. -/
def wordCoef (w : BitVec 192) : Option Coef :=
  coefOf (w.extractLsb' 0 64) (w.extractLsb' 64 64) (w.extractLsb' 128 32) (w.extractLsb' 160 32)

/-- An entry of a bank of a cluster's tables: loaded by software, or the running package's default (R221), or, before a package
is loaded, a default that the specification leaves open. -/
def bankCoef (package : Nat → Nat → Option (BitVec 192)) (tables : SMap (Option (BitVec 192))) (bank slot e : Nat) : Option Coef :=
  match SMap.get none tables ((bank * 7 + slot) * 256 + e) with
  | some w => wordCoef w
  | none => match package slot e with | some w => wordCoef w | none => defaultCoef slot e

/-- Entries by slot (EX2, LG2, RCP, RSQ, SINCOS, TANH, GELU). -/
abbrev Tables := Nat → Nat → Option Coef

/-- The seed from an entry at offset r. -/
def seedAt (c : Coef) (r : ℚ) : ℚ := fma40 (fma40 c.c2 r c.c1) r c.c0
/-- The cubic step. -/
def cubic (c : Coef) (r : ℚ) : ℚ := fma40 (mul40 (mul40 r r) r) c.c3 (seedAt c r)

/-- The EX2 path on an I40 argument. -/
def ex2Path (T : Tables) (x : ℚ) : Option ℚ :=
  let a := max (-300) (min 300 x)
  let n := a.floor
  let f := a - n
  let i := (256 * f).floor.toNat
  (T 0 i).map fun c => cubic c (f - i / 256) * pow2 n

/-- Significand in [1, 2) and exponent of a positive value. -/
def sigExp (a : ℚ) : ℚ × Int := (a / pow2 (ilog2 a), ilog2 a)

/-- The RCP path on a positive I40 argument. -/
def rcpPath (T : Tables) (a : ℚ) : Option ℚ :=
  let (m, e) := sigExp a
  let i := (256 * (m - 1)).floor.toNat
  (T 2 i).map fun c =>
    let y := seedAt c (m - 1 - i / 256)
    let ε := fma40 (-m) y 1
    fma40 y ε y * pow2 (-e)

/-- The RSQ reduction and its Newton step: (m, e, y). -/
def rsqStep (T : Tables) (a : ℚ) : Option (ℚ × Int × ℚ) :=
  let (m0, e0) := sigExp a
  let (m, e) := if e0 % 2 = 0 then (m0, e0) else (2 * m0, e0 - 1)
  let i := (64 * m).floor.toNat - 64
  (T 3 i).map fun c =>
    let y := seedAt c (m - 1 - i / 64)
    let ε := fma40 (-m) (mul40 y y) 1
    (m, e, fma40 (y / 2) ε y)

/-- LG2 of a positive value. -/
def lg2Path (T : Tables) (a : ℚ) : Option ℚ :=
  let (m0, e0) := sigExp a
  let (m, e) := if 3 / 2 ≤ m0 then (m0 / 2, e0 + 1) else (m0, e0)
  let ρ := m - 1
  let i := (256 * (ρ + 1 / 4)).floor.toNat
  let o : ℚ := if i ≤ 63 then ((i : ℚ) - 63) / 256 else ((i : ℚ) - 64) / 256
  (T 1 i).map fun c => add40 e (cubic c (ρ - o))

/-- SINPI (false) and COSPI (true) of a value. -/
def sincosPath (T : Tables) (cosine : Bool) (a : ℚ) : Option ℚ :=
  let b := 2 * a
  let n : Int := if b < 0 then -(rneNat (-b) : Int) else rneNat b
  let f := a - n / 2
  let g := |f|
  let i := min (512 * g).floor.toNat 127
  let r := g - i / 512
  match T 4 i, T 4 (128 + i) with
  | some cs, some cc =>
    let sS := if f < 0 then -(cubic cs r) else cubic cs r
    let C := cubic cc r
    let q := (n % 4).toNat
    some (if cosine then (match q with | 0 => C | 1 => -sS | 2 => -C | _ => sS)
          else (match q with | 0 => sS | 1 => C | 2 => -sS | _ => -C))
  | _, _ => none

/-- TANH of a non-zero value. -/
def tanhPath (T : Tables) (a : ℚ) : Option ℚ :=
  let g := |a|
  let v : Option ℚ :=
    if g < 1 / 2 then
      let i := (256 * g).floor.toNat
      (T 5 i).map fun c => cubic c (g - i / 256)
    else
      match ex2Path T (min (mul40 (2 * g) log2e) 300) with
      | some w => (rcpPath T (add40 1 w)).map fun t => add40 1 (-2 * t)
      | none => none
  v.map fun y => if a < 0 then -y else y

/-- The t of SIGM and SILU. -/
def sigmPath (T : Tables) (a : ℚ) : Option ℚ :=
  match ex2Path T (max (-300) (min 300 (mul40 (-a) log2e))) with
  | some w => rcpPath T (add40 1 w)
  | none => none

/-- GELU of a non-zero value. -/
def geluPath (T : Tables) (a : ℚ) : Option FVal :=
  let u := |a|
  if 16 ≤ u then some (if a < 0 then .fin true 0 else .fin false a)
  else
    let i := (16 * u).floor.toNat
    match T 6 i with
    | none => none
    | some c =>
      (ex2Path T (-(cubic c (u - i / 16)))).map fun Q =>
        if a < 0 then .fin true (mul40 a Q) else ofQ (mul40 a (add40 1 (-Q)))

/-- The eleven functions, by opcode − 0x60. -/
inductive SfuFn where
  | ex2 | lg2 | rcp | rsq | sqrt | sinpi | cospi | tanh | sigm | gelu | silu
  deriving DecidableEq, Repr

/-- The screen of Table 07-1. -/
def sfuScreen (fn : SfuFn) (v : FVal) : Option FVal :=
  let one : FVal := .fin false 1
  let zero (n : Bool) : FVal := .fin n 0
  match v with
  | .nan => some .nan
  | .inf neg =>
    some <| match fn with
      | .ex2 => if neg then zero false else .inf false
      | .lg2 => if neg then .nan else .inf false
      | .rcp => zero neg
      | .rsq => if neg then .nan else zero false
      | .sqrt => if neg then .nan else .inf false
      | .sinpi => .nan
      | .cospi => .nan
      | .tanh => .fin neg (if neg then -1 else 1)
      | .sigm => if neg then zero false else one
      | .gelu => if neg then zero true else .inf false
      | .silu => if neg then zero true else .inf false
  | .fin neg q =>
    if q = 0 then
      some <| match fn with
        | .ex2 => one
        | .lg2 => .inf true
        | .rcp => .inf neg
        | .rsq => .inf neg
        | .sqrt => zero neg
        | .sinpi => zero neg
        | .cospi => one
        | .tanh => zero neg
        | .sigm => .fin false (1 / 2)
        | .gelu => zero neg
        | .silu => zero neg
    else if neg then
      match fn with
      | .lg2 => some .nan
      | .rsq => some .nan
      | .sqrt => some .nan
      | _ => none
    else none

/-- The exact cases of R212, which hold whatever the tables hold. -/
def sfuExact (fn : SfuFn) (q : ℚ) : Option FVal :=
  let p2 := decide (0 < q ∧ pow2 (ilog2 q) = q)
  match fn with
  | .ex2 => if q.den = 1 ∧ |q| ≤ 300 then some (.fin false (pow2 q.num)) else none
  | .lg2 => if p2 then some (ofQ (ilog2 q)) else none
  | .rcp => if |q| = pow2 (ilog2 |q|) then some (ofQ (1 / q)) else none
  | .rsq => if p2 ∧ ilog2 q % 2 = 0 then some (.fin false (pow2 (-(ilog2 q / 2)))) else none
  | .sqrt => if p2 ∧ ilog2 q % 2 = 0 then some (.fin false (pow2 (ilog2 q / 2))) else none
  | .sinpi =>
    if q.den = 1 then some (.fin (decide (q < 0)) 0)
    else if q.den = 2 then some (ofQ (if q.num % 4 = 1 then 1 else -1)) else none
  | .cospi =>
    if q.den = 1 then some (ofQ (if q.num % 2 = 0 then 1 else -1))
    else if q.den = 2 then some (.fin false 0) else none
  | _ => none

/-- The value of a function before the final rounding; none when a loaded table holds a coefficient that is no number. -/
def sfuEval (T : Tables) (fn : SfuFn) (v : FVal) : Option FVal :=
  match sfuScreen fn v with
  | some r => some r
  | none =>
    let a := v.toQ
    match sfuExact fn a with
    | some r => some r
    | none =>
      match fn with
      | .ex2 => (ex2Path T a).map ofQ
      | .lg2 => (lg2Path T a).map ofQ
      | .rcp => (rcpPath T |a|).map fun y => ofQ (if a < 0 then -y else y)
      | .rsq => (rsqStep T a).map fun r => ofQ (r.2.2 * pow2 (-(r.2.1 / 2)))
      | .sqrt =>
        (rsqStep T a).map fun r =>
          let z := mul40 r.1 r.2.2
          let δ := fma40 (-z) z r.1
          ofQ (fma40 (r.2.2 / 2) δ z * pow2 (r.2.1 / 2))
      | .sinpi => (sincosPath T false a).map fun y => if y = 0 then .fin (decide (a < 0)) 0 else ofQ y
      | .cospi => (sincosPath T true a).map ofQ
      | .tanh => (tanhPath T a).map fun y => .fin (decide (a < 0)) y
      | .sigm => (sigmPath T a).map ofQ
      | .silu => (sigmPath T a).map fun t => .fin (decide (a < 0)) (mul40 a t)
      | .gelu => geluPath T a

end Sys2Proof.Machine
end

