-- ==== Sys2Proof/Machine/Special.lean ====
section
/-! DEFINITION. The special-function instructions (R192, R213). -/

namespace Sys2Proof.Machine

/-- The output and input formats. -/
def sfuOut (w : W64) : Nat := fld w 63 62
def sfuIn (w : W64) : Nat := fld w 61 60

/-- The decode checks of the special-function group. -/
def sfuLegal (h : Th) : Bool :=
  let w := h.w
  decide (sfuOut w ≤ 2) && decide (sfuIn w ≤ 2) && fld w 59 44 = 0 && wB w = tz && wC w = tz &&
  okReg h.tm.alloc 1 (wD w) && okReg h.tm.alloc 1 (wA w) && uniRule (wD w) [wA w]

/-- Running result of the lanes: the bunch, NaN results from non-NaN inputs, free values drawn. -/
structure SfuAcc where
  x : Bunch
  nans : Nat
  drawn : Nat

/-- One lane: the function of the input format's value, rounded once into the output format (R213, R214). -/
def sfuLane (fn : SfuFn) (T : Tables) (h : Th) (s : State) (acc : SfuAcc) (lane : Nat) : SfuAcc :=
  match fmtOf (sfuIn h.w), fmtOf (sfuOut h.w) with
  | some fi, some fo =>
    let v := fi.decode ((h.x.word (wA h.w) 0 lane).toNat % 2 ^ fi.width)
    match sfuEval T fn v with
    | some r =>
      { acc with x := acc.x.setWord (wD h.w) 0 lane (BitVec.ofNat 32 (fo.round .rne r).1)
                 nans := if r.isNan && !v.isNan then acc.nans + 1 else acc.nans }
    | none =>
      { acc with x := acc.x.setWord (wD h.w) 0 lane (BitVec.ofNat 32 (Config.freeNat (s.free + acc.drawn) % 2 ^ fo.width))
                 drawn := acc.drawn + 1 }
  | _, _ => acc

/-- A special-function instruction uses the seed-table bank that its bunch is bound to (R192, R220). -/
def sfuRun (fn : SfuFn) (h : Th) (s : State) : Ran :=
  let T : Tables := bankCoef s.packageEntry (s.clu h.b.t h.b.c).tables h.x.bank
  let r := (h.x.lanesFor (wD h.w)).foldl (sfuLane fn T h s) ⟨h.x, 0, 0⟩
  let s1 := (s.setBunch (bkey h.b) r.x).drawn r.drawn
  .ok (if r.nans = 0 then s1 else s1.bump sfuDomainCntCount r.nans h.b.t h.b.c h.b.e) h.next

/-- Issue a special function. -/
def sfuIssue (op : Nat) (fn : SfuFn) (b : BunchRef) (w : W64) (s : State) : Out :=
  .next (issue [op] sfuLegal (sfuRun fn) b w s)

def execEx2 (b : BunchRef) (w : W64) (s : State) : Out := sfuIssue 0x60 .ex2 b w s
def execLg2 (b : BunchRef) (w : W64) (s : State) : Out := sfuIssue 0x61 .lg2 b w s
def execRcp (b : BunchRef) (w : W64) (s : State) : Out := sfuIssue 0x62 .rcp b w s
def execRsq (b : BunchRef) (w : W64) (s : State) : Out := sfuIssue 0x63 .rsq b w s
def execSqrt (b : BunchRef) (w : W64) (s : State) : Out := sfuIssue 0x64 .sqrt b w s
def execSinpi (b : BunchRef) (w : W64) (s : State) : Out := sfuIssue 0x65 .sinpi b w s
def execCospi (b : BunchRef) (w : W64) (s : State) : Out := sfuIssue 0x66 .cospi b w s
def execTanh (b : BunchRef) (w : W64) (s : State) : Out := sfuIssue 0x67 .tanh b w s
def execSigm (b : BunchRef) (w : W64) (s : State) : Out := sfuIssue 0x68 .sigm b w s
def execGelu (b : BunchRef) (w : W64) (s : State) : Out := sfuIssue 0x69 .gelu b w s
def execSilu (b : BunchRef) (w : W64) (s : State) : Out := sfuIssue 0x6A .silu b w s

end Sys2Proof.Machine
end

