-- ==== Sys2Proof/Machine/Dispatch.lean ====
section
/-! DEFINITION. The dispatch of a command to its meaning: one arm per command. -/

namespace Sys2Proof.Machine

def exec (i : Instr) (s : State) : Host.Outcome State Fault Refusal :=
  match i with
  | .coldReset heldNs straps => Sys2Proof.Machine.execColdReset heldNs straps s
  | .sbPwrEnFall => Sys2Proof.Machine.execSbPwrEnFall s
  | .sbPwrEnRise => Sys2Proof.Machine.execSbPwrEnRise s
  | .inputQualified => Sys2Proof.Machine.execInputQualified s
  | .inputOvervoltage mv us => Sys2Proof.Machine.execInputOvervoltage mv us s
  | .pciePerst high => Sys2Proof.Machine.execPciePerst high s
  | .pllHoldover t => Sys2Proof.Machine.execPllHoldover t s
  | .pllHoldoverExit t => Sys2Proof.Machine.execPllHoldoverExit t s
  | .stampTick t => Sys2Proof.Machine.execStampTick t s
  | .stampTowerSteer t => Sys2Proof.Machine.execStampTowerSteer t s
  | .diagonalHoldTimeout id => Sys2Proof.Machine.execDiagonalHoldTimeout id s
  | .jobStart r bin => Sys2Proof.Machine.execJobStart r bin s
  | .reshape r => Sys2Proof.Machine.execReshape r s
  | .chunkDrain r bin => Sys2Proof.Machine.execChunkDrain r bin s
  | .jobComplete r bin => Sys2Proof.Machine.execJobComplete r bin s
  | .fillerWindowExpire r bin => Sys2Proof.Machine.execFillerWindowExpire r bin s
  | .rampDownStep r bin => Sys2Proof.Machine.execRampDownStep r bin s
  | .rampUpStep r => Sys2Proof.Machine.execRampUpStep r s
  | .guardEvaluate t tag => Sys2Proof.Machine.execGuardEvaluate t tag s
  | .launch q p => Sys2Proof.Machine.execLaunch q p s
  | .bunchStart b => Sys2Proof.Machine.execBunchStart b s
  | .launchEnd id => Sys2Proof.Machine.execLaunchEnd id s
  | .launchFaultStop id => Sys2Proof.Machine.execLaunchFaultStop id s
  | .teamSuspend r shelfStart shelfBytes => Sys2Proof.Machine.execTeamSuspend r shelfStart shelfBytes s
  | .teamResume r id => Sys2Proof.Machine.execTeamResume r id s
  | .waitRelease b => Sys2Proof.Machine.execWaitRelease b s
  | .tallyRepeatComplete r n => Sys2Proof.Machine.execTallyRepeatComplete r n s
  | .barrierTimeout r n => Sys2Proof.Machine.execBarrierTimeout r n s
  | .shelfCacheWritebackDrop r line => Sys2Proof.Machine.execShelfCacheWritebackDrop r line s
  | .mov b w => Sys2Proof.Machine.execMov b w s
  | .add b w => Sys2Proof.Machine.execAdd b w s
  | .sub b w => Sys2Proof.Machine.execSub b w s
  | .mul b w => Sys2Proof.Machine.execMul b w s
  | .fma b w => Sys2Proof.Machine.execFma b w s
  | .min b w => Sys2Proof.Machine.execMin b w s
  | .max b w => Sys2Proof.Machine.execMax b w s
  | .andB b w => Sys2Proof.Machine.execAndB b w s
  | .orB b w => Sys2Proof.Machine.execOrB b w s
  | .xorB b w => Sys2Proof.Machine.execXorB b w s
  | .notB b w => Sys2Proof.Machine.execNotB b w s
  | .shl b w => Sys2Proof.Machine.execShl b w s
  | .shr b w => Sys2Proof.Machine.execShr b w s
  | .popc b w => Sys2Proof.Machine.execPopc b w s
  | .clz b w => Sys2Proof.Machine.execClz b w s
  | .brev b w => Sys2Proof.Machine.execBrev b w s
  | .sel b w => Sys2Proof.Machine.execSel b w s
  | .setp b w => Sys2Proof.Machine.execSetp b w s
  | .shfl b w => Sys2Proof.Machine.execShfl b w s
  | .frnd b w => Sys2Proof.Machine.execFrnd b w s
  | .seed b w => Sys2Proof.Machine.execSeed b w s
  | .prmt b w => Sys2Proof.Machine.execPrmt b w s
  | .mop b w => Sys2Proof.Machine.execMop b w s
  | .cvt b w => Sys2Proof.Machine.execCvt b w s
  | .ex2 b w => Sys2Proof.Machine.execEx2 b w s
  | .lg2 b w => Sys2Proof.Machine.execLg2 b w s
  | .rcp b w => Sys2Proof.Machine.execRcp b w s
  | .rsq b w => Sys2Proof.Machine.execRsq b w s
  | .sqrt b w => Sys2Proof.Machine.execSqrt b w s
  | .sinpi b w => Sys2Proof.Machine.execSinpi b w s
  | .cospi b w => Sys2Proof.Machine.execCospi b w s
  | .tanh b w => Sys2Proof.Machine.execTanh b w s
  | .sigm b w => Sys2Proof.Machine.execSigm b w s
  | .gelu b w => Sys2Proof.Machine.execGelu b w s
  | .silu b w => Sys2Proof.Machine.execSilu b w s
  | .lds b w => Sys2Proof.Machine.execLds b w s
  | .sts b w => Sys2Proof.Machine.execSts b w s
  | .ldg b w => Sys2Proof.Machine.execLdg b w s
  | .stg b w => Sys2Proof.Machine.execStg b w s
  | .atoms b w => Sys2Proof.Machine.execAtoms b w s
  | .atom b w => Sys2Proof.Machine.execAtom b w s
  | .globalAccessReturn id => Sys2Proof.Machine.execGlobalAccessReturn id s
  | .nop b w => Sys2Proof.Machine.execNop b w s
  | .bra b w => Sys2Proof.Machine.execBra b w s
  | .braAny b w => Sys2Proof.Machine.execBraAny b w s
  | .braAll b w => Sys2Proof.Machine.execBraAll b w s
  | .braNone b w => Sys2Proof.Machine.execBraNone b w s
  | .braUZ b w => Sys2Proof.Machine.execBraUZ b w s
  | .braUNz b w => Sys2Proof.Machine.execBraUNz b w s
  | .call b w => Sys2Proof.Machine.execCall b w s
  | .ret b w => Sys2Proof.Machine.execRet b w s
  | .pushm b w => Sys2Proof.Machine.execPushm b w s
  | .andm b w => Sys2Proof.Machine.execAndm b w s
  | .popm b w => Sys2Proof.Machine.execPopm b w s
  | .exit b w => Sys2Proof.Machine.execExit b w s
  | .setT b w => Sys2Proof.Machine.execSetT b w s
  | .arrive b w => Sys2Proof.Machine.execArrive b w s
  | .waitPh b w => Sys2Proof.Machine.execWaitPh b w s
  | .waitGe b w => Sys2Proof.Machine.execWaitGe b w s
  | .bar b w => Sys2Proof.Machine.execBar b w s
  | .mxd b w => Sys2Proof.Machine.execMxd b w s
  | .hxf b w => Sys2Proof.Machine.execHxf b w s
  | .qcv b w => Sys2Proof.Machine.execQcv b w s
  | .nrm b w => Sys2Proof.Machine.execNrm b w s
  | .fence b w => Sys2Proof.Machine.execFence b w s
  | .tfence b w => Sys2Proof.Machine.execTfence b w s
  | .qcvJobStart r e => Sys2Proof.Machine.execQcvJobStart r e s
  | .qcvJobComplete r e => Sys2Proof.Machine.execQcvJobComplete r e s
  | .nrmJobStart r => Sys2Proof.Machine.execNrmJobStart r s
  | .nrmJobComplete r => Sys2Proof.Machine.execNrmJobComplete r s
  | .tableLoad q p => Sys2Proof.Machine.execTableLoad q p s
  | .tableBankSwitch r => Sys2Proof.Machine.execTableBankSwitch r s
  | .hatchJobStart r => Sys2Proof.Machine.execHatchJobStart r s
  | .hatchJobComplete r k => Sys2Proof.Machine.execHatchJobComplete r k s
  | .scrubSlot t die => Sys2Proof.Machine.execScrubSlot t die s
  | .cellarHoldTimeout id => Sys2Proof.Machine.execCellarHoldTimeout id s
  | .clearBay q p => Sys2Proof.Machine.execClearBay q p s
  | .cellarSplitCommit t => Sys2Proof.Machine.execCellarSplitCommit t s
  | .pantryLookup id => Sys2Proof.Machine.execPantryLookup id s
  | .pantryFillComplete t half line => Sys2Proof.Machine.execPantryFillComplete t half line s
  | .pin q p => Sys2Proof.Machine.execPin q p s
  | .unpin q p => Sys2Proof.Machine.execUnpin q p s
  | .discard q p => Sys2Proof.Machine.execDiscard q p s
  | .larderPressure t => Sys2Proof.Machine.execLarderPressure t s
  | .towerHoldTimeout id => Sys2Proof.Machine.execTowerHoldTimeout id s
  | .pantryPolicyCommit t => Sys2Proof.Machine.execPantryPolicyCommit t s
  | .hbmAccess t a => Sys2Proof.Machine.execHbmAccess t a s
  | .hbmRefresh t stack pc bank => Sys2Proof.Machine.execHbmRefresh t stack pc bank s
  | .writeQueueDrain t stack pc => Sys2Proof.Machine.execWriteQueueDrain t stack pc s
  | .patrolRead t stack pc => Sys2Proof.Machine.execPatrolRead t stack pc s
  | .hbmTempRead t temps => Sys2Proof.Machine.execHbmTempRead t temps s
  | .regulationWindow t => Sys2Proof.Machine.execRegulationWindow t s
  | .flitReceive l flit fecBad => Sys2Proof.Machine.execFlitReceive l flit fecBad s
  | .flitTransmit l => Sys2Proof.Machine.execFlitTransmit l s
  | .nak l seq => Sys2Proof.Machine.execNak l seq s
  | .nakRepeat l => Sys2Proof.Machine.execNakRepeat l s
  | .portRetrain l => Sys2Proof.Machine.execPortRetrain l s
  | .portDown l => Sys2Proof.Machine.execPortDown l s
  | .portQualify l badLanes uncorr => Sys2Proof.Machine.execPortQualify l badLanes uncorr s
  | .laneMonitorWindow l badLanes uncorr berExp => Sys2Proof.Machine.execLaneMonitorWindow l badLanes uncorr berExp s
  | .rd l p => Sys2Proof.Machine.execRd l p s
  | .wr l p => Sys2Proof.Machine.execWr l p s
  | .wrm l p => Sys2Proof.Machine.execWrm l p s
  | .amo l p => Sys2Proof.Machine.execAmo l p s
  | .rdr l p => Sys2Proof.Machine.execRdr l p s
  | .ack l p => Sys2Proof.Machine.execAck l p s
  | .amr l p => Sys2Proof.Machine.execAmr l p s
  | .cmp l p => Sys2Proof.Machine.execCmp l p s
  | .mnr l p => Sys2Proof.Machine.execMnr l p s
  | .cmd l p => Sys2Proof.Machine.execCmd l p s
  | .dbf l p => Sys2Proof.Machine.execDbf l p s
  | .tsig l p => Sys2Proof.Machine.execTsig l p s
  | .cfl l p => Sys2Proof.Machine.execCfl l p s
  | .hrd l p => Sys2Proof.Machine.execHrd l p s
  | .hwr l p => Sys2Proof.Machine.execHwr l p s
  | .hirq l p => Sys2Proof.Machine.execHirq l p s
  | .mnt l p => Sys2Proof.Machine.execMnt l p s
  | .requestTimeout id => Sys2Proof.Machine.execRequestTimeout id s
  | .portInfo l recv => Sys2Proof.Machine.execPortInfo l recv s
  | .syncReq l recv => Sys2Proof.Machine.execSyncReq l recv s
  | .syncRsp l t1 t2 t3 t4 => Sys2Proof.Machine.execSyncRsp l t1 t2 t3 t4 s
  | .linkConfigCommit => Sys2Proof.Machine.execLinkConfigCommit s
  | .bar0Doorbell slot q tail => Sys2Proof.Machine.execBar0Doorbell slot q tail s
  | .bar2Access slot off a => Sys2Proof.Machine.execBar2Access slot off a s
  | .doorbell q tail => Sys2Proof.Machine.execDoorbell q tail s
  | .cheadWrite q v => Sys2Proof.Machine.execCheadWrite q v s
  | .packetFetch q => Sys2Proof.Machine.execPacketFetch q s
  | .packetStart q => Sys2Proof.Machine.execPacketStart q s
  | .completionWrite q => Sys2Proof.Machine.execCompletionWrite q s
  | .packetDeadline q id => Sys2Proof.Machine.execPacketDeadline q id s
  | .dispatchTick => Sys2Proof.Machine.execDispatchTick s
  | .class7Accept q => Sys2Proof.Machine.execClass7Accept q s
  | .class7Start q => Sys2Proof.Machine.execClass7Start q s
  | .preempt r => Sys2Proof.Machine.execPreempt r s
  | .nopCommand q p => Sys2Proof.Machine.execNopCommand q p s
  | .fenceCommand q p => Sys2Proof.Machine.execFenceCommand q p s
  | .copy q p => Sys2Proof.Machine.execCopy q p s
  | .fill q p => Sys2Proof.Machine.execFill q p s
  | .matrix q p => Sys2Proof.Machine.execMatrix q p s
  | .tallySet q p => Sys2Proof.Machine.execTallySet q p s
  | .tallyWait q p => Sys2Proof.Machine.execTallyWait q p s
  | .tallySignal q p => Sys2Proof.Machine.execTallySignal q p s
  | .configCmd q p => Sys2Proof.Machine.execConfigCmd q p s
  | .query q p => Sys2Proof.Machine.execQuery q p s
  | .formatPolicy q p => Sys2Proof.Machine.execFormatPolicy q p s
  | .guardPolicyCommit => Sys2Proof.Machine.execGuardPolicyCommit s
  | .arrayPowerCommit r => Sys2Proof.Machine.execArrayPowerCommit r s
  | .powerBudget q p => Sys2Proof.Machine.execPowerBudget q p s
  | .powerQuery q p => Sys2Proof.Machine.execPowerQuery q p s
  | .domainStateOn q p => Sys2Proof.Machine.execDomainStateOn q p s
  | .domainStateOff q p => Sys2Proof.Machine.execDomainStateOff q p s
  | .domainStateCap q p => Sys2Proof.Machine.execDomainStateCap q p s
  | .clusterReset q p => Sys2Proof.Machine.execClusterReset q p s
  | .atticReset q p => Sys2Proof.Machine.execAtticReset q p s
  | .cellarUReset q p => Sys2Proof.Machine.execCellarUReset q p s
  | .cellarLReset q p => Sys2Proof.Machine.execCellarLReset q p s
  | .towerReset q p => Sys2Proof.Machine.execTowerReset q p s
  | .moduleWarm q p => Sys2Proof.Machine.execModuleWarm q p s
  | .towerResetTimeout t => Sys2Proof.Machine.execTowerResetTimeout t s
  | .snapshot q p => Sys2Proof.Machine.execSnapshot q p s
  | .restore q p => Sys2Proof.Machine.execRestore q p s
  | .cvuSet q p => Sys2Proof.Machine.execCvuSet q p s
  | .cvuGet q p => Sys2Proof.Machine.execCvuGet q p s
  | .scrubCtl q p => Sys2Proof.Machine.execScrubCtl q p s
  | .inject q p => Sys2Proof.Machine.execInject q p s
  | .telemetry q p => Sys2Proof.Machine.execTelemetry q p s
  | .logRead q p => Sys2Proof.Machine.execLogRead q p s
  | .linkCtl q p => Sys2Proof.Machine.execLinkCtl q p s
  | .remote q p => Sys2Proof.Machine.execRemote q p s
  | .grantRequest t g => Sys2Proof.Machine.execGrantRequest t g s
  | .grantFromQueue t => Sys2Proof.Machine.execGrantFromQueue t s
  | .budgetWindowEnd t m => Sys2Proof.Machine.execBudgetWindowEnd t m s
  | .budgetGuard t energyUj => Sys2Proof.Machine.execBudgetGuard t energyUj s
  | .powerPolicyCommit t => Sys2Proof.Machine.execPowerPolicyCommit t s
  | .wakeWave t => Sys2Proof.Machine.execWakeWave t s
  | .wakeWaitExpire r => Sys2Proof.Machine.execWakeWaitExpire r s
  | .phaseLost t domain => Sys2Proof.Machine.execPhaseLost t domain s
  | .currentLimit r => Sys2Proof.Machine.execCurrentLimit r s
  | .supplySag mv => Sys2Proof.Machine.execSupplySag mv s
  | .sagExit => Sys2Proof.Machine.execSagExit s
  | .orderedStop => Sys2Proof.Machine.execOrderedStop s
  | .thermalSense t m => Sys2Proof.Machine.execThermalSense t m s
  | .throttleStep t => Sys2Proof.Machine.execThrottleStep t s
  | .thermalHalving t die => Sys2Proof.Machine.execThermalHalving t die s
  | .thermalHalvingEnd t die => Sys2Proof.Machine.execThermalHalvingEnd t die s
  | .thermalTrip t die => Sys2Proof.Machine.execThermalTrip t die s
  | .thermalSensorSuspect t region => Sys2Proof.Machine.execThermalSensorSuspect t region s
  | .firmwareFetch src pkg => Sys2Proof.Machine.execFirmwareFetch src pkg s
  | .fwSourceFailed src => Sys2Proof.Machine.execFwSourceFailed src s
  | .stagingLengthWrite len => Sys2Proof.Machine.execStagingLengthWrite len s
  | .pllLockTimeout t => Sys2Proof.Machine.execPllLockTimeout t s
  | .trainingComplete failed => Sys2Proof.Machine.execTrainingComplete failed s
  | .memoryTest f => Sys2Proof.Machine.execMemoryTest f s
  | .softRepair => Sys2Proof.Machine.execSoftRepair s
  | .clusterSelfTest t row col pass => Sys2Proof.Machine.execClusterSelfTest t row col pass s
  | .ready => Sys2Proof.Machine.execReady s
  | .ceTrendWindow => Sys2Proof.Machine.execCeTrendWindow s
  | .firmwareUpdate pkg => Sys2Proof.Machine.execFirmwareUpdate pkg s
  | .getVersion msg => Sys2Proof.Machine.execGetVersion msg s
  | .getCapabilities msg => Sys2Proof.Machine.execGetCapabilities msg s
  | .negotiateAlgorithms msg => Sys2Proof.Machine.execNegotiateAlgorithms msg s
  | .getDigests msg => Sys2Proof.Machine.execGetDigests msg s
  | .getCertificate slot off len => Sys2Proof.Machine.execGetCertificate slot off len s
  | .challenge slot nonce => Sys2Proof.Machine.execChallenge slot nonce s
  | .getMeasurements index sign nonce => Sys2Proof.Machine.execGetMeasurements index sign nonce s
  | .dynamicAddressAssign addr => Sys2Proof.Machine.execDynamicAddressAssign addr s
  | .mctpControl msg => Sys2Proof.Machine.execMctpControl msg s
  | .pldmBaseDiscovery msg => Sys2Proof.Machine.execPldmBaseDiscovery msg s
  | .pldmSensorRead sensor => Sys2Proof.Machine.execPldmSensorRead sensor s
  | .pollForPlatformEventMessage => Sys2Proof.Machine.execPollForPlatformEventMessage s
  | .vendorCommandMessage msg => Sys2Proof.Machine.execVendorCommandMessage msg s
  | .vendorMemoryRead msg => Sys2Proof.Machine.execVendorMemoryRead msg s
  | .vendorMemoryWrite msg => Sys2Proof.Machine.execVendorMemoryWrite msg s
  | .mgtLogAckWrite v => Sys2Proof.Machine.execMgtLogAckWrite v s
  | .tallyRegisterWrite r n a => Sys2Proof.Machine.execTallyRegisterWrite r n a s
  | .celFlipmaskWrite t die bay v => Sys2Proof.Machine.execCelFlipmaskWrite t die bay v s
  | .shfFlipmaskWrite r v => Sys2Proof.Machine.execShfFlipmaskWrite r v s
  | .panDeadLogRead t => Sys2Proof.Machine.execPanDeadLogRead t s
  | .pwrVminRead t domain => Sys2Proof.Machine.execPwrVminRead t domain s
  | .readClearRegisterRead rq addr size => Sys2Proof.Machine.execReadClearRegisterRead rq addr size s
  | .arrCommitWrite r v => Sys2Proof.Machine.execArrCommitWrite r v s
  | .celCommitWrite t v => Sys2Proof.Machine.execCelCommitWrite t v s
  | .panCommitWrite t v => Sys2Proof.Machine.execPanCommitWrite t v s
  | .hbmCommitWrite t v => Sys2Proof.Machine.execHbmCommitWrite t v s
  | .lnkCommitWrite t v => Sys2Proof.Machine.execLnkCommitWrite t v s
  | .cmdCommitWrite t v => Sys2Proof.Machine.execCmdCommitWrite t v s
  | .pwrCommitWrite t v => Sys2Proof.Machine.execPwrCommitWrite t v s
  | .cvuCommitWrite u v => Sys2Proof.Machine.execCvuCommitWrite u v s
  | .registerWrite rq addr size v => Sys2Proof.Machine.execRegisterWrite rq addr size v s
  | .resetEnd scope t c => Sys2Proof.Machine.execResetEnd scope t c s
  | .pllLock t => Sys2Proof.Machine.execPllLock t s
  | .linkTrainingComplete l => Sys2Proof.Machine.execLinkTrainingComplete l s
  | .pcieLinkUp rate width => Sys2Proof.Machine.execPcieLinkUp rate width s
  | .pcieLinkDown => Sys2Proof.Machine.execPcieLinkDown s
  | .domainWakeComplete r => Sys2Proof.Machine.execDomainWakeComplete r s
  | .islandFailover => Sys2Proof.Machine.execIslandFailover s
  | .inputLoss => Sys2Proof.Machine.execInputLoss s
  | .lowHalfRead rq addr => Sys2Proof.Machine.execLowHalfRead rq addr s

end Sys2Proof.Machine
end

