-- ==== Sys2Proof/Safety.lean ====
section
/-! DEFINITION. What a sound state is, in the terms that claims use: the stores in canonical form, and the event log as
R463 and R465 give it. -/

namespace Sys2Proof.Machine

/-- Keys strictly rising. -/
def SMap.sorted {α : Type} (m : SMap α) : Prop := m.Pairwise fun a b => a.1 < b.1

/-- Every store of the module's memories, and the host's, is in canonical form. -/
def Memory.wf (m : Mem) : Bool :=
  SMap.wf (fun _ => zeroUnit) m.hbm && SMap.wf (fun _ => []) m.wq && SMap.wf (fun _ => 0#13) m.cells && SMap.wf (fun _ => 0#3) m.valid &&
  SMap.wf (fun _ => 0) m.remap && SMap.wf (fun _ => 0#13) m.shelf && SMap.wf (fun _ => none) m.pantry && SMap.wf (fun _ => 0#8) m.host

/-- The event log: a ring of at most 1,024 entries with consecutive sequence numbers that end at the newest (R463), an
acknowledged number that never lies beyond it, and SB_ALERT_N low while the newest entry lies beyond it (R465). -/
def Module.logOk (m : Module) : Prop :=
  m.log.length ≤ 1024 ∧ m.log.length ≤ m.newest ∧
  m.log.map (fun e => e.seq) = List.range' (m.newest + 1 - m.log.length) m.log.length ∧
  m.acked ≤ m.newest ∧ m.alertN = decide (m.newest ≤ m.acked)

/-- A command whose step answers a next state: no rule of the specification stops the block. -/
def State.goesOn (s : State) : Prop := ∃ t, step s = .next t

end Sys2Proof.Machine
end

