-- ==== Sys2Proof/Safety/Issue.lean ====
section
/-! DEFINITION. The terms in which claims speak of one thread instruction: when it issues, what it writes, and the machine after
it. -/

namespace Sys2Proof.Claims

open Sys2Proof.Machine

/-- The bunch of h can issue h's word (R143, R146, R181, R182): its team runs, the bunch is ready, the word is fetched without a
fault, its opcode is one of `own`, and its fields pass the decode checks of its mnemonic. -/
structure Issues (s : State) (h : Th) (own : List Nat) (legal : Th → Bool) : Prop where
  bunch : h.x = s.bunch (bkey h.b)
  team : (s.clu h.b.t h.b.c).team = some h.tm
  can : s.canIssue h.b = true
  fetched : s.fetchFault h = none
  opcode : own.contains (wOpc h.w) = true
  decodes : legal h = true

/-- The machine after an instruction of h that leaves the bunch at y with a new pc and changes nothing else: TE_ISSUE_CNT of the
TE counts it. -/
def issued (s : State) (h : Th) (y : Bunch) (pc : W32) : State :=
  (s.setBunch (bkey h.b) { y with pc := pc }).bump teIssueCntCount 1 h.b.t h.b.c h.b.e

/-- A lane in which an instruction with destination field d executes: an active thread (R153), or once for a uniform
destination (R186). -/
def Runs (x : Bunch) (d l : Nat) : Prop := if 256 ≤ d then l = 0 else l < 64 ∧ x.m0.getLsbD l = true

/-- y is x with the group of n registers that field d names holding r in every lane that executes (R183, R185): tz discards the
result, and every other register, mask and field of the bunch is as before. -/
structure Writes (x y : Bunch) (d n : Nat) (r : Nat → Nat) : Prop where
  written : d ≠ tz → ∀ l i, Runs x d l → i < n → y.word d i l = BitVec.ofNat 32 (r l / 2 ^ (32 * i))
  threads : ∀ l k, l < 64 → k < 255 → ¬ (Runs x d l ∧ d ≤ k ∧ k < d + n ∧ d < 255) → y.word k 0 l = x.word k 0 l
  uniforms : ∀ k, k < 64 → ¬ (d ≤ 256 + k ∧ 256 + k < d + n ∧ 256 ≤ d) → y.word (256 + k) 0 0 = x.word (256 + k) 0 0
  rest : { y with t := x.t, u := x.u } = x

/-- y is x with mask register k holding v, and nothing else changed. -/
structure WritesMask (x y : Bunch) (k : Nat) (v : BitVec 64) : Prop where
  written : y.mask k = v
  masks : ∀ j, j < 8 → j ≠ k → y.mask j = x.mask j
  rest : { y with m := x.m } = x

/-- An instruction whose only effect is on the bunch's registers: exec answers the machine with the bunch at some y that `P`
describes, the pc at the next instruction, and nothing else changed. -/
def RegistersOnly (i : Instr) (s : State) (h : Th) (P : Bunch → Prop) : Prop :=
  ∃ y, exec i s = .next (issued s h y (h.x.pc + 8)) ∧ P y

/-- Source operand a of n registers in a lane. -/
def srcReg (h : Th) (bits l : Nat) : BitVec bits := BitVec.ofNat bits (h.x.val (wA h.w) (bits / 32) l)

/-- Source operand b in a lane: a register group, or the I form's immediate, sign-extended to 64 bits (Table 06-3). -/
def srcAlt (h : Th) (bits l : Nat) : BitVec bits :=
  if fld h.w 7 5 = 1 then (BitVec.ofNat 32 (fld h.w 63 32)).signExtend bits else BitVec.ofNat bits (h.x.val (wB h.w) (bits / 32) l)

/-- Source operand c in a lane. -/
def srcThird (h : Th) (bits l : Nat) : BitVec bits := BitVec.ofNat bits (h.x.val (wC h.w) (bits / 32) l)

/-- A 32-bit source extended to a type's width as the type is signed or not. -/
def extend (signed : Bool) (bits : Nat) (v : BitVec 32) : BitVec bits := if signed then v.signExtend bits else v.zeroExtend bits

/-- The smaller (or, with `big`, the larger) of two integers of a type. -/
def pick (signed big : Bool) {n : Nat} (a b : BitVec n) : BitVec n :=
  if (if signed then a.slt b else a.ult b) != big then a else b

/-- The number of 1 bits of a word. -/
def ones {n : Nat} (v : BitVec n) : Nat := ((List.range n).filter fun i => v.getLsbD i).length

/-- Byte i of a 32-bit word. -/
def byteOf (v : BitVec 32) (i : Nat) : BitVec 8 := v.extractLsb' (8 * i) 8

/-! ## F32 operands and results -/

/-- An F32 source: its absolute-value bit, then its negate bit (Table 06-3). -/
def adjusted (abs neg : Bool) (v : FVal) : FVal :=
  let u := if abs then v.abs else v
  if neg then u.neg else u

/-- The F32 sources of an ALU instruction; the I form has no modifiers. -/
def floatA (h : Th) (l : Nat) : FVal :=
  let im := decide (fld h.w 7 5 = 1)
  adjusted (!im && bit h.w 52) (!im && bit h.w 53) (f32 (srcReg h 32 l))
def floatB (h : Th) (l : Nat) : FVal :=
  let im := decide (fld h.w 7 5 = 1)
  adjusted (!im && bit h.w 50) (!im && bit h.w 51) (f32 (srcAlt h 32 l))
def floatC (h : Th) (l : Nat) : FVal := adjusted false (bit h.w 49) (f32 (srcThird h 32 l))

/-- The order of MIN and MAX, in which −0 lies below +0 (R188). -/
def below (u v : FVal) : Prop := u.lt v = true ∨ (u.eqv v = true ∧ u.sign = true ∧ v.sign = false)

/-- r is the smaller (or, with `big`, the larger) of a and b: the other operand where one is a NaN, the canonical NaN where both
are (R188). -/
def Least (big : Bool) (a b : FVal) (r : W32) : Prop :=
  if a = .nan ∧ b = .nan then r = 0x7FC00000#32
  else if a = .nan then f32 r = b
  else if b = .nan then f32 r = a
  else (f32 r = a ∨ f32 r = b) ∧
    (if big then ¬ below (f32 r) a ∧ ¬ below (f32 r) b else ¬ below a (f32 r) ∧ ¬ below b (f32 r))

/-- A number rounded to an integer: to nearest even, toward zero, −∞ or +∞ (Table 06-4). -/
def roundTo (mode : Nat) (q : ℚ) : Int :=
  match mode with
  | 0 => if q - q.floor < 1 / 2 then q.floor else if 1 / 2 < q - q.floor then q.floor + 1 else if q.floor % 2 = 0 then q.floor else q.floor + 1
  | 1 => if 0 ≤ q then q.floor else q.ceil
  | 2 => q.floor
  | _ => q.ceil

/-- FRND's value before it is written: an integral value, which keeps the source's sign when it is zero. -/
def integral (mode : Nat) (v : FVal) : FVal :=
  match v with
  | .fin neg q => .fin (if roundTo mode q = 0 then neg else decide (roundTo mode q < 0)) (roundTo mode q)
  | u => u

/-- SETP's comparisons by sub value: EQ, NE, LT, LE, GT, GE, UN (Table 06-4). -/
def compareF (sub : Nat) (a b : FVal) : Bool :=
  let nan := decide (a = .nan) || decide (b = .nan)
  match sub with
  | 0 => a.eqv b
  | 1 => nan || !a.eqv b
  | 2 => a.lt b
  | 3 => a.lt b || a.eqv b
  | 4 => b.lt a
  | 5 => b.lt a || a.eqv b
  | _ => nan
def compareI (sub : Nat) (a b : Int) : Bool :=
  match sub with
  | 0 => a == b
  | 1 => a != b
  | 2 => decide (a < b)
  | 3 => decide (a ≤ b)
  | 4 => decide (a > b)
  | _ => decide (a ≥ b)

/-- The integer that a word of a signed or unsigned type holds. -/
def toInt (signed : Bool) {n : Nat} (v : BitVec n) : Int := if signed then v.toInt else (v.toNat : Int)

/-! ## Conversions and stochastic rounding -/

/-- The value of a CVT source word: a float format, or an integer type read from the low bits (R191, Table 06-6). -/
def cvtSource (w : W64) (a : W32) : FVal :=
  if bit w 54 then
    let n : Int := match fld w 58 55 with
      | 0 => a.toInt
      | 1 => (a.toNat : Int)
      | 2 => (a.extractLsb' 0 16).toInt
      | 3 => ((a.extractLsb' 0 16).toNat : Int)
      | 4 => (a.extractLsb' 0 8).toInt
      | _ => ((a.extractLsb' 0 8).toNat : Int)
    .fin (decide (n < 0)) n
  else match fmtOf (fld w 58 55) with
    | some f => f.decode (a.toNat % 2 ^ f.width)
    | none => .nan

/-- The least and the largest value of CVT's integer types. -/
def intRange (ty : Nat) : Int × Int :=
  match ty with
  | 0 => (-(2 ^ 31), 2 ^ 31 - 1)
  | 1 => (0, 2 ^ 32 - 1)
  | 2 => (-(2 ^ 15), 2 ^ 15 - 1)
  | 3 => (0, 2 ^ 16 - 1)
  | 4 => (-(2 ^ 7), 2 ^ 7 - 1)
  | _ => (0, 2 ^ 8 - 1)

/-- CVT's result word: an integer saturated at its type's limits, NaN giving 0, or a float rounded once (R191). -/
def cvtResult (w : W64) (r : Rnd) (v : FVal) : W32 :=
  if bit w 59 then
    let lim := intRange (fld w 63 60)
    BitVec.ofInt 32 (match v with
      | .nan => 0
      | .inf neg => if neg then lim.1 else lim.2
      | .fin _ q => max lim.1 (min lim.2 (roundTo (fld w 52 51) q)))
  else match fmtOf (fld w 63 60) with
    | some f => BitVec.ofNat 32 (f.round r v).1
    | none => 0#32

/-- The active lanes before lane l that share its physical lane (R190). -/
def earlierDraws (x : Bunch) (d l : Nat) : Nat :=
  ((List.range l).filter fun i => decide (i % 16 = l % 16) && (decide (d < 256) && x.m0.getLsbD i)).length

/-- An LFSR advanced n times (R71). -/
def advanced : Nat → W32 → W32
  | 0, v => v
  | n + 1, v => advanced n (lfsrStep v)

/-- The draw of an LFSR after its n-th advance: its bits [31:16] (R70). -/
def draw (n : Nat) (v : W32) : Nat := ((advanced n v).extractLsb' 16 16).toNat

/-- The eleven special-function commands with their opcodes and functions (Table 06-7). -/
def sfuOps (b : BunchRef) (w : W64) : List (Instr × Nat × SfuFn) :=
  [(.ex2 b w, 0x60, .ex2), (.lg2 b w, 0x61, .lg2), (.rcp b w, 0x62, .rcp), (.rsq b w, 0x63, .rsq), (.sqrt b w, 0x64, .sqrt),
   (.sinpi b w, 0x65, .sinpi), (.cospi b w, 0x66, .cospi), (.tanh b w, 0x67, .tanh), (.sigm b w, 0x68, .sigm),
   (.gelu b w, 0x69, .gelu), (.silu b w, 0x6A, .silu)]

end Sys2Proof.Claims
end

