-- ==== Sys2Proof/Safety/Shelf.lean ====
section
/-! DEFINITION. The terms in which claims speak of shelf bytes and of errors counted while reading them. -/

namespace Sys2Proof.Claims

open Sys2Proof.Machine

/-- A shelf byte as a read of it gives: bit 8 marks it uncorrectable (R238, R239). -/
def shelfByte (s : State) (t c off : Nat) : BitVec 9 := (byteRead (SMap.get 0#13 s.mem.shelf (s.shelfKey t c off))).marked

/-- The number that n shelf bytes hold, little-endian (R7). -/
def shelfValue (s : State) (t c off n : Nat) : Nat :=
  ((List.range n).map fun i => ((shelfByte s t c (off + i)).toNat % 256) * 256 ^ i).sum

/-- s1 is s after reads of cluster (t, c)'s shelf: corrected code words are written back, so every shelf byte reads as before; the
errors are counted in SHF_ERR_CNT and in the health manager's count; nothing else changes (R239, R437). -/
structure ShelfWasRead (s s1 : State) (t c : Nat) : Prop where
  bytes : ∀ t' c' off, shelfByte s1 t' c' off = shelfByte s t' c' off
  registers : ∀ l : Loc, l.key ≠ (⟨.shfErrCnt, t, c, 0, 0⟩ : Loc).key → s1.reg l = s.reg l
  rest : { s1 with regs := s.regs, mem := { s1.mem with shelf := s.mem.shelf }, mod := { s1.mod with ceNow := s.mod.ceNow } } = s

/-- The offset at which SHF_FLIPMASK is armed (R262). -/
def flipArmed (s : State) (t c off : Nat) : Prop :=
  bit (s.reg ⟨.shfFlipmask, t, c, 0, 0⟩) 63 = true ∧ fld (s.reg ⟨.shfFlipmask, t, c, 0, 0⟩) 51 32 = off

/-- s1 is s after writes of cluster (t, c)'s shelf: `byte off` is the byte that stays at an offset, none where nothing is written.
A byte at which an error is armed is written with its error, which R262 describes and this leaves open; nothing else changes, and
of the registers SHF_FLIPMASK alone, whose arm bit such a write clears. -/
structure ShelfWasWritten (s s1 : State) (t c : Nat) (byte : Nat → Option (BitVec 8)) : Prop where
  written : ∀ off v, byte off = some v → ¬ flipArmed s t c off → shelfByte s1 t c off = v.zeroExtend 9
  others : ∀ k, (∀ off, byte off ≠ none → k ≠ s.shelfKey t c off) → SMap.get 0#13 s1.mem.shelf k = SMap.get 0#13 s.mem.shelf k
  registers : ∀ l : Loc, l.key ≠ (⟨.shfFlipmask, t, c, 0, 0⟩ : Loc).key → s1.reg l = s.reg l
  rest : { s1 with regs := s.regs, mem := { s1.mem with shelf := s.mem.shelf } } = s

/-- Byte i of a number. -/
def byteNo (v i : Nat) : BitVec 8 := BitVec.ofNat 8 (v / 256 ^ i)

/-- The byte that stays at an offset when the lanes of a list store n bytes each, at `at_ l` the value `val l`: that of the last
lane of the list that covers the offset (R195). -/
def lastStore (lanes : List Nat) (at_ val : Nat → Nat) (n off : Nat) : Option (BitVec 8) :=
  (lanes.reverse.find? fun l => decide (at_ l ≤ off ∧ off < at_ l + n)).map fun l => byteNo (val l) (off - at_ l)

/-- The active lanes, in ascending order. -/
def activeLanes (x : Bunch) : List Nat := (List.range 64).filter fun l => x.m0.getLsbD l

/-- The lanes of an instruction with destination d (R153, R186). -/
def runLanes (x : Bunch) (d : Nat) : List Nat := if 256 ≤ d then [0] else activeLanes x

/-- The shelf offset of a lane (R193): the 32-bit sum of a, of b where the instruction has a second address part, and of the
sign-extended byte offset. -/
def shelfAddr (h : Th) (two : Bool) (l : Nat) : Nat :=
  (BitVec.ofNat 32 (h.x.val (wA h.w) 1 l) + (if two then BitVec.ofNat 32 (h.x.val (wB h.w) 1 l) else 0#32) +
    (BitVec.ofNat 20 (fld h.w 63 44)).signExtend 32).toNat

/-- The bytes of an access (R193). -/
def accessBytes (h : Th) : Nat := 2 ^ fld h.w 43 41

/-- A loaded value: 8 and 16 bits are sign-extended to a register with mod[35] set, zero-extended otherwise (R193). -/
def loaded (h : Th) (v : Nat) : Nat :=
  match fld h.w 43 41 with
  | 0 => if bit h.w 35 then ((BitVec.ofNat 8 v).signExtend 32).toNat else v
  | 1 => if bit h.w 35 then ((BitVec.ofNat 16 v).signExtend 32).toNat else v
  | _ => v

/-- The value that an atomic leaves: ADD, MIN, MAX, AND, OR, XOR, XCHG, CAS over an unsigned, signed or F32 type (R196). -/
def atomicResult (op typ n old b cmp : Nat) : Nat :=
  let bits := 8 * n
  match op with
  | 0 => if typ = 2 then (toF32 ((f32 (BitVec.ofNat 32 old)).add (f32 (BitVec.ofNat 32 b)))).toNat
         else (BitVec.ofNat bits old + BitVec.ofNat bits b).toNat
  | 1 => (pick (decide (typ = 1)) false (BitVec.ofNat bits b) (BitVec.ofNat bits old)).toNat
  | 2 => (pick (decide (typ = 1)) true (BitVec.ofNat bits b) (BitVec.ofNat bits old)).toNat
  | 3 => (BitVec.ofNat bits old &&& BitVec.ofNat bits b).toNat
  | 4 => (BitVec.ofNat bits old ||| BitVec.ofNat bits b).toNat
  | 5 => (BitVec.ofNat bits old ^^^ BitVec.ofNat bits b).toNat
  | 6 => b
  | _ => if old = cmp then b else old

/-- Operand and compare value of an atomic: CAS names a group with the compare value first (R196). -/
def atomicOperands (h : Th) (l : Nat) : Nat × Nat :=
  let n := accessBytes h / 4
  if fld h.w 40 38 = 7 then (h.x.val (wB h.w) (2 * n) l / 2 ^ (32 * n), h.x.val (wB h.w) (2 * n) l % 2 ^ (32 * n))
  else (h.x.val (wB h.w) n l, 0)

/-- Atomics one after another (R196): from the bytes of a store, the bytes that remain and the value that each lane's operation
replaced. -/
def atomicsInOrder (h : Th) (at_ : Nat → Nat) : List Nat → (Nat → BitVec 8) → (Nat → BitVec 8) × List (Nat × Nat)
  | [], m => (m, [])
  | l :: ls, m =>
    let n := accessBytes h
    let old := ((List.range n).map fun i => (m (at_ l + i)).toNat * 256 ^ i).sum
    let new := atomicResult (fld h.w 40 38) (fld h.w 37 36) n old (atomicOperands h l).1 (atomicOperands h l).2
    let m1 := fun off => if at_ l ≤ off ∧ off < at_ l + n then byteNo new (off - at_ l) else m off
    let r := atomicsInOrder h at_ ls m1
    (r.1, (l, old) :: r.2)

/-- A byte of an LDG that needs no fetch: of the issuing cluster's own shelf (R270), or held by the shelf cache (R170). -/
def atHand (s : State) (h : Th) (ga : Nat) : Option (BitVec 9) :=
  match s.ownShelf h.b ga with
  | some off => some (shelfByte s h.b.t h.b.c off)
  | none =>
    if h.tm.cacheKib = 0 then none
    else (s.cached h.b.t h.b.c (ga / 128)).bind fun c => if c.have_.getLsbD (ga % 128) then some (c.byte (ga % 128)) else none

/-- A byte among the data that came back. -/
def cameBack (rs : List Req) (ga : Nat) : Option (BitVec 9) :=
  rs.findSome? fun r => if r.addr.toNat ≤ ga ∧ ga < r.addr.toNat + r.data.length then r.data[ga - r.addr.toNat]? else none

end Sys2Proof.Claims
end

