-- ==== Sys2Proof/Safety/Tallies.lean ====
section
/-! DEFINITION. The terms in which claims speak of tallies and of the engines' job descriptors. -/

namespace Sys2Proof.Claims

open Sys2Proof.Machine

/-- The end of a tally's cycle (R157, R158): an armed tally (target not zero, done clear) whose count has reached its target
completes once; its phase inverts, and with auto-reset the count drops by the target, else done is set. -/
def settled (y : Tally) : Tally :=
  if y.target ≠ 0#32 ∧ y.done = false ∧ y.target.toNat ≤ y.count.toNat then
    (if y.auto then { y with phase := !y.phase, count := y.count - y.target } else { y with phase := !y.phase, done := true })
  else y

/-- k added to a tally's count, which stops at 0xFFFF_FFFF and then sets sat (R156). -/
def added (y : Tally) (k : Nat) : Tally :=
  { y with count := BitVec.ofNat 32 (min 0xFFFFFFFF (y.count.toNat + k)), sat := y.sat || decide (0xFFFFFFFF < y.count.toNat + k) }

/-- A running TALLY_WAIT for tally n of cluster (t, c) whose condition the tally's state y meets (R156, Table 12-5). -/
def waitServed (k : Pkt) (t c n : Nat) (y : Tally) : Bool :=
  let w := wordAt k.words 1
  k.waits.contains waitTally && decide (fld w 7 0 = t ∧ fld w 15 8 = c ∧ fld w 23 16 = n) &&
  (if bit w 24 then decide (fld w 63 32 ≤ y.count.toNat) else decide (y.phase = bit w 32))

/-- Such a command no longer waits for the tally. -/
def served (k : Pkt) (t c n : Nat) (y : Tally) : Pkt :=
  if waitServed k t c n y then { k with waits := k.waits.filter (· ≠ waitTally) } else k

/-- s1 is s with tally n of cluster (t, c) at y, and the TALLY_WAIT commands whose condition now holds no longer waiting for it;
nothing else changes. -/
structure TallyBecomes (s s1 : State) (t c n : Nat) (y : Tally) : Prop where
  value : s1.tally t c n = y
  others : ∀ m, m ≠ n → s1.tally t c m = s.tally t c m
  cluster : { s1.clu t c with tallies := (s.clu t c).tallies } = s.clu t c
  clusters : ∀ j, j ≠ cluKey t c → SMap.get Cluster.init s1.clusters j = SMap.get Cluster.init s.clusters j
  waits : ∀ q, s1.queue q =
    { s.queue q with running := (s.queue q).running.map fun k => served k t c n y }
  rest : { s1 with clusters := s.clusters, queues := s.queues } = s

/-- The tally of the word lies in the team's window (R159). -/
def windowed (h : Th) (n : Nat) : Prop := h.tm.tallyBase ≤ n ∧ n < h.tm.tallyBase + h.tm.tallyCount ∧ n ≤ 127

/-- The uniform named by the field plus the immediate, modulo 2^32 (R199). -/
def plusImm (h : Th) (u : Nat) : W32 := h.x.uni u + BitVec.ofNat 32 (fld h.w 63 32)

/-- The words of descriptor i of a list at shelf offset off (R103, R201). -/
def descWords (s : State) (t c off i : Nat) : List W64 :=
  (List.range 8).map fun j => BitVec.ofNat 64 (shelfValue s t c (off + 64 * i + 8 * j) 8)

/-- The descriptors of an engine instruction with their shelf offsets. -/
def descList (s : State) (h : Th) : List (Nat × List W64) :=
  let off := (h.x.uni (fld h.w 24 18)).toNat
  (List.range (fld h.w 63 32)).map fun i => (off + 64 * i, descWords s h.b.t h.b.c off i)

/-- Every check of R166 on the descriptor list passes: alignment, its bounds, its data, each descriptor, its tally in the team's
window, the regions it names. -/
structure EngineChecks (s : State) (h : Th) (ok : List W64 → Bool) (tally : List W64 → Nat) (inside : List W64 → Nat → Bool) : Prop where
  aligned : (h.x.uni (fld h.w 24 18)).toNat % 64 = 0
  bounds : (h.x.uni (fld h.w 24 18)).toNat + 64 * fld h.w 63 32 ≤ s.direct h.b.t h.b.c
  data : ∀ i, i < 64 * fld h.w 63 32 → isBad (shelfByte s h.b.t h.b.c ((h.x.uni (fld h.w 24 18)).toNat + i)) = false
  fields : ∀ d ∈ descList s h, ok d.2 = true
  window : ∀ d ∈ descList s h, windowed h (tally d.2)
  regions : ∀ d ∈ descList s h, inside d.2 (s.direct h.b.t h.b.c) = true

/-! ## All thread instructions -/

/-- The thread instructions but BAR with their opcodes (tables of chapter 6) and the decode checks of R182 for each. -/
def threadOps (b : BunchRef) (w : W64) : List (Instr × List Nat × (Th → Bool)) :=
  [(.mov b w, [0x00, 0x20], movLegal), (.add b w, [0x01, 0x21], binForm.legal), (.sub b w, [0x02, 0x22], binForm.legal),
   (.mul b w, [0x03, 0x23], mulForm.legal), (.fma b w, [0x04], fmaForm.legal), (.min b w, [0x05, 0x25], binForm.legal),
   (.max b w, [0x06, 0x26], binForm.legal), (.andB b w, [0x08, 0x28], logForm.legal), (.orB b w, [0x09, 0x29], logForm.legal),
   (.xorB b w, [0x0A, 0x2A], logForm.legal), (.notB b w, [0x0B], notForm.legal), (.shl b w, [0x0C, 0x2C], shForm.legal),
   (.shr b w, [0x0D, 0x2D], shForm.legal), (.popc b w, [0x0E], unForm.legal), (.clz b w, [0x0F], unForm.legal),
   (.brev b w, [0x10], unForm.legal), (.sel b w, [0x11], selForm.legal), (.setp b w, [0x12, 0x32], setpLegal),
   (.shfl b w, [0x13, 0x33], shflForm.legal), (.frnd b w, [0x14], frndForm.legal), (.seed b w, [0x15], seedForm.legal),
   (.prmt b w, [0x16], prmtForm.legal), (.mop b w, [0x17], mopLegal), (.cvt b w, [0x40], cvtLegal),
   (.lds b w, [0x80], ldLegal false), (.sts b w, [0x81], stLegal false), (.ldg b w, [0x82], ldLegal true),
   (.stg b w, [0x83], stLegal true), (.atoms b w, [0x84], amLegal false), (.atom b w, [0x85], amLegal true),
   (.nop b w, [0xA0], cLegal kNone false), (.bra b w, [0xA1], cLegal kNone true), (.braAny b w, [0xA2], cLegal okMask true),
   (.braAll b w, [0xA3], cLegal okMask true), (.braNone b w, [0xA4], cLegal okMask true), (.braUZ b w, [0xA5], cLegal okUni true),
   (.braUNz b w, [0xA6], cLegal okUni true), (.call b w, [0xA7], cLegal okUni true), (.ret b w, [0xA8], cLegal okUni false),
   (.pushm b w, [0xA9], cLegal okMask true), (.andm b w, [0xAA], cLegal okMask false), (.popm b w, [0xAB], cLegal kNone false),
   (.exit b w, [0xAC], cLegal kNone false), (.setT b w, [0xC0], sLegal true true true (atMost 1) any_ any_),
   (.arrive b w, [0xC1], sLegal true false true zero_ any_ any_), (.waitPh b w, [0xC2], sLegal false false false (atMost 1) any_ zero_),
   (.waitGe b w, [0xC3], sLegal true false true zero_ any_ any_), (.mxd b w, [0xC5], eLegal), (.hxf b w, [0xC6], eLegal),
   (.qcv b w, [0xC7], eLegal), (.nrm b w, [0xC8], eLegal), (.fence b w, [0xC9], sLegal false false false (atMost 4) zero_ zero_),
   (.tfence b w, [0xCA], sLegal false false false zero_ zero_ zero_)] ++ (sfuOps b w).map fun e => (e.1, [e.2.1], sfuLegal)

end Sys2Proof.Claims
end

