-- ==== Sys2Proof/Safety/Packets.lean ====
section
/-! DEFINITION. The terms in which claims speak of command packets: the packet whose work is due, and its completion. -/

namespace Sys2Proof.Claims

open Sys2Proof.Machine

/-- The completion entry of a packet (Table 12-2): its tag, the status, detail and clamp mask, the stamps at which it started and
ended, its interrupt flag. The energy of a command that holds grants is metered, and this leaves it open (R402). -/
structure EntryOf (s : State) (q : Nat) (k : Pkt) (st detail clamp : Nat) (e : Compl) : Prop where
  tag : e.tag = hTag k.words
  status : e.status = st
  detail : e.detail = detail
  clamp : e.clamp = clamp
  start : e.start = k.start
  stop : e.end_ = s.stamp (q / 256)
  irq : e.irq = hIrq k.words
  final : e.interim = false
  energy : metered (hOpcode k.words) = false → e.energy = 0
  reply : e.reply = k.reply

/-- t is s after packet k of queue q has completed with a status: the packet has left the queue, and the queue has its completion
entry to write, unless the packet is quiet and ended with OK (R357, R358); the packet's grants are given back; nothing else
changes. -/
structure Completed (s t : State) (q : Nat) (k : Pkt) (st detail clamp : Nat) : Prop where
  gone : (t.queue q).running = (s.queue q).running.filter fun x => decide (x.id ≠ k.id)
  entry : ¬ (hQuiet k.words = true ∧ st = stOK ∧ k.reply = none) →
    ∃ e, EntryOf s q k st detail clamp e ∧ (t.queue q).done = (s.queue q).done ++ [e]
  silent : hQuiet k.words = true ∧ st = stOK ∧ k.reply = none → (t.queue q).done = (s.queue q).done
  queue : { t.queue q with running := (s.queue q).running, done := (s.queue q).done } = s.queue q
  others : ∀ j, j ≠ q → t.queue j = s.queue j
  grants : ∀ x, x < 4 → t.tower x =
    { s.tower x with grants := (s.tower x).grants.filter fun g => decide (g.req.requester.toNat ≠ cmdReq k.id)
                     grantQ := (s.tower x).grantQ.filter fun g => decide (g.requester.toNat ≠ cmdReq k.id) }
  rest : { t with queues := s.queues, towers := s.towers, free := s.free } = s

/-- Packet k, which opens with opcode op, is the running packet of queue q whose work a command with its words does now: it is the
first of the queue with these words whose work is due, no access of it is in flight, and no unit has signalled a status for it. -/
structure Due (s : State) (q op : Nat) (k : Pkt) : Prop where
  opcode : hOpcode k.words = op
  found : (s.queue q).running.find? (fun x => decide (x.words = k.words) && s.workable q x) = some k
  mine : s.running? k.id = some (q, k)
  quiet : ∀ r ∈ s.reqs, r.owner ≠ cmdOwner q k.id
  idle : s.needs = [] ∧ s.sends = []
  unsignalled : k.status = 0

/-- A command's only effect is to complete its packet, with a change of the machine that `P` describes. -/
def Completes (i : Instr) (s : State) (q : Nat) (k : Pkt) (st detail clamp : Nat) (P : State → Prop) : Prop :=
  ∃ s1 t, exec i s = .next t ∧ P s1 ∧ Completed s1 t q k st detail clamp

/-- A command ends with an error status and changes nothing but its queue. -/
def Refuses (i : Instr) (s : State) (q : Nat) (k : Pkt) (st : Nat) : Prop :=
  ∃ t, exec i s = .next t ∧ Completed s t q k st 0 0

/-- A command goes on: its packet stays in the queue with OK, or OK_CLAMPED where fields were clamped, unless a unit has signalled a
status for it, and waits for the orders or arrivals of a list; `P` describes the machine beside the packet. -/
def Waits (i : Instr) (s : State) (k : Pkt) (clamp : Nat) (ws : List Nat) (P : State → Prop) : Prop :=
  ∃ s1, P s1 ∧ exec i s = .next (s1.modPkt k.id fun x =>
    { x with begun := true, status := if x.status = 0 then okStatus clamp else x.status
             detail := if x.status = 0 then 0 else x.detail, clamp := clamp, waits := ws })

/-- A command's write is served within the command: none of it leaves over a link, and no access of the command is in flight. -/
structure Served (q : Nat) (k : Pkt) (w : Put) : Prop where
  status : w.st = 0
  here : w.s.sends = [] ∧ w.s.needs = []
  quiet : ∀ r ∈ w.s.reqs, r.owner ≠ cmdOwner q k.id

/-- At the next dispatch tick the orders of packet k alone apply: all of them were accepted before it, nothing else waits for the
tick, and no commit of the dispatchers or the health manager is under way. -/
structure Alone (s : State) (q : Nat) (k : Pkt) : Prop where
  ready : s.mod.ready = true
  orders : s.mod.orders ≠ [] ∧ ∀ o ∈ s.mod.orders, o.pkt = k.id ∧ o.safety = false ∧ o.tick < s.tickNow
  mine : s.running? k.id = some (q, k)
  begun : k.begun = true ∧ k.waits = [waitOrder] ∧ k.status = 0
  quiet : ∀ r ∈ s.reqs, r.owner ≠ cmdOwner q k.id
  idle : s.needs = [] ∧ s.sends = []
  commits : (∀ t, t < 4 → s.commitPending .cmdCommit t 0 = false) ∧ s.mod.healthStaged = []
  queues : ∀ j, (s.queue j).next = none
  only : ∀ e ∈ s.queues, ∀ x ∈ e.2.running, x.id = k.id → x = k
  waiting : ∀ e ∈ s.queues, ∀ x ∈ e.2.running, (Wait.dispatch s.mod.lead).code ∉ x.waits

/-- The packet goes on and waits for what a list names, with a status, detail and clamp mask of its own. -/
def GoesOn (u : State) (q : Nat) (k : Pkt) (st detail clamp : Nat) (ws : List Nat) : Prop :=
  ∃ k', u.running? k.id = some (q, k') ∧ k'.words = k.words ∧ k'.begun = true ∧ k'.status = st ∧ k'.detail = detail ∧ k'.clamp = clamp ∧ k'.waits = ws

end Sys2Proof.Claims
end

