-- ==== Sys2Proof/Safety/Units.lean ====
section
/-! DEFINITION. The terms in which claims speak of the block's units: which part of the machine an event changes. -/

namespace Sys2Proof.Claims

open Sys2Proof.Machine

/-- t is s with only the matrix array of one cluster changed. -/
structure ArrayOnly (s t : State) (r : CluRef) : Prop where
  cluster : { t.clu r.t r.c with arr := (s.clu r.t r.c).arr } = s.clu r.t r.c
  clusters : ∀ k, k ≠ cluKey r.t r.c → SMap.get Cluster.init t.clusters k = SMap.get Cluster.init s.clusters k
  rest : { t with clusters := s.clusters } = s

/-- t is s with only one tower changed. -/
structure TowerOnly (s t : State) (n : Nat) : Prop where
  towers : ∀ k, k ≠ n → t.tower k = s.tower k
  rest : { t with towers := s.towers } = s

/-- t is s with only the tag tables changed, and of them only one tag's entries (R120). -/
structure TagOnly (s t : State) (tag : Nat) : Prop where
  tags : ∀ k, k % 4096 ≠ tag % 4096 → SMap.get default t.tags k = SMap.get default s.tags k
  rest : { t with tags := s.tags } = s

/-- A shelf byte by the key of its cell, as a read of it gives. -/
def codeByte (s : State) (k : Nat) : BitVec 9 := (byteRead (SMap.get 0#13 s.mem.shelf k)).marked

/-- The grants a requester holds or waits for on a tower are gone; every other one is as before. -/
structure GivenBack (s t : State) (n : Nat) (gone : Nat → Bool) : Prop where
  grants : (t.tower n).grants = (s.tower n).grants.filter fun g => !gone g.req.requester.toNat
  waiting : (t.tower n).grantQ = (s.tower n).grantQ.filter fun g => !gone g.requester.toNat
  tower : { t.tower n with grants := (s.tower n).grants, grantQ := (s.tower n).grantQ } = s.tower n

/-- The value of an exact group sum applied to an accumulator (R88): acc := RNE(sum × f + acc). -/
def applied (f : FVal) (sum : ℚ) (acc : FVal) : FVal := r32 ((FVal.fin (decide (sum < 0)) sum).fma f acc)

/-- The machine v has queued a reply to packet p of s: on the response channel of a port that routes to p's source, with p's agent and
tag, the reply's operation and its status; `P` describes the rest of the reply (R330, R334, R335). -/
def Replies (s v : State) (p : LinkPkt) (op status : Nat) (P : LinkPkt → Prop) : Prop :=
  ∃ e ∈ s.routePorts p.src, ∃ r : LinkPkt, SMap.get [] (v.port e.2.1 e.2.2).txq 1 = SMap.get [] (s.port e.2.1 e.2.2).txq 1 ++ [r] ∧
    r.op = op ∧ r.src = s.selfId ∧ r.dst = p.src ∧ r.agent = p.agent ∧ r.tag = p.tag ∧ r.status = status ∧ P r

/-- Packet p of an operation waits in port l's receive buffer, and a reply to its source finds a port. -/
structure AtPort (s : State) (l : PortRef) (p : LinkPkt) (op : Nat) : Prop where
  op : p.op = op
  here : s.inRx l p = true
  named : s.mod.moduleId ≠ none ∧ s.mod.moduleId ≠ some (BitVec.ofNat 12 p.src)
  route : s.routePorts p.src ≠ []

/-- t is s with only one port changed, and beside it only registers. -/
structure PortOnly (s t : State) (l : PortRef) : Prop where
  ports : ∀ k, k ≠ portKey l.t l.p → SMap.get Port.init t.ports k = SMap.get Port.init s.ports k
  rest : { t with ports := s.ports, regs := s.regs } = s

end Sys2Proof.Claims
end

