-- ==== Sys2Proof/Safety/Registers.lean ====
section
/-! DEFINITION. What accesses of registers do, in the terms that claims use: registers without an effect of their own, and an
access that falls on one register. -/

namespace Sys2Proof.Claims

open Sys2Proof.Machine

/-- A register whose writes do nothing beyond its access codes; a management queue's registers (queue 255) take no write
(R353). -/
def takesWrites (l : Loc) : Bool :=
  (match l.r with
   | .cluTallyVal | .cluTallyCtl | .arrCommit | .celCommit | .panCommit | .hbmCommit | .lnkCommit | .cmdCommit | .pwrCommit | .cvuCommit
   | .cvuRun | .cmdQdb | .cmdQcptr | .mgtLog | .hltState | .hltTriggers | .hltPgSummary => false
   | .cmdQring | .cmdQcring | .cmdQcfg | .cmdQctx => l.i != 255
   | _ => true)

/-- An aligned access of 4 or 8 bytes at a module address falls on register l from its byte b on, in a block that can be
accessed (R13, R268, R269). -/
structure FallsOn (s : State) (addr size : Nat) (l : Loc) (b : Nat) : Prop where
  window : 0x1F0000000000 ≤ addr ∧ addr < 0x1F0400000000
  width : size = 4 ∨ size = 8
  aligned : addr % size = 0
  isOpen : s.mmioOpen (addr / 2 ^ 32 % 4) (addr % 2 ^ 32) = true
  bytes : ∀ i, i < size → locate (addr / 2 ^ 32 % 4) (addr % 2 ^ 32 + i) = some (l, b + i)

/-- A bit of a register after a write of the bits [lo, lo + n) with v's bits from 0 on: RW bits take the value, W1C bits are
cleared by ones, every other bit stays (R8, R12). -/
def writtenBit (r : RegName) (old v : W64) (lo n i : Nat) : Bool :=
  if lo ≤ i ∧ i < lo + n then
    (if r.rwBits.getLsbD i then v.getLsbD (i - lo) else old.getLsbD i && !(r.w1cBits.getLsbD i && v.getLsbD (i - lo)))
  else old.getLsbD i

/-- A bit of a register's staged copy after such a write: WS bits take the value (R11). -/
def stagedBit (r : RegName) (old v : W64) (lo n i : Nat) : Bool :=
  if lo ≤ i ∧ i < lo + n ∧ r.wsBits.getLsbD i then v.getLsbD (i - lo) else old.getLsbD i

/-- A commit request for the registers ls of a block (R11): each one's staged copy is taken and the request waits; nothing
becomes active yet. -/
structure Requested (s u : State) (ls : List Loc) (commit : Loc) : Prop where
  taken : ∀ l ∈ ls, u.lck l = s.stg l
  others : ∀ l, (∀ k ∈ ls, k.key ≠ l.key) → u.lck l = s.lck l
  waits : u.commitPending commit.r commit.t commit.u = true
  still : ∀ l, l.key ≠ commit.key → u.reg l = s.reg l
  rest : { u with regs := s.regs, locked := s.locked, latch := s.latch, staged := s.staged } = s

end Sys2Proof.Claims
end

