-- ==== Sys2Proof/Certificates/Slice0/Obligations.lean ====
section
/-! DEFINITION. The statements for the provers. -/

open Sys2Proof Sys2Proof.Machine Sys2Proof.Claims

/-! ## Steps -/

/-- A step runs the command at the front of the queue on the state with the queue's rest. An empty queue leaves the block as it
is (DESIGN CHOICE, log entry 1), and every command answers a next state: no rule of the specification stops the block. -/
def Obligations.StepRunsFrontOrIdles : Prop :=
  (∀ (s : State) (c : Instr) (cs : List Instr), step { s with pending := c :: cs } = exec c { s with pending := cs }) ∧
  ((∀ s : State, s.pending = [] → step s = .next s) ∧ (∀ (c : Instr) (s : State), ∃ u, exec c s = .next u) ∧
  ∀ s : State, s.goesOn)

/-! ## Thread instructions -/

/-- Integer ADD, SUB, MUL, FMA, MIN and MAX (R185 to R188, Table 06-5) in every register, uniform and immediate form. MOV, the
bitwise instructions, the shifts, POPC, CLZ, BREV and PRMT (R187, R188, Table 06-5) in every form: a shift by the operand
width or more gives 0, or all sign bits for an arithmetic SHR. -/
def Obligations.IntegerInstructionsCompute : Prop :=
  (∀ (s : State) (h : Th) (t : Ty), tyOf (wType h.w) = some t → t ≠ .f32 →
    (Issues s h [0x01, 0x21] binForm.legal → RegistersOnly (.add h.b h.w) s h fun y =>
      Writes h.x y (wD h.w) t.regs fun l => (srcReg h t.bits l + srcAlt h t.bits l).toNat) ∧
    (Issues s h [0x02, 0x22] binForm.legal → RegistersOnly (.sub h.b h.w) s h fun y =>
      Writes h.x y (wD h.w) t.regs fun l => (srcReg h t.bits l - srcAlt h t.bits l).toNat) ∧
    (Issues s h [0x03, 0x23] mulForm.legal → RegistersOnly (.mul h.b h.w) s h fun y =>
      Writes h.x y (wD h.w) 1 fun l =>
        let p : BitVec 64 := extend t.signed 64 (srcReg h 32 l) * extend t.signed 64 (srcAlt h 32 l)
        if fld h.w 7 5 ≠ 1 ∧ bit h.w 48 then (p.extractLsb' 32 32).toNat else (p.extractLsb' 0 32).toNat) ∧
    (Issues s h [0x04] fmaForm.legal → RegistersOnly (.fma h.b h.w) s h fun y =>
      Writes h.x y (wD h.w) t.regs fun l =>
        (extend t.signed t.bits (srcReg h 32 l) * extend t.signed t.bits (srcAlt h 32 l) + srcThird h t.bits l).toNat) ∧
    (Issues s h [0x05, 0x25] binForm.legal → RegistersOnly (.min h.b h.w) s h fun y =>
      Writes h.x y (wD h.w) t.regs fun l => (pick t.signed false (srcReg h t.bits l) (srcAlt h t.bits l)).toNat) ∧
    (Issues s h [0x06, 0x26] binForm.legal → RegistersOnly (.max h.b h.w) s h fun y =>
      Writes h.x y (wD h.w) t.regs fun l => (pick t.signed true (srcReg h t.bits l) (srcAlt h t.bits l)).toNat)) ∧
  (∀ (s : State) (h : Th) (t : Ty), tyOf (wType h.w) = some t →
    let amount (l : Nat) : Nat := (srcAlt h 32 l).toNat % 256
    (Issues s h [0x00, 0x20] movLegal → RegistersOnly (.mov h.b h.w) s h fun y =>
      Writes h.x y (wD h.w) t.regs fun l => if fld h.w 7 5 = 1 then (srcAlt h t.bits l).toNat else (srcReg h t.bits l).toNat) ∧
    (Issues s h [0x08, 0x28] logForm.legal → RegistersOnly (.andB h.b h.w) s h fun y =>
      Writes h.x y (wD h.w) t.regs fun l => (srcReg h t.bits l &&& srcAlt h t.bits l).toNat) ∧
    (Issues s h [0x09, 0x29] logForm.legal → RegistersOnly (.orB h.b h.w) s h fun y =>
      Writes h.x y (wD h.w) t.regs fun l => (srcReg h t.bits l ||| srcAlt h t.bits l).toNat) ∧
    (Issues s h [0x0A, 0x2A] logForm.legal → RegistersOnly (.xorB h.b h.w) s h fun y =>
      Writes h.x y (wD h.w) t.regs fun l => (srcReg h t.bits l ^^^ srcAlt h t.bits l).toNat) ∧
    (Issues s h [0x0B] notForm.legal → RegistersOnly (.notB h.b h.w) s h fun y =>
      Writes h.x y (wD h.w) t.regs fun l => (~~~srcReg h t.bits l).toNat) ∧
    (Issues s h [0x0C, 0x2C] shForm.legal → RegistersOnly (.shl h.b h.w) s h fun y =>
      Writes h.x y (wD h.w) t.regs fun l => (srcReg h t.bits l <<< amount l).toNat) ∧
    (Issues s h [0x0D, 0x2D] shForm.legal → RegistersOnly (.shr h.b h.w) s h fun y =>
      Writes h.x y (wD h.w) t.regs fun l =>
        if t.signed then ((srcReg h t.bits l).sshiftRight (amount l)).toNat else (srcReg h t.bits l >>> amount l).toNat) ∧
    (Issues s h [0x0E] unForm.legal → RegistersOnly (.popc h.b h.w) s h fun y =>
      Writes h.x y (wD h.w) 1 fun l => ones (srcReg h 32 l)) ∧
    (Issues s h [0x0F] unForm.legal → RegistersOnly (.clz h.b h.w) s h fun y =>
      Writes h.x y (wD h.w) 1 fun l => if srcReg h 32 l = 0#32 then 32 else 31 - (srcReg h 32 l).toNat.log2) ∧
    (Issues s h [0x10] unForm.legal → RegistersOnly (.brev h.b h.w) s h fun y =>
      Writes h.x y (wD h.w) 1 fun l => (srcReg h 32 l).reverse.toNat) ∧
    (Issues s h [0x16] prmtForm.legal → RegistersOnly (.prmt h.b h.w) s h fun y =>
      ∃ r : Nat → BitVec 32, Writes h.x y (wD h.w) 1 (fun l => (r l).toNat) ∧ ∀ l i, i < 4 →
        let c := srcThird h 32 l
        let n := (c.extractLsb' (4 * i) 3).toNat
        byteOf (r l) i = if c.getLsbD (4 * i + 3) then 0#8 else if n < 4 then byteOf (srcReg h 32 l) n
          else byteOf (srcAlt h 32 l) (n - 4)))

/-- F32 ADD, SUB, MUL, FMA, MIN, MAX and FRND (R188): the sources with their absolute-value and negate bits, the exact result
rounded once; MIN and MAX take the other operand where one is a NaN and order −0 below +0; FRND rounds to an integral value
and keeps the sign of a zero result. The rounding of a finite value into F32, BF16, F16, F8E4M3 and F8E5M2 is to nearest
(R69, R188): no code of the format holds a value nearer to it, wherever the rounded magnitude does not overflow (Table 02-3).
Every unit takes and gives subnormals at their full value (R50), and keeps every other value: the rounding of a code's own
value is that code, for every code that is no NaN, and the canonical NaN of the format for every NaN (R51). -/
def Obligations.FloatingPointRoundsOnce : Prop :=
  (∀ (s : State) (h : Th), wType h.w = 0 →
    (Issues s h [0x01, 0x21] binForm.legal → RegistersOnly (.add h.b h.w) s h fun y =>
      Writes h.x y (wD h.w) 1 fun l => (toF32 ((floatA h l).add (floatB h l))).toNat) ∧
    (Issues s h [0x02, 0x22] binForm.legal → RegistersOnly (.sub h.b h.w) s h fun y =>
      Writes h.x y (wD h.w) 1 fun l => (toF32 ((floatA h l).add (floatB h l).neg)).toNat) ∧
    (Issues s h [0x03, 0x23] mulForm.legal → RegistersOnly (.mul h.b h.w) s h fun y =>
      Writes h.x y (wD h.w) 1 fun l => (toF32 ((floatA h l).mul (floatB h l))).toNat) ∧
    (Issues s h [0x04] fmaForm.legal → RegistersOnly (.fma h.b h.w) s h fun y =>
      Writes h.x y (wD h.w) 1 fun l => (toF32 (((floatA h l).mul (floatB h l)).add (floatC h l))).toNat) ∧
    (Issues s h [0x05, 0x25] binForm.legal → RegistersOnly (.min h.b h.w) s h fun y =>
      ∃ r : Nat → BitVec 32, Writes h.x y (wD h.w) 1 (fun l => (r l).toNat) ∧
        ∀ l, Runs h.x (wD h.w) l → Least false (floatA h l) (floatB h l) (r l)) ∧
    (Issues s h [0x06, 0x26] binForm.legal → RegistersOnly (.max h.b h.w) s h fun y =>
      ∃ r : Nat → BitVec 32, Writes h.x y (wD h.w) 1 (fun l => (r l).toNat) ∧
        ∀ l, Runs h.x (wD h.w) l → Least true (floatA h l) (floatB h l) (r l)) ∧
    (Issues s h [0x14] frndForm.legal → RegistersOnly (.frnd h.b h.w) s h fun y =>
      Writes h.x y (wD h.w) 1 fun l => (toF32 (integral (wSub h.w) (floatA h l))).toNat)) ∧
  (∀ (code : Nat) (f : FFmt) (neg : Bool) (q : ℚ), fmtOf code = some f → neg = decide (q < 0) → |q| ≤ f.maxFin →
    ∃ n v, f.decode (f.round .rne (.fin neg q)).1 = .fin n v ∧
      ∀ c m u, c < 2 ^ f.width → f.decode c = .fin m u → |v - q| ≤ |u - q|) ∧
  (∀ (code : Nat) (f : FFmt) (c : Nat), fmtOf code = some f → c < 2 ^ f.width →
    (f.decode c ≠ .nan → (f.round .rne (f.decode c)).1 = c) ∧ (f.decode c = .nan → (f.round .rne (f.decode c)).1 = f.canon))

/-- R51: a NaN result is written in the canonical form of its format, 0x7FC0_0000 in F32, 0x7FC0 in BF16, 0x7E00 in F16, 0x7F in
F8E4M3 and 0x7E in F8E5M2, under every rounding, whatever the payload and the sign of the NaN that it comes from. -/
def Obligations.NanResultsAreCanonical : Prop :=
  ∀ (code : Nat) (f : FFmt) (m : Rnd), fmtOf code = some f →
    let canonical := [0x7FC00000, 0x7FC0, 0x7E00, 0x7F, 0x7E].getD code 0
    (f.round m .nan).1 = canonical ∧ f.decode canonical = .nan ∧
    ∀ (g : FFmt) (k c : Nat), fmtOf k = some g → c < 2 ^ g.width → g.decode c = .nan → (f.round m (g.decode c)).1 = canonical

/-- SEL and SHFL (R188, R189, Table 06-4). A uniform SEL whose mask has both values takes one of its two operands: which one the
specification does not say (DEDUCED, log entry 20), and the free value that decides is drawn. SETP writes the mask bits of the active
threads and leaves those of the others (R189): an F32 comparison is false where an operand is a NaN, but for NE and UN
(R188). MOP acts on all 64 bits whatever m0 holds; POPC and M2U write uniforms, U2M reads a uniform pair (R189, Table 06-4).
-/
def Obligations.LanesAndMasks : Prop :=
  (∀ (s : State) (h : Th) (t : Ty), tyOf (wType h.w) = some t →
    let n := t.regs
    let a (l : Nat) : Nat := (srcReg h t.bits l).toNat
    let b (l : Nat) : Nat := (srcAlt h t.bits l).toNat
    let k := h.x.mask (fld h.w 56 54)
    (Issues s h [0x11] selForm.legal →
      (wD h.w < 256 → RegistersOnly (.sel h.b h.w) s h fun y => Writes h.x y (wD h.w) n fun l => if k.getLsbD l then a l else b l) ∧
      (256 ≤ wD h.w → ∃ y, exec (.sel h.b h.w) s = .next (issued (s.drawn 1) h y (h.x.pc + 8)) ∧
        ((Writes h.x y (wD h.w) n a ∧ k ≠ 0#64) ∨ (Writes h.x y (wD h.w) n b ∧ k ≠ BitVec.allOnes 64)))) ∧
    (Issues s h [0x13, 0x33] shflForm.legal → RegistersOnly (.shfl h.b h.w) s h fun y =>
      Writes h.x y (wD h.w) 1 fun l =>
        let b := (srcAlt h 32 l).toNat
        (h.x.word (wA h.w) 0 (match wSub h.w with
          | 0 => b % 64
          | 1 => l ^^^ (b % 64)
          | 2 => if b ≤ l then l - b else l
          | _ => if l + b ≤ 63 then l + b else l)).toNat)) ∧
  (∀ (s : State) (h : Th) (t : Ty), tyOf (wType h.w) = some t → Issues s h [0x12, 0x32] setpLegal →
    RegistersOnly (.setp h.b h.w) s h fun y => ∃ v : BitVec 64, WritesMask h.x y (wD h.w) v ∧
      ∀ l, l < 64 → v.getLsbD l =
        if h.x.m0.getLsbD l then
          (if t = .f32 then compareF (wSub h.w) (floatA h l) (floatB h l)
           else compareI (wSub h.w) (toInt t.signed (srcReg h t.bits l)) (toInt t.signed (srcAlt h t.bits l)))
        else (h.x.mask (wD h.w)).getLsbD l) ∧
  (∀ (s : State) (h : Th), Issues s h [0x17] mopLegal → RegistersOnly (.mop h.b h.w) s h fun y =>
    let a := h.x.mask (wA h.w)
    match wSub h.w with
    | 0 => WritesMask h.x y (wD h.w) (a &&& h.x.mask (wB h.w))
    | 1 => WritesMask h.x y (wD h.w) (a ||| h.x.mask (wB h.w))
    | 2 => WritesMask h.x y (wD h.w) (a ^^^ h.x.mask (wB h.w))
    | 3 => WritesMask h.x y (wD h.w) (a &&& ~~~h.x.mask (wB h.w))
    | 4 => WritesMask h.x y (wD h.w) a
    | 5 => Writes h.x y (wD h.w) 1 fun _ => ones a
    | 6 => Writes h.x y (wD h.w) 2 fun _ => a.toNat
    | _ => WritesMask h.x y (wD h.w) (BitVec.ofNat 64 (h.x.val (wA h.w) 2 0)))

/-- CVT converts a into d and rounds once (R190, R191): stochastic rounding draws from the ALU LFSR of each lane's physical lane,
in lane order, and a uniform CVT from LFSR 0; without it no LFSR moves. SEED sub 0 writes the ALU LFSR of each active thread
0 to 15, sub 1 the converter LFSR of each active thread; 0 becomes 1, and every other LFSR keeps its state (R190). -/
def Obligations.ConversionsAndSeeds : Prop :=
  (∀ (s : State) (h : Th), Issues s h [0x40] cvtLegal →
    let lfsr (j : Nat) : W32 := laneGet (s.te h.b.t h.b.c h.b.e).alu j
    let a (l : Nat) : W32 := h.x.word (wA h.w) 0 l
    ∃ y m, exec (.cvt h.b h.w) s = .next (issued (s.modTe h.b.t h.b.c h.b.e fun z => { z with alu := m }) h y (h.x.pc + 8)) ∧
      Writes h.x y (wD h.w) 1 (fun l =>
        (cvtResult h.w (if bit h.w 53 then .sr (draw (earlierDraws h.x (wD h.w) l + 1) (lfsr (l % 16))) else .rne) (cvtSource h.w (a l))).toNat) ∧
      ∀ j, j < 16 → laneGet m j =
        if bit h.w 53 then
          advanced (if 256 ≤ wD h.w then (if j = 0 then 1 else 0)
            else ((List.range 64).filter fun i => decide (i % 16 = j) && h.x.m0.getLsbD i).length) (lfsr j)
        else lfsr j) ∧
  (∀ (s : State) (h : Th), Issues s h [0x15] seedForm.legal →
    let old := s.te h.b.t h.b.c h.b.e
    let seed (l : Nat) : W32 := if h.x.word (wA h.w) 0 l = 0#32 then 1#32 else h.x.word (wA h.w) 0 l
    ∃ z, exec (.seed h.b h.w) s = .next (issued (s.modTe h.b.t h.b.c h.b.e fun _ => z) h h.x (h.x.pc + 8)) ∧
      { z with alu := old.alu, conv := old.conv } = old ∧
      (∀ j, laneGet z.alu j = if wSub h.w = 0 ∧ j < 16 ∧ h.x.m0.getLsbD j = true then seed j else laneGet old.alu j) ∧
      (∀ j, laneGet z.conv j = if wSub h.w = 1 ∧ j < 64 ∧ h.x.m0.getLsbD j = true then seed j else laneGet old.conv j))

/-- The eleven special functions (R192, R213, R214): the input format's value, the function's value from the bank to which the
bunch is bound, rounded once to nearest even into the output format; each NaN result of a number counts in SFU_DOMAIN_CNT.
Where the tables hold a coefficient that is no number the result is open, and the free values that stand for it are drawn.
The special values of Table 07-1, whatever the tables hold (R212). The exact results of R212, whatever the tables hold. -/
def Obligations.SpecialFunctionsFollowTheirTables : Prop :=
  (∀ (s : State) (h : Th) (i : Instr) (op : Nat) (fn : SfuFn), (i, op, fn) ∈ sfuOps h.b h.w → Issues s h [op] sfuLegal →
    ∀ fi fo, fmtOf (fld h.w 61 60) = some fi → fmtOf (fld h.w 63 62) = some fo →
      let T := bankCoef s.packageEntry (s.clu h.b.t h.b.c).tables h.x.bank
      let input (l : Nat) : FVal := fi.decode ((h.x.word (wA h.w) 0 l).toNat % 2 ^ fi.width)
      let runs (l : Nat) : Bool := if 256 ≤ wD h.w then l == 0 else h.x.m0.getLsbD l
      let nans := ((List.range 64).filter fun l => runs l && decide (sfuEval T fn (input l) = some .nan) && decide (input l ≠ .nan)).length
      let drawn := ((List.range 64).filter fun l => runs l && decide (sfuEval T fn (input l) = none)).length
      ∃ y r, exec i s = .next (issued (if nans = 0 then s.drawn drawn
          else (s.drawn drawn).bump sfuDomainCntCount nans h.b.t h.b.c h.b.e) h y (h.x.pc + 8)) ∧
        Writes h.x y (wD h.w) 1 r ∧
        ∀ l v, Runs h.x (wD h.w) l → sfuEval T fn (input l) = some v → r l = (fo.round .rne v).1) ∧
  (∀ T : Tables,
    (∀ fn, sfuEval T fn .nan = some .nan) ∧
    ((∀ n, sfuEval T .ex2 (.fin n 0) = some (.fin false 1)) ∧ sfuEval T .ex2 (.inf true) = some (.fin false 0) ∧ sfuEval T .ex2 (.inf false) = some (.inf false)) ∧
    ((∀ n, sfuEval T .lg2 (.fin n 0) = some (.inf true)) ∧ sfuEval T .lg2 (.inf true) = some .nan ∧ sfuEval T .lg2 (.inf false) = some (.inf false)) ∧
    ((∀ n, sfuEval T .rcp (.fin n 0) = some (.inf n)) ∧ (∀ n, sfuEval T .rcp (.inf n) = some (.fin n 0))) ∧
    ((∀ n, sfuEval T .rsq (.fin n 0) = some (.inf n)) ∧ sfuEval T .rsq (.inf true) = some .nan ∧ sfuEval T .rsq (.inf false) = some (.fin false 0)) ∧
    ((∀ n, sfuEval T .sqrt (.fin n 0) = some (.fin n 0)) ∧ sfuEval T .sqrt (.inf true) = some .nan ∧ sfuEval T .sqrt (.inf false) = some (.inf false)) ∧
    ((∀ n, sfuEval T .sinpi (.fin n 0) = some (.fin n 0)) ∧ ∀ n, sfuEval T .sinpi (.inf n) = some .nan) ∧
    ((∀ n, sfuEval T .cospi (.fin n 0) = some (.fin false 1)) ∧ ∀ n, sfuEval T .cospi (.inf n) = some .nan) ∧
    ((∀ n, sfuEval T .tanh (.fin n 0) = some (.fin n 0)) ∧ sfuEval T .tanh (.inf true) = some (.fin true (-1)) ∧ sfuEval T .tanh (.inf false) = some (.fin false 1)) ∧
    ((∀ n, sfuEval T .sigm (.fin n 0) = some (.fin false (1 / 2))) ∧ sfuEval T .sigm (.inf true) = some (.fin false 0) ∧ sfuEval T .sigm (.inf false) = some (.fin false 1)) ∧
    (∀ fn, fn = .gelu ∨ fn = .silu → (∀ n, sfuEval T fn (.fin n 0) = some (.fin n 0)) ∧ sfuEval T fn (.inf true) = some (.fin true 0) ∧ sfuEval T fn (.inf false) = some (.inf false)) ∧
    (∀ fn q, fn = .lg2 ∨ fn = .rsq ∨ fn = .sqrt → q < 0 → sfuEval T fn (.fin true q) = some .nan)) ∧
  (∀ (T : Tables) (k : Int),
    (k ≠ 0 → |k| ≤ 300 → sfuEval T .ex2 (.fin (decide (k < 0)) k) = some (.fin false (pow2 k))) ∧
    (sfuEval T .lg2 (.fin false (pow2 k)) = some (.fin (decide (k < 0)) k)) ∧
    (∀ n : Bool, sfuEval T .rcp (.fin n (if n then -pow2 k else pow2 k)) = some (.fin n (if n then -pow2 (-k) else pow2 (-k)))) ∧
    (sfuEval T .rsq (.fin false (pow2 (2 * k))) = some (.fin false (pow2 (-k)))) ∧
    (sfuEval T .sqrt (.fin false (pow2 (2 * k))) = some (.fin false (pow2 k))) ∧
    (k ≠ 0 → sfuEval T .sinpi (.fin (decide (k < 0)) k) = some (.fin (decide (k < 0)) 0)) ∧
    (sfuEval T .sinpi (.fin (decide (k < 0)) (k + 1 / 2)) = some (if k % 2 = 0 then .fin false 1 else .fin true (-1))) ∧
    (k ≠ 0 → sfuEval T .cospi (.fin (decide (k < 0)) k) = some (if k % 2 = 0 then .fin false 1 else .fin true (-1))) ∧
    (sfuEval T .cospi (.fin (decide (k < 0)) (k + 1 / 2)) = some (.fin false 0)))

/-- Where the control instructions go (R153, R197, R198): NOP falls through; a branch goes to its target or falls through as its
mask's active bits or its uniform say; CALL links and jumps; RET goes to the offset in its uniform, and raises
ILLEGAL_INSTRUCTION where that is no multiple of 8. Nothing else changes. PUSHM, ANDM and POPM (R152, R154, R155): the stack
holds 16 entries, the oldest one spills into the bunch's spill area and the newest spilled one is reloaded; a PUSHM without
room raises MASK_SPILL_EXHAUSTED, an ANDM or POPM on an empty stack ILLEGAL_INSTRUCTION. EXIT removes the active threads from
the live mask (R145, R152): with threads left the bunch goes to the top entry's join, or raises ILLEGAL_INSTRUCTION where the
stack is empty; with none left it retires: its slot is free, the team counts it as retired, and the team ends with the last
of its bunches, its shelf cache and registers released. The bunch is taken to wait at no barrier, as no bunch that issues
does. -/
def Obligations.ControlFlowAndMaskStack : Prop :=
  (∀ (s : State) (h : Th),
    let target : W32 := BitVec.ofNat 32 (fld h.w 63 32)
    let next : W32 := h.x.pc + 8
    let k := h.x.mask (fld h.w 14 8)
    let u := h.x.uni (fld h.w 14 8)
    let go (pc : W32) : Host.Outcome State Fault Refusal := .next (issued s h h.x pc)
    (Issues s h [0xA0] (cLegal kNone false) → exec (.nop h.b h.w) s = go next) ∧
    (Issues s h [0xA1] (cLegal kNone true) → exec (.bra h.b h.w) s = go target) ∧
    (Issues s h [0xA2] (cLegal okMask true) →
      exec (.braAny h.b h.w) s = go (if h.x.m0 &&& k = 0#64 then next else target)) ∧
    (Issues s h [0xA3] (cLegal okMask true) →
      exec (.braAll h.b h.w) s = go (if h.x.m0 &&& ~~~k = 0#64 then target else next)) ∧
    (Issues s h [0xA4] (cLegal okMask true) →
      exec (.braNone h.b h.w) s = go (if h.x.m0 &&& k = 0#64 then target else next)) ∧
    (Issues s h [0xA5] (cLegal okUni true) → exec (.braUZ h.b h.w) s = go (if u = 0#32 then target else next)) ∧
    (Issues s h [0xA6] (cLegal okUni true) → exec (.braUNz h.b h.w) s = go (if u = 0#32 then next else target)) ∧
    (Issues s h [0xA7] (cLegal okUni true) → ∃ y, exec (.call h.b h.w) s = .next (issued s h y target) ∧
      (∀ j, j ≤ 63 → y.uni j = if j = fld h.w 14 8 then next else h.x.uni j) ∧ { y with u := h.x.u } = h.x) ∧
    (Issues s h [0xA8] (cLegal okUni false) → exec (.ret h.b h.w) s =
      if u.toNat % 8 = 0 then go u else .next (s.bunchFault h.b ⟨.illegalInstruction, 0, 0⟩))) ∧
  (∀ (s : State) (h : Th),
    let target : W32 := BitVec.ofNat 32 (fld h.w 63 32)
    let next : W32 := h.x.pc + 8
    let m := h.x.m0 &&& h.x.mask (fld h.w 14 8)
    let e : MaskEnt := ⟨h.x.m0, target⟩
    let area := h.tm.spillBase * 64 + (16 * h.b.e + h.b.k) * h.tm.spillDepth * 16
    (Issues s h [0xA9] (cLegal okMask true) →
      let pc := if m = 0#64 then target else next
      (h.x.stack.length < 16 →
        exec (.pushm h.b h.w) s = .next (issued s h { h.x with m0 := m, stack := e :: h.x.stack } pc)) ∧
      (16 ≤ h.x.stack.length → h.x.spilled < h.tm.spillDepth → ∃ o s1, h.x.stack.getLast? = some o ∧
        ShelfWasWritten s s1 h.b.t h.b.c (fun off =>
          if area + 16 * h.x.spilled ≤ off ∧ off < area + 16 * h.x.spilled + 16 then
            some (byteNo (o.outer.toNat + o.join.toNat * 2 ^ 64) (off - (area + 16 * h.x.spilled))) else none) ∧
        exec (.pushm h.b h.w) s =
          .next (issued s1 h { h.x with m0 := m, stack := e :: h.x.stack.dropLast, spilled := h.x.spilled + 1 } pc)) ∧
      (16 ≤ h.x.stack.length → h.tm.spillDepth ≤ h.x.spilled →
        exec (.pushm h.b h.w) s = .next (s.bunchFault h.b ⟨.maskSpillExhausted, 0, 0⟩))) ∧
    (Issues s h [0xAA] (cLegal okMask false) →
      (∀ top rest, h.x.stack = top :: rest →
        exec (.andm h.b h.w) s = .next (issued s h { h.x with m0 := m } (if m = 0#64 then top.join else next))) ∧
      (h.x.stack = [] → exec (.andm h.b h.w) s = .next (s.bunchFault h.b ⟨.illegalInstruction, 0, 0⟩))) ∧
    (Issues s h [0xAB] (cLegal kNone false) →
      (∀ top rest, h.x.stack = top :: rest → h.x.spilled = 0 →
        exec (.popm h.b h.w) s = .next (issued s h { h.x with m0 := top.outer &&& h.x.live, stack := rest } next)) ∧
      (∀ top rest, h.x.stack = top :: rest → 0 < h.x.spilled → ∃ s1, ShelfWasRead s s1 h.b.t h.b.c ∧
        exec (.popm h.b h.w) s = .next (issued s1 h
          { h.x with m0 := top.outer &&& h.x.live, spilled := h.x.spilled - 1
                     stack := rest ++ [⟨BitVec.ofNat 64 (shelfValue s h.b.t h.b.c (area + 16 * (h.x.spilled - 1)) 8),
                       BitVec.ofNat 32 (shelfValue s h.b.t h.b.c (area + 16 * (h.x.spilled - 1) + 8) 4)⟩] } next)) ∧
      (h.x.stack = [] → exec (.popm h.b h.w) s = .next (s.bunchFault h.b ⟨.illegalInstruction, 0, 0⟩)))) ∧
  (∀ (s : State) (h : Th), Issues s h [0xAC] (cLegal kNone false) →
    let live := h.x.live &&& ~~~h.x.m0
    (∀ top rest, live ≠ 0#64 → h.x.stack = top :: rest →
      exec (.exit h.b h.w) s = .next (issued s h { h.x with live := live, m0 := 0#64 } top.join)) ∧
    (live ≠ 0#64 → h.x.stack = [] → exec (.exit h.b h.w) s = .next (s.bunchFault h.b ⟨.illegalInstruction, 0, 0⟩)) ∧
    (live = 0#64 → (∀ n i, i ∈ SMap.get [] (s.clu h.b.t h.b.c).bars n → slotOf h.b.t h.b.c i ≠ bkey h.b) →
      ∃ t, exec (.exit h.b h.w) s = .next t ∧ t.bunch (bkey h.b) = default ∧
        (h.tm.retired.length + 1 = h.tm.team → (t.clu h.b.t h.b.c).team = none ∧ (t.clu h.b.t h.b.c).cache = [] ∧
          t.reg ⟨.teLaunch, h.b.t, h.b.c, 0, 0⟩ = 0#64) ∧
        (h.tm.retired.length + 1 ≠ h.tm.team →
          (t.clu h.b.t h.b.c).team = some { h.tm with retired := h.tm.retired ++ [h.x.idx] })))

/-- LDS, STS and ATOMS (R153, R169, R193, R195, R196): every lane's bytes must lie in the directly addressed part, else
SHELF_BOUNDS with the lowest such offset and its lowest lane; a load or atomic that meets an uncorrectable byte raises
UNCORRECTABLE_DATA; otherwise a load writes the value read, a store leaves the value of the highest-numbered lane, and
atomics act one after another in lane order. -/
def Obligations.ShelfAccesses : Prop :=
  ∀ (s : State) (h : Th),
    let n := accessBytes h
    let words := (n + 3) / 4
    let lanes := runLanes h.x (wD h.w)
    let inside (two : Bool) (ls : List Nat) : Prop := ∀ l ∈ ls, shelfAddr h two l + n ≤ s.direct h.b.t h.b.c
    let good (two : Bool) : Prop := ∀ l ∈ lanes, ∀ i, i < n → isBad (shelfByte s h.b.t h.b.c (shelfAddr h two l + i)) = false
    (Issues s h [0x80] (ldLegal false) → inside true lanes → good true → ∃ y s1, ShelfWasRead s s1 h.b.t h.b.c ∧
      exec (.lds h.b h.w) s = .next (issued s1 h y (h.x.pc + 8)) ∧
      Writes h.x y (wD h.w) words fun l => loaded h (shelfValue s h.b.t h.b.c (shelfAddr h true l) n)) ∧
    (Issues s h [0x80] (ldLegal false) → inside true lanes → ¬ good true → ∃ s1 l off, ShelfWasRead s s1 h.b.t h.b.c ∧
      exec (.lds h.b h.w) s = .next (s1.bunchFault h.b ⟨.uncorrectableData, l, off⟩)) ∧
    (Issues s h [0x80] (ldLegal false) → ¬ inside true lanes → ∃ l off,
      exec (.lds h.b h.w) s = .next (s.bunchFault h.b ⟨.shelfBounds, l, off⟩) ∧
      (l ∈ lanes ∧ s.direct h.b.t h.b.c < shelfAddr h true l + n ∧
        ∀ j ∈ lanes, s.direct h.b.t h.b.c < shelfAddr h true j + n → l ≤ j ∧ off ≤ shelfAddr h true j) ∧
      ∃ j ∈ lanes, s.direct h.b.t h.b.c < shelfAddr h true j + n ∧ off = shelfAddr h true j) ∧
    (Issues s h [0x81] (stLegal false) → inside true (activeLanes h.x) → ∃ s1,
      ShelfWasWritten s s1 h.b.t h.b.c (lastStore (activeLanes h.x) (shelfAddr h true) (fun l => h.x.val (wD h.w) words l) n) ∧
      exec (.sts h.b h.w) s = .next (issued s1 h h.x (h.x.pc + 8))) ∧
    (Issues s h [0x81] (stLegal false) → ¬ inside true (activeLanes h.x) → ∃ l off,
      exec (.sts h.b h.w) s = .next (s.bunchFault h.b ⟨.shelfBounds, l, off⟩)) ∧
    (Issues s h [0x84] (amLegal false) → inside false lanes → good false → ¬ (∃ off, flipArmed s h.b.t h.b.c off) →
      ∃ y s1 s2, ShelfWasRead s s1 h.b.t h.b.c ∧
        let r := atomicsInOrder h (shelfAddr h false) lanes fun off => (shelfByte s h.b.t h.b.c off).truncate 8
        exec (.atoms h.b h.w) s = .next (issued s2 h y (h.x.pc + 8)) ∧
        (∀ l ∈ lanes, ∀ i, i < n →
          shelfByte s2 h.b.t h.b.c (shelfAddr h false l + i) = (r.1 (shelfAddr h false l + i)).zeroExtend 9) ∧
        (∀ k, (∀ l ∈ lanes, ∀ i, i < n → k ≠ s.shelfKey h.b.t h.b.c (shelfAddr h false l + i)) →
          (byteRead (SMap.get 0#13 s2.mem.shelf k)).marked = (byteRead (SMap.get 0#13 s1.mem.shelf k)).marked) ∧
        { s2 with mem := { s2.mem with shelf := s1.mem.shelf } } = s1 ∧
        Writes h.x y (wD h.w) words fun l => (r.2.lookup l).getD 0)

/-- LDG, STG and ATOM where their homes lie in the module and no reset holds them (R170, R172, R193, R271): an LDG whose bytes
are all at hand writes them; one that misses sends for each missing line, or, without a shelf cache, for each piece of an
access, and the bunch waits at the instruction; without a shelf cache an STG sends each piece of each lane's value to its
home in lane order and goes on; an ATOM that names no line of the shelf cache sends each lane's operation, and the bunch
waits. The last access of a waiting LDG or ATOM comes back (R172, R193, R196, R283): its instruction completes. Without a
shelf cache an LDG writes the bytes that came back, and an ATOM writes each lane's old value; the accesses are gone, and the
bunch goes on. -/
def Obligations.GlobalAccessesGoAndReturn : Prop :=
  (∀ (s : State) (h : Th),
    let n := accessBytes h
    let addr (l : Nat) : Nat := (BitVec.ofNat 64 (h.x.val (wA h.w) 2 l) + (BitVec.ofNat 20 (fld h.w 63 44)).signExtend 64).toNat
    let near (a : Nat) : Prop := (∀ m x, s.home h.b.t (BitVec.ofNat 64 a) ≠ .remote m x) ∧ s.home h.b.t (BitVec.ofNat 64 a) ≠ .held
    let req (i a : Nat) (op : ReqOp) : Req :=
      ⟨s.mod.nextId + i, BitVec.ofNat 64 a, op, 4, .bunch (bkey h.b), h.b.t, .issued, none, 0, [], 0⟩
    let sent (rs : List Req) : State := { s with reqs := s.reqs ++ rs, mod := { s.mod with nextId := s.mod.nextId + rs.length } }
    let waiting : Bunch := { h.x with run := .waitAccess, inst := some h.w }
    (Issues s h [0x82] (ldLegal true) → missing h s (runLanes h.x (wD h.w)) = [] →
      (∀ r ∈ s.reqs, r.owner = .bunch (bkey h.b) → r.op.blocks = false) →
      (∀ l ∈ runLanes h.x (wD h.w), addr l + n ≤ 2 ^ 64 ∧ ∀ i, i < n → ∃ v, atHand s h (addr l + i) = some v ∧ isBad v = false) →
      ∃ y s1, ShelfWasRead s s1 h.b.t h.b.c ∧ exec (.ldg h.b h.w) s = .next (issued s1 h y (h.x.pc + 8)) ∧
        Writes { h.x with inst := none } y (wD h.w) ((n + 3) / 4) fun l =>
          loaded h ((List.range n).map fun i => (((atHand s h (addr l + i)).getD 0#9).toNat % 256) * 256 ^ i).sum) ∧
    (Issues s h [0x82] (ldLegal true) → missing h s (runLanes h.x (wD h.w)) ≠ [] →
      (∀ p ∈ missing h s (runLanes h.x (wD h.w)), near p.1) →
      exec (.ldg h.b h.w) s = .next (issued (sent ((missing h s (runLanes h.x (wD h.w))).zipIdx.map fun p => req p.2 p.1.1 (.load p.1.2)))
        h waiting h.x.pc)) ∧
    (Issues s h [0x83] (stLegal true) → h.tm.cacheKib = 0 →
      (∀ l ∈ activeLanes h.x, ∀ p ∈ pieces 3 (addr l) n, near p.1 ∧ s.ownShelf h.b p.1 = none) →
      exec (.stg h.b h.w) s = .next (issued (sent (((activeLanes h.x).flatMap fun l => (pieces 3 (addr l) n).map fun p =>
          (p.1, (List.range p.2).map fun i => some ((byteNo (h.x.val (wD h.w) ((n + 3) / 4) l) (p.1 - addr l + i)).zeroExtend 9))).zipIdx.map
            fun e => req e.2 e.1.1 (.store e.1.2))) h h.x (h.x.pc + 8))) ∧
    (Issues s h [0x85] (amLegal true) → runLanes h.x (wD h.w) ≠ [] →
      (∀ l ∈ runLanes h.x (wD h.w), near (addr l) ∧ s.onePlace h.b.t (addr l) n = true ∧
        ∀ p ∈ pieces 2 (addr l) n, s.cached h.b.t h.b.c (p.1 / 128) = none) →
      exec (.atom h.b h.w) s = .next (issued (sent ((runLanes h.x (wD h.w)).zipIdx.map fun l => req l.2 (addr l.1)
          (.atomic (fld h.w 40 38) (fld h.w 37 36) n (BitVec.ofNat 64 (atomicOperands h l.1).1) (BitVec.ofNat 64 (atomicOperands h l.1).2))))
        h waiting h.x.pc))) ∧
  (∀ (s : State) (h : Th) (r : Req),
    let n := accessBytes h
    let rs := s.reqs.filter fun q => decide (q.owner = .bunch (bkey h.b)) && q.op.blocks
    let addr (l : Nat) : Nat := (BitVec.ofNat 64 (h.x.val (wA h.w) 2 l) + (BitVec.ofNat 20 (fld h.w 63 44)).signExtend 64).toNat
    let gone : State := { s with reqs := s.reqs.filter fun q => !(decide (q.owner = .bunch (bkey h.b)) && q.op.blocks) }
    h.x = s.bunch (bkey h.b) → (s.clu h.b.t h.b.c).team = some h.tm → h.x.inst = some h.w → r ∈ rs → r.stage = .done →
    (∀ q ∈ s.reqs, q.id = r.id → q = r) → (∀ q ∈ rs, q ≠ r → q.stage = .back) → (∀ q ∈ rs, q.status = 0) →
    (wOpc h.w = 0x82 → ldLegal true h = true → h.tm.cacheKib = 0 →
      (∀ l ∈ runLanes h.x (wD h.w), addr l + n ≤ 2 ^ 64 ∧ ∀ i, i < n → s.ownShelf h.b (addr l + i) = none ∧
        ∃ v, cameBack rs (addr l + i) = some v ∧ isBad v = false) →
      ∃ y, exec (.globalAccessReturn r.id) s = .next (gone.setBunch (bkey h.b) { y with pc := h.x.pc + 8 }) ∧
        Writes { h.x with run := .ready, inst := none } y (wD h.w) ((n + 3) / 4) fun l =>
          loaded h ((List.range n).map fun i => (((cameBack rs (addr l + i)).getD 0#9).toNat % 256) * 256 ^ i).sum) ∧
    (wOpc h.w = 0x85 → amLegal true h = true → (runLanes h.x (wD h.w)).length = rs.length → (∀ q ∈ rs, ∀ v ∈ q.data, isBad v = false) →
      ∃ y, exec (.globalAccessReturn r.id) s = .next (gone.setBunch (bkey h.b) { y with pc := h.x.pc + 8 }) ∧
        Writes { h.x with run := .ready, inst := none } y (wD h.w) ((n + 3) / 4) fun l =>
          match ((runLanes h.x (wD h.w)).zip rs).lookup l with
          | some q => ((List.range q.data.length).map fun i => ((q.data.getD i 0#9).toNat % 256) * 256 ^ i).sum
          | none => 0))

/-- SET, ARRIVE, WAIT.PH and WAIT.GE (R156 to R159, R199), WAIT_RELEASE and the repeated completion of an auto-reset tally: SET
and ARRIVE act and the tally then completes once if it is due; a wait whose condition holds goes on, and another holds the
bunch at the instruction until it does; a tally outside the team's window raises TALLY_RANGE. A bunch that waits on a tally
goes on at the instruction after its wait once the condition holds (R158), and not before; an armed auto-reset tally still at
or above its target completes again (R158). -/
def Obligations.TalliesCountAndRelease : Prop :=
  (∀ (s : State) (h : Th),
    let n := fld h.w 17 11
    let y := s.tally h.b.t h.b.c n
    let next : W32 := h.x.pc + 8
    let range : State := s.bunchFault h.b ⟨.tallyRange, 0, 0⟩
    (Issues s h [0xC0] (sLegal true true true (atMost 1) any_ any_) →
      (windowed h n → ∃ s1, exec (.setT h.b h.w) s = .next (issued s1 h h.x next) ∧
        TallyBecomes s s1 h.b.t h.b.c n (settled { y with count := h.x.uni (fld h.w 24 18), target := plusImm h (fld h.w 31 25)
                                                          auto := bit h.w 8, done := false })) ∧
      (¬ windowed h n → exec (.setT h.b h.w) s = .next range)) ∧
    (Issues s h [0xC1] (sLegal true false true zero_ any_ any_) →
      (windowed h n → ∃ s1, exec (.arrive h.b h.w) s = .next (issued s1 h h.x next) ∧
        TallyBecomes s s1 h.b.t h.b.c n (settled (added y (plusImm h (fld h.w 24 18)).toNat))) ∧
      (¬ windowed h n → exec (.arrive h.b h.w) s = .next range)) ∧
    (Issues s h [0xC2] (sLegal false false false (atMost 1) any_ zero_) →
      (windowed h n → exec (.waitPh h.b h.w) s = .next (if y.phase = bit h.w 8 then issued s h h.x next
        else issued s h { h.x with run := .waitPh n (bit h.w 8) } h.x.pc)) ∧
      (¬ windowed h n → exec (.waitPh h.b h.w) s = .next range)) ∧
    (Issues s h [0xC3] (sLegal true false true zero_ any_ any_) →
      (windowed h n → exec (.waitGe h.b h.w) s = .next (if (plusImm h (fld h.w 24 18)).toNat ≤ y.count.toNat then issued s h h.x next
        else issued s h { h.x with run := .waitGe n (plusImm h (fld h.w 24 18)) } h.x.pc)) ∧
      (¬ windowed h n → exec (.waitGe h.b h.w) s = .next range))) ∧
  ((∀ (s : State) (b : BunchRef) (tm : Team), (s.clu b.t b.c).team = some tm → tm.stopped = false →
    let x := s.bunch (bkey b)
    let holds : Prop := match x.run with
      | .waitPh n p => (s.tally b.t b.c n).phase = p
      | .waitGe n v => v.toNat ≤ (s.tally b.t b.c n).count.toNat
      | _ => False
    (holds → exec (.waitRelease b) s = .next (s.setBunch (bkey b) { x with run := .ready, pc := x.pc + 8 })) ∧
    (¬ holds → exec (.waitRelease b) s = .next s)) ∧
  (∀ (s : State) (r : CluRef) (n : Fin 128), (s.tally r.t r.c n).auto = true →
    ∃ s1, exec (.tallyRepeatComplete r n) s = .next s1 ∧ TallyBecomes s s1 r.t r.c n (settled (s.tally r.t r.c n))))

/-- R157: a tally is armed while its target is not zero and done is 0; an armed one whose count is at least its target completes:
its phase inverts, and with auto-reset the count drops by the target and it stays armed, without it done is set and it
completes no more until the next SET. One with target 0 never completes, and its count still serves WAIT.GE. Stated for SET,
ARRIVE and WAIT.GE of a bunch and for the SET of a register write. -/
def Obligations.ArmedTalliesComplete : Prop :=
  let completes (old new : Tally) (count : Nat) : Prop :=
    if old.target ≠ 0#32 ∧ old.done = false ∧ old.target.toNat ≤ count then
      new.phase = !old.phase ∧ new.target = old.target ∧ (old.auto = true → new.count.toNat = count - old.target.toNat ∧ new.done = false) ∧
      (old.auto = false → new.count.toNat = count ∧ new.done = true)
    else new.phase = old.phase ∧ new.target = old.target ∧ new.count.toNat = count ∧ new.done = old.done
  (∀ (s : State) (h : Th),
    let n := fld h.w 17 11
    let y := s.tally h.b.t h.b.c n
    let k := (plusImm h (fld h.w 24 18)).toNat
    (Issues s h [0xC0] (sLegal true true true (atMost 1) any_ any_) → windowed h n → ∃ u, exec (.setT h.b h.w) s = .next u ∧
      completes { y with count := h.x.uni (fld h.w 24 18), target := plusImm h (fld h.w 31 25), auto := bit h.w 8, done := false }
        (u.tally h.b.t h.b.c n) (h.x.uni (fld h.w 24 18)).toNat) ∧
    (Issues s h [0xC1] (sLegal true false true zero_ any_ any_) → windowed h n → ∃ u, exec (.arrive h.b h.w) s = .next u ∧
      completes y (u.tally h.b.t h.b.c n) (min 0xFFFFFFFF (y.count.toNat + k))) ∧
    (Issues s h [0xC3] (sLegal true false true zero_ any_ any_) → windowed h n → y.target = 0#32 → k ≤ y.count.toNat →
      ∃ u, exec (.waitGe h.b h.w) s = .next u ∧ (u.bunch (bkey h.b)).pc = h.x.pc + 8)) ∧
  (∀ (s : State) (r : CluRef) (n : Fin 128) (v : W64), s.mmioOpen r.t (r.c * 0x100000) = true →
    ∃ u, exec (.tallyRegisterWrite r n (.val v)) s = .next u ∧
      completes { s.tally r.t r.c n with count := BitVec.ofNat 32 v.toNat, target := BitVec.ofNat 32 (v.toNat / 2 ^ 32), done := false }
        (u.tally r.t r.c n) (v.toNat % 2 ^ 32))

/-- BAR (R161 to R163): with m0 unlike the live mask and without .partial it raises BARRIER_PARTIAL; otherwise the bunch arrives
and waits. The last arrival among the bunches that have not retired releases every bunch of the barrier past its BAR, and the
barrier is empty again. A barrier whose timer has run out raises BARRIER_TIMEOUT in the bunches that wait at it and is empty.
FENCE and TFENCE (R171, R202, R203, R292): a FENCE flushes and empties the cluster's shelf cache; with nothing of the bunch
in flight and no line to write back it goes on at once, and FENCE.FAR then leaves no far line in any tower; while an access
of the bunch is in flight the bunch waits at it. TFENCE binds the bunch to the active seed-table bank and changes nothing
else. -/
def Obligations.BarriersAndFences : Prop :=
  ((∀ (s : State) (h : Th), Issues s h [0xC4] (sLegal false false false (atMost 1) (atMost 15) zero_) →
    let n := fld h.w 17 11
    let ids := SMap.get [] (s.clu h.b.t h.b.c).bars n
    let left := h.tm.team - h.tm.retired.length
    (∀ m, m ≠ n → (SMap.get [] (s.clu h.b.t h.b.c).bars m).length ≠ left ∨ SMap.get [] (s.clu h.b.t h.b.c).bars m = []) →
    ((h.x.m0 ≠ h.x.live ∧ bit h.w 8 = false → (ids.length ≠ left ∨ ids = []) →
      exec (.bar h.b h.w) s = .next (s.bunchFault h.b ⟨.barrierPartial, 0, 0⟩)) ∧
    (h.x.m0 = h.x.live ∨ bit h.w 8 = true → ids.length + 1 ≠ left → ∃ t, exec (.bar h.b h.w) s = .next t ∧
      t.bunch (bkey h.b) = { h.x with run := .waitBar n } ∧ (∀ k, k ≠ bkey h.b → t.bunch k = s.bunch k) ∧
      SMap.get [] (t.clu h.b.t h.b.c).bars n = ids ++ [h.x.idx]) ∧
    (h.x.m0 = h.x.live ∨ bit h.w 8 = true → ids.length + 1 = left → (ids ++ [h.x.idx]).Nodup → (∀ i ∈ ids, i < 64) →
      h.x.idx < 64 → slotOf h.b.t h.b.c h.x.idx = bkey h.b → ∃ t, exec (.bar h.b h.w) s = .next t ∧
      t.bunch (bkey h.b) = { h.x with run := .ready, pc := h.x.pc + 8 } ∧
      (∀ i ∈ ids, i ≠ h.x.idx → t.bunch (slotOf h.b.t h.b.c i) =
        { s.bunch (slotOf h.b.t h.b.c i) with run := .ready, pc := (s.bunch (slotOf h.b.t h.b.c i)).pc + 8 }) ∧
      SMap.get [] (t.clu h.b.t h.b.c).bars n = []))) ∧
  (∀ (s : State) (r : CluRef) (n : Fin 16) (tm : Team), (s.clu r.t r.c).team = some tm → tm.stopped = false →
    let ids := SMap.get [] (s.clu r.t r.c).bars n
    ids ≠ [] → (∀ i ∈ ids, i < 64) →
    tm.barTimeout * 1024 ≤ 6 * (s.stamp r.t + 1 - SMap.get 0 (s.clu r.t r.c).barSince n) →
    ∃ t, exec (.barrierTimeout r n) s = .next t ∧ SMap.get [] (t.clu r.t r.c).bars n = [] ∧
      (∀ i ∈ ids, (t.bunch (slotOf r.t r.c i)).run = .faulted ∧ (t.bunch (slotOf r.t r.c i)).pc = (s.bunch (slotOf r.t r.c i)).pc) ∧
      ∃ tm', (t.clu r.t r.c).team = some tm' ∧ (tm'.stopped = true ∨ ∀ i ∈ ids, (s.bunch (slotOf r.t r.c i)).launch ≠ tm.launch))) ∧
  (∀ (s : State) (h : Th),
    let key := bkey h.b
    let clean : Prop := ∀ l ∈ (s.clu h.b.t h.b.c).cache, l.dirty = 0#128
    let emptied : State := s.modClu h.b.t h.b.c fun x => { x with cache := [] }
    let quiet : Prop := ∀ r ∈ s.reqs, (∀ l, r.owner ≠ .writeBack h.b.t h.b.c l) ∧ r.owner ≠ .bunch key
    (Issues s h [0xC9] (sLegal false false false (atMost 4) zero_ zero_) → clean → quiet →
      (fld h.w 10 8 ≠ 4 → exec (.fence h.b h.w) s = .next (issued emptied h h.x (h.x.pc + 8))) ∧
      (fld h.w 10 8 = 4 → ∃ s1, exec (.fence h.b h.w) s = .next (issued s1 h h.x (h.x.pc + 8)) ∧
        (∀ e ∈ s1.mem.pantry, e.1 / 2 ^ 25 < 4 → ∀ l, e.2 = some l → l.far = none) ∧
        (∀ e ∈ s.mem.pantry, (∀ l, e.2 = some l → l.far = none) → e ∈ s1.mem.pantry) ∧
        { s1 with mem := { s1.mem with pantry := s.mem.pantry, fills := s.mem.fills } } = emptied)) ∧
    (Issues s h [0xC9] (sLegal false false false (atMost 4) zero_ zero_) → clean → (∃ r ∈ s.reqs, r.owner = .bunch key) →
      exec (.fence h.b h.w) s = .next (issued emptied h { h.x with run := .waitAccess, inst := some h.w } h.x.pc)) ∧
    (Issues s h [0xCA] (sLegal false false false zero_ zero_ zero_) →
      exec (.tfence h.b h.w) s = .next (issued s h { h.x with bank := (s.clu h.b.t h.b.c).active } (h.x.pc + 8))))

/-- MXD, HXF, QCV and NRM (R103, R165 to R167, R201): where every check passes and the queue can take every job, the jobs enter
it in the order of their descriptors, each with a copy of its descriptor; while it cannot, the bunch stalls and nothing
changes. An MXD whose m0 differs from the live mask raises MATRIX_PARTIAL_MASK before any other check. -/
def Obligations.EngineInstructionsEnqueueJobs : Prop :=
  ∀ (s : State) (h : Th),
    let cl := s.clu h.b.t h.b.c
    let te := s.te h.b.t h.b.c h.b.e
    let n := fld h.w 63 32
    let ds := descList s h
    let eng (d : Nat × List W64) : EngJob := ⟨d.2, d.1, h.x.launch, h.b.e⟩
    let esc (d : List W64) : Bool := s.jobEsc h.b.t d
    (Issues s h [0xC5] eLegal → h.x.m0 ≠ h.x.live → exec (.mxd h.b h.w) s = .next (s.bunchFault h.b ⟨.matrixPartialMask, 0, 0⟩)) ∧
    (Issues s h [0xC5] eLegal → h.x.m0 = h.x.live →
      EngineChecks s h (fun d => descOk d (esc d)) dTally (fun d lim => descInside d (esc d) lim) →
      (cl.arr.queue.length + cl.arr.runs + n ≤ 32 → ∃ s1, ShelfWasRead s s1 h.b.t h.b.c ∧
        exec (.mxd h.b h.w) s = .next (issued (s1.modArr h.b.t h.b.c fun a =>
          { a with queue := a.queue ++ ds.map fun d => ⟨d.2, d.1, h.x.launch, esc d.2⟩ }) h h.x (h.x.pc + 8))) ∧
      (32 < cl.arr.queue.length + cl.arr.runs + n → exec (.mxd h.b h.w) s = .next s)) ∧
    (Issues s h [0xC6] eLegal → EngineChecks s h (fun d => s.hxfOk h.b.t d) xTally hxfInside →
      (cl.hatchQ.length + cl.hatchRun.length + n ≤ 32 → ∃ s1, ShelfWasRead s s1 h.b.t h.b.c ∧
        exec (.hxf h.b h.w) s = .next (issued (s1.modClu h.b.t h.b.c fun y => { y with hatchQ := y.hatchQ ++ ds.map eng }) h h.x (h.x.pc + 8))) ∧
      (32 < cl.hatchQ.length + cl.hatchRun.length + n → exec (.hxf h.b h.w) s = .next s)) ∧
    (Issues s h [0xC7] eLegal →
      EngineChecks s h (fun d => qcvOk d (s.qEsc h.b.t d)) qTally (fun d lim => qcvInside d (s.qEsc h.b.t d) lim) →
      (te.qcv.length + (if te.qcvRun.isSome then 1 else 0) + n ≤ 16 → ∃ s1, ShelfWasRead s s1 h.b.t h.b.c ∧
        exec (.qcv h.b h.w) s =
          .next (issued (s1.modTe h.b.t h.b.c h.b.e fun y => { y with qcv := y.qcv ++ ds.map eng }) h h.x (h.x.pc + 8))) ∧
      (16 < te.qcv.length + (if te.qcvRun.isSome then 1 else 0) + n → exec (.qcv h.b h.w) s = .next s)) ∧
    (Issues s h [0xC8] eLegal → EngineChecks s h nrmOk nTally nrmInside →
      (cl.nrmQ.length + (if cl.nrmRun.isSome then 1 else 0) + n ≤ 16 → ∃ s1, ShelfWasRead s s1 h.b.t h.b.c ∧
        exec (.nrm h.b h.w) s = .next (issued (s1.modClu h.b.t h.b.c fun y => { y with nrmQ := y.nrmQ ++ ds.map eng }) h h.x (h.x.pc + 8))) ∧
      (16 < cl.nrmQ.length + (if cl.nrmRun.isSome then 1 else 0) + n → exec (.nrm h.b h.w) s = .next s))

/-- A thread instruction whose word fails a decode check raises ILLEGAL_INSTRUCTION before it has any effect (R182); one that
cannot be fetched raises what R181 says, a held one after 10 ms (2,000,000 stamps); a bunch that is not ready, or whose launch
is stopped, executes nothing. A bunch fault (R175, R176): the bunch stops with its pc at the instruction and nothing else of it
changed; the first fault of its TE is recorded with its code, slot, lane, pc and address, and a later one sets more; every
team of its launch stops; the launch keeps the fault with the earliest stamp, a tie going to the lowest tower, cluster, TE
and slot. -/
def Obligations.IllegalWordsAndBunchFaults : Prop :=
  (∀ (s : State) (h : Th) (i : Instr) (own : List Nat) (legal : Th → Bool), (i, own, legal) ∈ threadOps h.b h.w →
    h.x = s.bunch (bkey h.b) → (s.clu h.b.t h.b.c).team = some h.tm →
    (s.canIssue h.b = false → s.fetchHeld h.b = false → exec i s = .next s) ∧
    (s.fetchHeld h.b = true →
      let k := h.b.e.val * 16 + h.b.k.val
      let since := SMap.get 0 (s.clu h.b.t h.b.c).fetchAt k
      (since = 0 → ∃ u, exec i s = .next u ∧ SMap.get 0 (u.clu h.b.t h.b.c).fetchAt k = s.stamp h.b.t + 1 ∧ { u with clusters := s.clusters } = s ∧
        { (u.clu h.b.t h.b.c) with fetchAt := (s.clu h.b.t h.b.c).fetchAt } = s.clu h.b.t h.b.c) ∧
      (0 < since → s.stamp h.b.t + 1 < since + 2000000 → exec i s = .next s) ∧
      (0 < since → since + 2000000 ≤ s.stamp h.b.t + 1 →
        exec i s = .next (s.bunchFault h.b ⟨.uncorrectableData, 0, h.tm.codeBase + h.x.pc.toNat⟩))) ∧
    (s.canIssue h.b = true →
      (h.tm.codeLen ≤ h.x.pc.toNat → exec i s = .next (s.bunchFault h.b ⟨.illegalInstruction, 0, 0⟩)) ∧
      (h.x.pc.toNat < h.tm.codeLen → s.codeBad h.b.t (BitVec.ofNat 64 (h.tm.codeBase + h.x.pc.toNat)) = true →
        ∃ a, exec i s = .next (s.bunchFault h.b ⟨.uncorrectableData, 0, a⟩) ∧ a % 2 ^ 64 = (h.tm.codeBase + h.x.pc.toNat) % 2 ^ 64) ∧
      (s.fetchFault h = none → own.contains (wOpc h.w) = true → legal h = false →
        exec i s = .next (s.bunchFault h.b ⟨.illegalInstruction, 0, 0⟩)) ∧
      (s.fetchFault h = none → fld h.w 7 0 ∈ [0x07, 0x18, 0x1F, 0x24, 0x27, 0x2B, 0x2F, 0x31, 0x34, 0x41, 0x5F, 0x6B, 0x86, 0x9F, 0xAD, 0xBF, 0xCB, 0xE0, 0xFF] →
        exec i s = .next (s.bunchFault h.b ⟨.illegalInstruction, 0, 0⟩)))) ∧
  (∀ (s : State) (b : BunchRef) (i : FaultInfo),
    let x := s.bunch (bkey b)
    let t := s.bunchFault b i
    let f : Loc := ⟨.teFault, b.t, b.c, b.e, 0⟩
    let d := i.f.code + b.c * 2 ^ 8 + b.t * 2 ^ 15 + b.e * 2 ^ 17 + b.k * 2 ^ 19
    let place (d : Nat) : Nat := bitsOf d 16 15 * 8192 + bitsOf d 14 8 * 64 + bitsOf d 18 17 * 16 + bitsOf d 22 19
    t.bunch (bkey b) = { x with run := .faulted } ∧ (∀ k, k ≠ bkey b → t.bunch k = s.bunch k) ∧
    (bit (s.reg f) 63 = true → bit (t.reg f) 62 = true ∧ fld (t.reg f) 61 0 = fld (s.reg f) 61 0 ∧ bit (t.reg f) 63 = true) ∧
    (bit (s.reg f) 63 = false → i.lane < 64 →
      bit (t.reg f) 63 = true ∧ fld (t.reg f) 61 54 = i.f.code ∧ fld (t.reg f) 53 50 = b.k ∧ fld (t.reg f) 49 44 = i.lane ∧
      fld (t.reg f) 43 32 = 0 ∧ fld (t.reg f) 31 0 = x.pc.toNat ∧ bit (t.reg f) 62 = bit (s.reg f) 62 ∧
      t.reg ⟨.teFaultAddr, b.t, b.c, b.e, 0⟩ = BitVec.ofNat 64 i.addr) ∧
    (∀ j tm, (SMap.get Cluster.init s.clusters j).team = some tm → (SMap.get Cluster.init t.clusters j).team =
      some (if tm.launch = x.launch then { tm with stopped := true } else tm)) ∧
    t.mod.launches = s.mod.launches.map fun l =>
      if l.id = x.launch then
        (match l.fault with
         | none => { l with fault := some (s.stamp b.t, d) }
         | some (at_, d0) => if s.stamp b.t < at_ ∨ (s.stamp b.t = at_ ∧ place d < place d0) then { l with fault := some (s.stamp b.t, d) } else l)
      else l)

/-! ## Launches -/

/-- BUNCH_START (R143, R144, Table 05-3): a placed bunch of a running team starts with its live threads active, t0 and t1 the
thread indices, u0 to u3 the bunch, cluster, tower and index, the arguments from u4 on, every other register zero, an empty
mask stack, and the cluster's active table bank. The end of a LAUNCH (R145, R175, R176, R292): once its teams have ended, its
jobs have arrived and its accesses are back, the command completes with OK, or OK_CLAMPED where it was clamped; a launch with
a fault waits for its accesses, takes its teams off their clusters, and, once its jobs have arrived, completes with
FAULT_BUNCH and the detail word, and the event log takes it. In both cases the towers it ran on hold no far line afterwards,
and the launch is no longer known. -/
def Obligations.BunchesStartAndLaunchesEnd : Prop :=
  (∀ (s : State) (b : BunchRef) (tm : Team), (s.clu b.t b.c).team = some tm → tm.stopped = false → (s.bunch (bkey b)).run = .placed →
    tm.args.length ≤ 16 → ∃ y, exec (.bunchStart b) s = .next (s.setBunch (bkey b) y) ∧
      let x := s.bunch (bkey b)
      y.run = .ready ∧ y.launch = x.launch ∧ y.idx = x.idx ∧ y.pc = x.pc ∧ y.stack = [] ∧ y.spilled = 0 ∧ y.inst = none ∧
      y.bank = (s.clu b.t b.c).active ∧ y.m0 = y.live ∧
      (∀ j, j < 64 → y.live.getLsbD j = decide (64 * x.idx + j < tm.threads)) ∧
      (∀ j, j < 64 → y.word 0 0 j = BitVec.ofNat 32 (64 * x.idx + j) ∧
        y.word 1 0 j = BitVec.ofNat 32 (tm.index * tm.threads + (64 * x.idx + j)) ∧ ∀ k, 2 ≤ k → k < 255 → y.word k 0 j = 0#32) ∧
      y.word 256 0 0 = BitVec.ofNat 32 x.idx ∧ y.word 257 0 0 = BitVec.ofNat 32 b.c ∧ y.word 258 0 0 = BitVec.ofNat 32 b.t ∧
      y.word 259 0 0 = BitVec.ofNat 32 tm.index ∧ (∀ k, k < 60 → y.word (260 + k) 0 0 = tm.args.getD k 0#32) ∧
      ∀ k, 1 ≤ k → k ≤ 7 → y.mask k = 0#64) ∧
  (∀ (s : State) (l : Launch) (q : Nat) (k : Pkt), s.launch? l.id = some l → s.running? l.id = some (q, k) → k.id = l.id →
    k.status = okStatus k.clamp → k.detail = 0 → l.status = 0 → (∀ c ∈ l.clusters, c < 512) →
    s.jobsLeft l.id = false → s.backsLeft l.id = false → s.issuedLeft l = false →
    let ended (t : State) (st detail : Nat) : Prop :=
      (∀ m ∈ t.mod.launches, m.id ≠ l.id) ∧ (∀ m ∈ s.mod.launches, m.id ≠ l.id → m ∈ t.mod.launches) ∧
      (t.queue q).running = (s.queue q).running.filter (fun x => decide (x.id ≠ l.id)) ∧
      (¬ (hQuiet k.words = true ∧ st = stOK ∧ k.reply = none) →
        ∃ e, (t.queue q).done = (s.queue q).done ++ [e] ∧ e.tag = hTag k.words ∧ e.status = st ∧ e.detail = detail ∧ e.start = k.start) ∧
      ∀ c ∈ l.clusters, ∀ e ∈ t.mem.pantry, e.1 / 2 ^ 25 = c / 128 → ∀ p, e.2 = some p → p.far = none
    (l.fault = none → s.teamsLeft l.id = false →
      ∃ t, exec (.launchEnd l.id) s = .next t ∧ ended t (okStatus k.clamp) 0) ∧
    (∀ at_ d, l.fault = some (at_, d) → (∀ e ∈ s.clusters, ∀ tm, e.2.team = some tm → tm.launch ≠ l.id) →
      (∀ e ∈ s.clusters, ∀ v ∈ e.2.saved, v.team.launch ≠ l.id) →
      ∃ t, exec (.launchFaultStop l.id) s = .next t ∧ ended t stFaultBunch d ∧
        ∃ e, t.mod.log.getLast? = some e ∧ e.code = 0x0030 ∧ e.detail = [BitVec.ofNat 32 l.q, BitVec.ofNat 32 d]))

/-- TEAM_SUSPEND and TEAM_RESUME (R177, R178): a team whose bunches wait for no access leaves its cluster with its bunches, its
barriers' timers and the named shelf range saved, a bunch at a WAIT or BAR being ready to execute it again; its resumption
gives every bunch, the shelf range and the team back. Tallies and jobs stay as they are. SHELF_CACHE_WRITEBACK_DROP (R171): a
write-back in flight to an unmapped or lost home, or held for 10 ms (2,000,000 stamps), is dropped; the cluster's first such
failure is recorded in CLU_GLOBAL_ERR with te 0xF, and the command it worked for is told. -/
def Obligations.SuspendedTeamsAndFailedWriteBacks : Prop :=
  (∀ (s : State) (r : CluRef) (tm : Team) (a n : Nat), (s.clu r.t r.c).team = some tm → tm.stopped = false →
    (∀ k, k < 64 → (s.bunch (bunchKey r.t r.c (k / 16) (k % 16))).run ≠ .waitAccess) → a + n ≤ 2 ^ 20 →
    (∀ l ∈ (s.clu r.t r.c).cache, l.dirty = 0#128) → (∀ v ∈ (s.clu r.t r.c).saved, v.team.launch ≠ tm.launch) →
    (s.clu r.t r.c).absent = false → (s.clu r.t r.c).dom = .on →
    let key (k : Nat) : Nat := bunchKey r.t r.c (k / 16) (k % 16)
    let again (x : Bunch) : Bunch := match x.run with
      | .waitPh _ _ => { x with run := .ready }
      | .waitGe _ _ => { x with run := .ready }
      | .waitBar _ => { x with run := .ready }
      | _ => x
    ∃ t u, exec (.teamSuspend r a n) s = .next t ∧ exec (.teamResume r tm.launch) t = .next u ∧
      (t.clu r.t r.c).team = none ∧ (t.clu r.t r.c).cache = [] ∧ (∀ k, k < 64 → t.bunch (key k) = default) ∧
      (t.clu r.t r.c).tallies = (s.clu r.t r.c).tallies ∧ (t.clu r.t r.c).arr = (s.clu r.t r.c).arr ∧
      (u.clu r.t r.c).team = some tm ∧ (∀ k, k < 64 → u.bunch (key k) = again (s.bunch (key k))) ∧
      (u.clu r.t r.c).saved = (s.clu r.t r.c).saved ∧ (u.clu r.t r.c).bars = [] ∧
      (∀ off, a ≤ off → off < a + n → shelfByte u r.t r.c off = shelfByte s r.t r.c off) ∧
      (u.clu r.t r.c).tallies = (s.clu r.t r.c).tallies ∧ (u.clu r.t r.c).arr = (s.clu r.t r.c).arr) ∧
  (∀ (s : State) (r : CluRef) (line launch : Nat) (q : Req), s.reqs.filter (fun x => x.addr.toNat / 128 = line) = [q] →
    q.owner = .writeBack r.t r.c launch → q.stage = .issued → (∀ x ∈ s.reqs, x.id = q.id → x = q) →
    (∀ k, k < 64 → (s.bunch (bunchKey r.t r.c (k / 16) (k % 16))).inst = none) →
    let fails (st : Nat) : Prop := ∃ t, exec (.shelfCacheWritebackDrop r line) s = .next t ∧ q ∉ t.reqs ∧
      (∀ x ∈ s.reqs, x ≠ q → x ∈ t.reqs) ∧ t.mem = s.mem ∧
      (bit (s.reg ⟨.cluGlobalErr, r.t, r.c, 0, 0⟩) 63 = false →
        bit (t.reg ⟨.cluGlobalErr, r.t, r.c, 0, 0⟩) 63 = true ∧ fld (t.reg ⟨.cluGlobalErr, r.t, r.c, 0, 0⟩) 59 56 = 0xF ∧
        fld (t.reg ⟨.cluGlobalErr, r.t, r.c, 0, 0⟩) 62 60 = if st = stBadAddress then 1 else 2) ∧
      ∀ j k, k ∈ (s.queue j).running → k.id = launch → k.status = 0 → ∃ k' ∈ (t.queue j).running, k'.id = launch ∧ k'.status = st
    (s.home r.t q.addr = .unmapped → fails stBadAddress) ∧ (s.home r.t q.addr = .lost → fails stLost) ∧
    (∀ at_, s.home r.t q.addr = .held → q.held = some at_ → at_ + 2000000 ≤ s.stamp r.t → fails stLost))

/-! ## The array -/

/-- JOB_START (R97, R104, R105, R114): on an idle bin of a running cluster whose grant covers it, the first job of the bin
starts, if no job before it needs a reshape; the duty starts at 1 where the array is gated, resumes at the duty the ramp has
reached, and stays under the cluster's ceiling. Values that a commit request holds take effect first (R119). RESHAPE (R96,
R97): once every earlier job has completed, the array takes the configuration of the first queued job; its bins are gated,
and a bin for which no job waits gives back its grant. FILLER_WINDOW_EXPIRE, RAMP_DOWN_STEP, RAMP_UP_STEP and
ARRAY_POWER_COMMIT (R71, R113, R114, R119, R395, R398): filler turns into a ramp-down of sixteen steps, after which the bin
is gated and its grant given back; the duty rises by one sixteenth up to the ceiling; a commit makes the staged power fields
and seed active and reseeds the 512 drain lanes. -/
def Obligations.JobsStartAndArraysRamp : Prop :=
  (∀ (s : State) (r : CluRef) (bin : Fin 16) (pre post : List Job) (j : Job) (g : Grant),
    let a := (s.clu r.t r.c).arr
    let b := s.bin r.t r.c bin
    (s.clu r.t r.c).absent = false → (s.clu r.t r.c).dom = .on → b.run = none → a.queue = pre ++ j :: post →
    (∀ i ∈ pre, i.conf = (a.shape, a.binsLog2) ∧ dBin i.words ≠ bin) → j.conf = (a.shape, a.binsLog2) → dBin j.words = bin →
    s.held r.t (binReq r.c bin) = some g → g.req.domain.toNat = s.phys r.t r.c → s.jobCurrent j ≤ g.req.current.toNat →
    (s.flag arrCommitPending r.t r.c = false →
      ∃ t duty, exec (.jobStart r bin) s = .next t ∧ ArrayOnly s t r ∧ (t.clu r.t r.c).arr.queue = pre ++ post ∧
        (t.clu r.t r.c).arr.duty = duty ∧ duty ≤ s.ceiling r.t r.c ∧
        (b.mode = .gated → a.duty = 0 → duty = min (s.ceiling r.t r.c) 1) ∧
        (b.mode = .rampDown → b.step < 16 → 0 < a.duty → duty = min (s.ceiling r.t r.c) (min a.duty (16 - b.step))) ∧
        ((b.mode = .filler ∨ b.mode = .gated) → 0 < a.duty → duty = min (s.ceiling r.t r.c) a.duty) ∧
        t.bin r.t r.c bin = ⟨some ⟨j, 0, false⟩, if duty < min 16 (s.ceiling r.t r.c) then .rampUp else .run, 0,
          jobClass j.words j.esc, some j.owner⟩ ∧
        (∀ k, k ≠ bin.val → t.bin r.t r.c k = s.bin r.t r.c k) ∧
        { (t.clu r.t r.c).arr with queue := a.queue, duty := a.duty, bins := a.bins } = a) ∧
    (s.flag arrCommitPending r.t r.c = true →
      ∃ u, exec (.arrayPowerCommit r) s = .next u ∧ exec (.jobStart r bin) s = exec (.jobStart r bin) u)) ∧
  (∀ (s : State) (r : CluRef) (j : Job) (js : List Job),
    let a := (s.clu r.t r.c).arr
    a.queue = j :: js → j.conf ≠ (a.shape, a.binsLog2) →
    ((∃ b ∈ a.bins, b.2.run ≠ none) → exec (.reshape r) s = .next s) ∧
    ((∀ b ∈ a.bins, b.2.run = none) →
      ∃ t, exec (.reshape r) s = .next t ∧
        (t.clu r.t r.c).arr = { a with shape := dShape j.words, binsLog2 := dBinsLog2 j.words, bins := [] } ∧
        { t.clu r.t r.c with arr := a } = s.clu r.t r.c ∧
        GivenBack s t r.t (fun q => (List.range 16).any fun b => decide (q = binReq r.c b) && !(a.queue.any fun i => dBin i.words = b)) ∧
        (∀ k, k ≠ r.t.val → t.tower k = s.tower k) ∧ { t with clusters := s.clusters, towers := s.towers } = s)) ∧
  (∀ (s : State) (r : CluRef) (bin : Fin 16),
    let a := (s.clu r.t r.c).arr
    let b := s.bin r.t r.c bin
    (b.run = none → b.mode = .filler →
      ∃ t, exec (.fillerWindowExpire r bin) s = .next t ∧ ArrayOnly s t r ∧ t.bin r.t r.c bin = { b with mode := .rampDown, step := 1 } ∧
        (∀ k, k ≠ bin.val → t.bin r.t r.c k = s.bin r.t r.c k) ∧ { (t.clu r.t r.c).arr with bins := a.bins } = a) ∧
    (b.run = none → b.mode = .rampDown → b.step < 16 →
      ∃ t, exec (.rampDownStep r bin) s = .next t ∧ ArrayOnly s t r ∧ t.bin r.t r.c bin = { b with step := b.step + 1 } ∧
        (∀ k, k ≠ bin.val → t.bin r.t r.c k = s.bin r.t r.c k) ∧ { (t.clu r.t r.c).arr with bins := a.bins } = a) ∧
    (b.run = none → b.mode = .rampDown → 16 ≤ b.step →
      ∃ t, exec (.rampDownStep r bin) s = .next t ∧ t.bin r.t r.c bin = { b with mode := .gated, step := 0 } ∧
        (∀ k, k ≠ bin.val → t.bin r.t r.c k = s.bin r.t r.c k) ∧ s.reqs = t.reqs ∧
        GivenBack s t r.t (fun q => decide (q = binReq r.c bin)) ∧ t.regs = s.regs ∧ t.mem = s.mem) ∧
    ((∃ e ∈ a.bins, e.2.run ≠ none) → a.duty < min 16 (s.ceiling r.t r.c) →
      ∃ t, exec (.rampUpStep r) s = .next t ∧ ArrayOnly s t r ∧ (t.clu r.t r.c).arr.duty = a.duty + 1 ∧
        (∀ k, (t.bin r.t r.c k).run = (s.bin r.t r.c k).run ∧ (t.bin r.t r.c k).step = (s.bin r.t r.c k).step) ∧
        { (t.clu r.t r.c).arr with duty := a.duty, bins := a.bins } = a) ∧
    (s.flag arrCommitPending r.t r.c = true →
      ∃ t, exec (.arrayPowerCommit r) s = .next t ∧ t.flag arrCommitPending r.t r.c = false ∧
        ∀ i, i < 512 → laneGet (t.clu r.t r.c).arr.lanes i =
          (let v := BitVec.ofNat 32 (t.fget arrLfsrSeedSeed r.t r.c) + BitVec.ofNat 32 (i * 0x01010101); if v = 0#32 then 1#32 else v)))

/-- CHUNK_DRAIN (R92, R98): the running job's next chunk; each of its accumulators, with the C value already in the shelf added
and rounded where c_accum is set, is rounded to nearest even into the output format and stored in its place of C; no other
byte of any shelf changes, and the bin goes on to the next chunk. The arithmetic of a job whose operands are both integers in
their blocks (R88, R90): along K, sixteen products at a time, the exact sum of a K-block's products times the factor f,
rounded once into the F32 accumulator, whatever the order of the additions; a tile whose K ends inside a block gives the same
result as one padded with zero codes. JOB_COMPLETE (R106, R112, R113): a job whose chunks are all drained adds M·N·K to
ARR_MAC_CNT and performs one ARRIVE on its tally; its bin runs filler, or starts its ramp-down at once where filler_window is
0. -/
def Obligations.ChunksDrainAndJobsArrive : Prop :=
  (∀ (s : State) (r : CluRef) (bin : Fin 16) (x : RunJob) (fo : FFmt),
    let d := x.job.words
    let e := fo.width / 8
    let p := chunkAt d x.chunk
    let lanes (o : Opnd) (r0 rows : Nat) : List (List Elem) :=
      (List.range rows).map fun i => (List.range (dK d)).map fun k => (s.plane r.t r.c o).at (r0 + i) k
    let accs := chunkAccs (jobK (dA d x.job.esc) (dB d)) s.free (dK d) (lanes (dA d x.job.esc) p.2.2.1 p.2.2.2) (lanes (dB d) p.1 p.2.1)
    let place (i v : Nat) : Nat := dCaddr d + (p.2.2.1 + i) * dCstride d + (p.1 + v) * e
    (s.bin r.t r.c bin).run = some x → x.chunk < chunkCount d → descOk d x.job.esc = true → descInside d x.job.esc (2 ^ 20) = true →
    fmtOf (dCfmt d) = some fo → bit (s.reg ⟨.shfFlipmask, r.t, r.c, 0, 0⟩) 63 = false →
    ∃ t, exec (.chunkDrain r bin) s = .next t ∧
      (∃ o, (t.bin r.t r.c bin).run = some { x with chunk := x.chunk + 1, ovf := x.ovf || o }) ∧
      (dStoch d = false → ∀ i v acc, i < p.2.2.2 → v < p.2.1 → (accs.getD i [])[v]? = some acc →
        let out := if dAccum d then
            r32 (acc.1.add (match s.shelfNat r.t r.c (place i v) e with | some c => fo.decode c | none => .nan)) else acc.1
        shelfValue t r.t r.c (place i v) e = (fo.round .rne out).1) ∧
      ∀ k, (∀ i v b, i < p.2.2.2 → v < p.2.1 → b < e → k ≠ s.shelfKey r.t r.c (place i v + b)) → codeByte t k = codeByte s k) ∧
  (∀ (j : JobK) (seed : Nat) (acc : FVal),
    let whole (p : Elem × Elem) : Prop := p.1.kind = .grid ∧ p.2.kind = .grid ∧ ∃ u v : Int, p.1.x = .fin (decide (u < 0)) u ∧ p.2.x = .fin (decide (v < 0)) v
    let product (p : Elem × Elem) : ℚ := (p.1.x.mul p.2.x).toQ
    let factor (p : Elem × Elem) : FVal := r32 ((((p.1.b.mul p.2.b).mul (.fin false j.hA)).mul (.fin false j.hB)).mul j.t)
    j.bothFloat = false →
    (∀ blocks : List (List (Elem × Elem)), (∀ b ∈ blocks, b.length = 16 ∧ ∀ p ∈ b, whole p) →
      (∀ b ∈ blocks, ∀ p ∈ b, ∀ q ∈ b, p.1.b = q.1.b ∧ p.2.b = q.2.b) →
      dotAcc j (blocks.length + 1) seed blocks.flatten acc =
        blocks.foldl (fun a b => match b with | [] => a | p :: _ => applied (factor p) (b.map product).sum a) acc) ∧
    (∀ (f : Nat) (ps zs : List (Elem × Elem)), ps ≠ [] → ps.length + zs.length = 16 → (∀ p ∈ ps, whole p) → (∀ p ∈ zs, whole p ∧ product p = 0) →
      (∀ p ∈ ps ++ zs, ∀ q ∈ ps ++ zs, p.1.b = q.1.b ∧ p.2.b = q.2.b) →
      dotAcc j (f + 2) seed (ps ++ zs) acc = dotAcc j (f + 2) seed ps acc)) ∧
  (∀ (s : State) (r : CluRef) (bin : Fin 16) (x : RunJob),
    let d := x.job.words
    let y := s.tally r.t r.c (dTally d)
    (s.bin r.t r.c bin).run = some x → chunkCount d ≤ x.chunk →
    ∃ t, exec (.jobComplete r bin) s = .next t ∧ t.tally r.t r.c (dTally d) = settled (added y 1) ∧
      (∀ n, n ≠ dTally d → t.tally r.t r.c n = s.tally r.t r.c n) ∧
      (t.bin r.t r.c bin).run = none ∧
      (if s.fget arrPowerFillerWindow r.t r.c = 0 then (t.bin r.t r.c bin).mode = .rampDown ∧ (t.bin r.t r.c bin).step = 1
       else (t.bin r.t r.c bin).mode = .filler ∧ (t.bin r.t r.c bin).step = 0) ∧
      (∀ k, k ≠ bin.val → t.bin r.t r.c k = s.bin r.t r.c k) ∧ (t.clu r.t r.c).arr.queue = (s.clu r.t r.c).arr.queue ∧
      (t.reg ⟨.arrMacCnt, r.t, r.c, 0, 0⟩).toNat = min (2 ^ 64 - 1) ((s.reg ⟨.arrMacCnt, r.t, r.c, 0, 0⟩).toNat + dM d * dN d * dK d) ∧
      t.mem = s.mem)

/-! ## Number formats and engines -/

/-- R61: a Q8 element is a two's-complement byte, each of the 256 codes a value on read, −128 among them; quantising writes only
−127 to +127, whatever the value, the scale and the rounding. -/
def Obligations.Q8ElementsAreTwosComplement : Prop :=
  (∀ c, c < 256 → codeVal 5 c = ((BitVec.ofNat 8 c).toInt : ℚ)) ∧ codeVal 5 0x80 = -128 ∧
  ∀ (m : Rnd) (x : FVal) (ts : ℚ), 0 < ts → ∃ n : Int, -127 ≤ n ∧ n ≤ 127 ∧ (quantQ8 m x ts).1 = (BitVec.ofInt 8 n).toNat

/-- Stored codes (R57, R59, R61 to R64, Tables 02-4 and 02-5): the values of the element codes of Q8, F4, Q4 and Q2 and of the
five trits of a T byte below 243, the block scales, and what quantising to Q8 writes: the nearest integer, never −128,
clipped and counted beyond ±127. QCV_JOB_START and QCV_JOB_COMPLETE (R205 to R208): a TE's converter takes its oldest job
once it is idle. Dequantising writes each element's value rounded to nearest even into the destination format, and no other
shelf byte; quantising to Q8 writes each element's code. At its completion a job that wrote sprouts leaves the end of its
stream in the descriptor, and then arrives on its tally once. -/
def Obligations.StoredCodesAndConverters : Prop :=
  ((∀ c, c < 256 → codeVal 5 c = ((BitVec.ofNat 8 c).toInt : ℚ)) ∧
  (∀ c, c < 8 → codeVal 6 c = [0, 1 / 2, 1, 3 / 2, 2, 3, 4, 6].getD c 0 ∧ codeVal 6 (c + 8) = -codeVal 6 c) ∧
  (∀ c, c < 16 → codeVal 7 c = ((BitVec.ofNat 4 c).toInt : ℚ)) ∧
  (∀ c, c < 4 → codeVal 8 c = (c : ℚ) - 3 / 2) ∧
  (∀ t : List Nat, t.length = 5 → (∀ d ∈ t, d < 3) → ∀ i, i < 5 →
    codeVal 9 (tritOf ((t.zipIdx.map fun d => d.1 * 3 ^ d.2).sum) i) = (t.getD i 0 : ℚ) - 1) ∧
  (∀ e, e < 255 → scaleVal 6 e = .fin false ((2 : ℚ) ^ ((e : Int) - 127))) ∧ scaleVal 6 255 = .nan ∧
  scaleVal 7 0x7F = .nan ∧ scaleVal 7 0xFF = .nan ∧
  ∀ (neg : Bool) (q ts : ℚ), 0 < ts → neg = decide (q < 0) →
    ∃ n : Int, -127 ≤ n ∧ n ≤ 127 ∧ (quantQ8 .rne (.fin neg q) ts).1 = (BitVec.ofInt 8 n).toNat ∧ (quantQ8 .rne (.fin neg q) ts).2.1 = n ∧
      (|q / ts| ≤ 127 → |q / ts - n| ≤ 1 / 2) ∧ (128 ≤ |q / ts| → (quantQ8 .rne (.fin neg q) ts).2.2 = true ∧ |n| = 127)) ∧
  (∀ (s : State) (r : CluRef) (e : Fin 4) (j : EngJob) (rest : List EngJob),
    let d := j.words
    let esc := s.qEsc r.t d
    let x (i c : Nat) : Elem := (s.plane r.t r.c (qFrom d esc)).at i c
    let at_ (i c n : Nat) : Nat := (qTo d esc).elem + i * (qTo d esc).stride + c * n
    (bit (s.reg ⟨.shfFlipmask, r.t, r.c, 0, 0⟩) 63 = false → qcvOk d esc = true → qcvInside d esc (2 ^ 20) = true →
      (s.te r.t r.c e).qcvRun = none → (s.te r.t r.c e).qcv = j :: rest → (s.clu r.t r.c).dom = .on →
      (∀ fo, qDeq d = true → qStoch d = false → fmtOf (qDst d) = some fo →
        ∃ t, exec (.qcvJobStart r e) s = .next t ∧ t.te r.t r.c e = { s.te r.t r.c e with qcv := rest, qcvRun := some j } ∧
          (∀ i c, i < qRows d → c < qN d → shelfValue t r.t r.c (at_ i c (fo.width / 8)) (fo.width / 8) =
            (fo.round .rne ((x i c).value (qScale d esc))).1) ∧
          ∀ k, (∀ i c b, i < qRows d → c < qN d → b < fo.width / 8 → k ≠ s.shelfKey r.t r.c (at_ i c (fo.width / 8) + b)) →
            codeByte t k = codeByte s k) ∧
      (qQuant d = true →
        ∃ t run, exec (.qcvJobStart r e) s = .next t ∧ (t.te r.t r.c e).qcv = rest ∧ (t.te r.t r.c e).qcvRun = some run ∧
          run.off = j.off ∧ run.owner = j.owner ∧
          (qDst d = 5 → qStoch d = false → (∀ i c, i < qRows d → c < qN d → shelfByte t r.t r.c (at_ i c 1) =
              BitVec.ofNat 9 (quantQ8 .rne ((x i c).value 1) (qScale d esc)).1) ∧
            ∀ k, (∀ i c, i < qRows d → c < qN d → k ≠ s.shelfKey r.t r.c (at_ i c 1)) → codeByte t k = codeByte s k))) ∧
    ((s.te r.t r.c e).qcvRun = some j →
      ∃ t, exec (.qcvJobComplete r e) s = .next t ∧ t.te r.t r.c e = { s.te r.t r.c e with qcvRun := none } ∧
        t.tally r.t r.c (qTally d) = settled (added (s.tally r.t r.c (qTally d)) 1) ∧
        (∀ n, n ≠ qTally d → t.tally r.t r.c n = s.tally r.t r.c n) ∧
        (qQuant d = true → qSprout d esc = true → bit (s.reg ⟨.shfFlipmask, r.t, r.c, 0, 0⟩) 63 = false →
          shelfValue t r.t r.c (j.off + 56) 4 = (wordAt d 7).toNat % 2 ^ 32) ∧
        (¬ (qQuant d = true ∧ qSprout d esc = true) → t.mem = s.mem)))

/-- The results of R226 for rows of the normalisation unit outside R225, and the exact maximum of R229. NRM_JOB_START and
NRM_JOB_COMPLETE (R224, R227, R228): the cluster's oldest job takes the idle unit and writes, for each row of scaled
elements, the fields of its record that its op names, and no other shelf byte; at its completion its rows are counted and it
arrives on its tally once. -/
def Obligations.NormalisationJobs : Prop :=
  (∀ (free : Nat → Nat) (ys : List (Option FVal)),
    let nan : W32 := 0x7FC00000#32
    let inc := ys.filterMap id
    (inc = [] → rowStats free ys = (0xFF800000#32, 0#32, nan, nan)) ∧
    (.nan ∈ inc → rowStats free ys = (nan, nan, nan, nan)) ∧
    (.nan ∉ inc → .inf false ∈ inc →
      let r := rowStats free ys
      let n := (inc.filter fun v => v = .inf false).length
      r.1 = 0x7F800000#32 ∧ r.2.1 = toF32 (.fin false n) ∧ r.2.2.1 = (if .inf true ∈ inc then nan else 0x7F800000#32) ∧ r.2.2.2 = nan) ∧
    (inc ≠ [] → (∀ v ∈ inc, ∃ w : W32, v = f32 w ∧ ∃ n q, v = .fin n q) →
      ∃ v ∈ inc, f32 (rowStats free ys).1 = v ∧ ∀ u ∈ inc, v.lt u = false)) ∧
  (∀ (s : State) (r : CluRef) (j : EngJob) (rest : List EngJob),
    let d := j.words
    let row (i : Nat) : List (Option FVal) := (List.range (nN d)).map fun (c : Nat) =>
      if nCausal d ∧ nBase d + (i : Int) < (c : Int) then none
      else some (r32 ((f32 (nScale d)).mul ((s.plane r.t r.c (nOpnd d)).at i c).x))
    (bit (s.reg ⟨.shfFlipmask, r.t, r.c, 0, 0⟩) 63 = false → nrmOk d = true → nrmInside d (2 ^ 20) = true →
      (s.clu r.t r.c).nrmRun = none → (s.clu r.t r.c).nrmQ = j :: rest → (s.clu r.t r.c).dom = .on →
      ∃ t, exec (.nrmJobStart r) s = .next t ∧ t.clu r.t r.c = { s.clu r.t r.c with nrmQ := rest, nrmRun := some j } ∧
        (∀ i, i < nRows d → ∃ free, ∀ b ∈ recordBytes (nOp d) (rowStats free (row i)),
          shelfByte t r.t r.c (nDst d + 16 * i + b.1) = b.2.zeroExtend 9) ∧
        ∀ k, (∀ i b, i < nRows d → b ∈ recordBytes (nOp d) (rowStats (fun _ => 0) (row i)) → k ≠ s.shelfKey r.t r.c (nDst d + 16 * i + b.1)) →
          codeByte t k = codeByte s k) ∧
    ((s.clu r.t r.c).nrmRun = some j →
      ∃ t, exec (.nrmJobComplete r) s = .next t ∧ (t.clu r.t r.c).nrmRun = none ∧
        t.tally r.t r.c (nTally d) = settled (added (s.tally r.t r.c (nTally d)) 1) ∧
        (∀ n, n ≠ nTally d → t.tally r.t r.c n = s.tally r.t r.c n) ∧
        fld (t.reg ⟨.nrmRowCnt, r.t, r.c, 0, 0⟩) 63 0 = min (2 ^ 64 - 1) (fld (s.reg ⟨.nrmRowCnt, r.t, r.c, 0, 0⟩) 63 0 + nRows d) ∧
        t.mem = s.mem))

/-- HATCH_JOB_START and HATCH_JOB_COMPLETE (R245, R248, R249): the cluster's oldest job takes a free one of the four slots. A
plain FETCH from the cluster's own bay writes each byte of each row into its place in the shelf and nothing else of the
shelf; a job whose data have moved and whose remote parts are answered leaves its slot and arrives on its tally once.
TABLE_LOAD and TABLE_BANK_SWITCH (R218 to R220): a valid image waits for every named cluster, and an invalid table ends the
command with INCONSISTENT and its index. A cluster whose bunches are bound to none of the inactive bank's entries takes its
oldest load: the tables that the image names fill that bank, the others are copied from the active one, and it becomes
active. -/
def Obligations.HatchJobsAndSeedTables : Prop :=
  (∀ (s : State) (r : CluRef) (k : Fin 4) (j : EngJob) (rest : List EngJob),
    let d := j.words
    let far (i c : Nat) : W64 := BitVec.ofNat 64 (xRemote d + i * xRmStride d + c)
    let at_ (i c : Nat) : Nat := xShelf d + i * xShStride d + c
    (bit (s.reg ⟨.shfFlipmask, r.t, r.c, 0, 0⟩) 63 = false → s.hxfOk r.t d = true → hxfInside d (2 ^ 20) = true →
      (s.clu r.t r.c).hatchQ = j :: rest → (s.clu r.t r.c).hatchSlot = some k.val → (s.clu r.t r.c).dom = .on →
      s.hatchLeave r.t r.c d = true → s.needs = [] → s.sends = [] →
      xMode d = 0 → xPut d = false → (∀ i c, i < xRows d → c < xBytes d → ∃ die off, s.home r.t (far i c) = .bay r.t r.c die off) →
      (∀ q ∈ s.reqs, q.owner ≠ .hatch r.t r.c k none) →
      ∃ t, exec (.hatchJobStart r) s = .next t ∧ (t.clu r.t r.c).hatchQ = rest ∧
        (∃ h, SMap.get default (t.clu r.t r.c).hatchRun k = h ∧ h.job = j ∧ h.moved = true ∧ h.lost = false) ∧
        (∀ m, m ≠ k.val → SMap.get default (t.clu r.t r.c).hatchRun m = SMap.get default (s.clu r.t r.c).hatchRun m) ∧
        (∀ i c, i < xRows d → c < xBytes d →
          shelfByte t r.t r.c (at_ i c) = (s.gread (s.hatchAgent r.t r.c k d) (far i c) 1).data.headD 0#9) ∧
        ∀ n, (∀ i c, i < xRows d → c < xBytes d → n ≠ s.shelfKey r.t r.c (at_ i c)) → codeByte t n = codeByte s n) ∧
    (∀ h : HatchRun, (s.clu r.t r.c).hatchRun.filter (fun e => e.1 = k.val) = [(k.val, h)] → h.moved = true → h.lost = false →
      (∀ q ∈ s.reqs, q.owner ≠ .hatch r.t r.c k none) → h.job = j →
      ∃ t, exec (.hatchJobComplete r k) s = .next t ∧
        (t.clu r.t r.c).hatchRun = (s.clu r.t r.c).hatchRun.filter (fun e => e.1 ≠ k.val) ∧
        t.tally r.t r.c (xTally d) = settled (added (s.tally r.t r.c (xTally d)) 1) ∧
        (∀ n, n ≠ xTally d → t.tally r.t r.c n = s.tally r.t r.c n) ∧ t.mem = s.mem ∧ t.regs = s.regs ∧ t.reqs = s.reqs)) ∧
  ((∀ (s : State) (q : Fin 1024) (p : Packet) (k : Pkt) (bs : List (BitVec 9)), Due s q 0x22 k → k.words = p →
    let n := (loadCount p).1
    let cs := maskClusters (pbytes p 17 1) (pbytes p 24 16)
    let img := bs.map dataOf
    ((s.checkTable q p).1 ≠ 0 → Refuses (.tableLoad q p) s q k (s.checkTable q p).1) ∧
    ((s.checkTable q p).1 = 0 → isHost (wordAt p 1) = true → s.hostWay = .direct → bs = s.hostBytes (wordAt p 1).toNat (tableBytes * n) →
      (∀ i, badTable img n = some i → Completes (.tableLoad q p) s q k stInconsistent i 0 (· = s)) ∧
      (badTable img n = none → cs ≠ [] → Waits (.tableLoad q p) s k (loadCount p).2 (cs.map fun e => (Wait.table e.1 e.2).code) fun u =>
        (∀ t c, (u.clu t c).loads = (s.clu t c).loads ++ ((cs.filter fun e => cluKey e.1 e.2 = cluKey t c).map fun _ => ⟨q, k.id, img⟩)) ∧
        { u with clusters := s.clusters } = s))) ∧
  ∀ (s : State) (r : CluRef) (l : TblLoad) (ls : List TblLoad),
    let x := s.clu r.t r.c
    x.loads = l :: ls → x.active ≤ 1 → s.running? l.id = none →
    (∀ i, i < l.image.length / tableBytes → tableFn (imageTable l.image i) ∈ tableOps) →
    ((∃ b ∈ s.resident r.t r.c, b.bank = 1 - x.active) → exec (.tableBankSwitch r) s = .next s) ∧
    ((∀ b ∈ s.resident r.t r.c, b.bank ≠ 1 - x.active) →
      ∃ t, exec (.tableBankSwitch r) s = .next t ∧ (t.clu r.t r.c).active = 1 - x.active ∧ (t.clu r.t r.c).loads = ls ∧
        (∀ slot e, slot < 7 → e < 256 →
          SMap.get none (t.clu r.t r.c).tables (((1 - x.active) * 7 + slot) * 256 + e) =
            match (List.range (l.image.length / tableBytes)).reverse.find? fun i => tableOps.findIdx (· = tableFn (imageTable l.image i)) = slot with
            | some i => some (BitVec.ofNat 192 (leNat (((imageTable l.image i).drop (64 + 24 * e)).take 24)))
            | none => SMap.get none x.tables ((x.active * 7 + slot) * 256 + e)) ∧
        ∀ slot e, slot < 7 → e < 256 →
          SMap.get none (t.clu r.t r.c).tables ((x.active * 7 + slot) * 256 + e) = SMap.get none x.tables ((x.active * 7 + slot) * 256 + e)))

/-- LAUNCH (R142, R143, R155, R359, R367): a packet that fails a check ends with that status and places nothing; its fields are
clamped; a launch that names no cluster ends with OK; else every named cluster takes a team, in order of tower and cluster,
with its bunches b on TE b mod 4 in slot b div 4, those of dead threads alone retired from the start, and the command waits
for them. GUARD_EVALUATE (R133): the oldest folded invocation of a tag on a tower whose command has ended is evaluated once.
A good one sets bad_run to 0; a bad one adds 1, and one that completes the window makes an F4 or Q4 tag in mode 2 pending,
with an event in the log, or else adds a report; in mode 0, or while the tag is escalated, only the invocation is taken away.
-/
def Obligations.LaunchesAndGuardEvaluations : Prop :=
  (∀ (s : State) (q : Fin 1024) (p : Packet) (k : Pkt), Due s q 0x20 k → k.words = p →
    let f (i : Nat) : Nat := (launchFields p).getD i 0
    let cs := launchClusters p
    let clamp := clampMask (launchRaw p) (launchFields p)
    ((s.checkLaunch q p).1 ≠ 0 → Refuses (.launch q p) s q k (s.checkLaunch q p).1) ∧
    ((s.checkLaunch q p).1 = 0 → cs = [] → Completes (.launch q p) s q k (okStatus clamp) 0 clamp (· = s)) ∧
    ((s.checkLaunch q p).1 = 0 → cs ≠ [] → (∀ x ∈ cs, (s.tower x.1).inTower = false) →
      Waits (.launch q p) s k clamp [waitTeams] fun u =>
        u.mod.launches = s.mod.launches ++ [⟨k.id, q, k.id, cs.map fun x => cluKey x.1 x.2, none, 0, s.stamp (qTower q)⟩] ∧
        (∀ i t c, cs[i]? = some (t, c) →
          (∃ tm, (u.clu t c).team = some tm ∧ tm.launch = k.id ∧ tm.index = i ∧ tm.team = f 1 ∧ tm.threads = f 2 ∧ tm.alloc = allocOf (f 0) ∧
            tm.cacheKib = cacheKibOf (f 3) ∧ tm.spillDepth = f 4 ∧ tm.spillBase = f 5 ∧ tm.tallyBase = f 6 ∧ tm.tallyCount = f 7 ∧
            tm.barTimeout = f 8 ∧ tm.codeLen = pbytes p 16 4 ∧ tm.args = launchArgs p ∧ tm.stopped = false ∧
            ∀ b, b ∈ tm.retired ↔ (b < f 1 ∧ f 2 ≤ 64 * b)) ∧
          ∀ b, b < f 1 → u.bunch (bunchKey t c (b % 4) (b / 4)) =
            if 64 * b < f 2 then { (default : Bunch) with run := .placed, launch := k.id, idx := b } else s.bunch (bunchKey t c (b % 4) (b / 4))) ∧
        (∀ n, (∀ x ∈ cs, n ≠ cluKey x.1 x.2) → SMap.get Cluster.init u.clusters n = SMap.get Cluster.init s.clusters n) ∧
        u.mem = s.mem ∧ u.queues = s.queues ∧ u.reqs = s.reqs ∧ u.towers = s.towers)) ∧
  (∀ (s : State) (t : Fin 4) (tag : Fin 4096) (a : GuardAcc) (as : List GuardAcc),
    let y := s.tag t tag
    let p := s.pol tag
    y.pendingEval = a :: as → a ∉ as → (∀ l ∈ s.mod.launches, l.id ≠ a.owner) →
    ∃ u, exec (.guardEvaluate t tag) s = .next u ∧
      let z := u.tag t tag
      z.pendingEval = as ∧ (∀ k, k ≠ tagKey t tag → SMap.get default u.tags k = SMap.get default s.tags k) ∧
      { z with pendingEval := y.pendingEval, lastSqnr := y.lastSqnr, badRun := y.badRun, reports := y.reports } = y ∧
      (p.mode = 0 ∨ s.escalated tag = true → z = { y with pendingEval := as } ∧ { u with tags := s.tags } = s) ∧
      (p.mode ≠ 0 → s.escalated tag = false →
        z.lastSqnr = sqnrOf a ∧
        (isBadRun p a = none → z.badRun = y.badRun ∧ z.reports = y.reports) ∧
        (isBadRun p a = some false → z.badRun = 0 ∧ z.reports = y.reports) ∧
        (isBadRun p a = some true → y.badRun + 1 < p.window → z.badRun = y.badRun + 1 ∧ z.reports = y.reports) ∧
        (isBadRun p a = some true → p.window ≤ y.badRun + 1 → z.badRun = 0 ∧
          (p.mode = 2 → y.native = some 6 ∨ y.native = some 7 → z.reports = y.reports ∧
            (s.escOf tag = .native → u.escOf tag = .pending ∧ ∃ e, u.mod.log.getLast? = some e ∧ e.code = 0x0031 ∧ e.detail = [BitVec.ofNat 32 tag, 1#32])) ∧
          (p.mode ≠ 2 ∨ (y.native ≠ some 6 ∧ y.native ≠ some 7) →
            z.reports = min (2 ^ 16 - 1) (y.reports + 1) ∧ { u with tags := s.tags } = s))))

/-! ## Memory -/

/-- The byte code (R234 to R236): a stored byte reads as itself; with one of its 13 bits inverted it is corrected, with two
inverted it is uncorrectable; a poisoned byte reads as uncorrectable. The HBM unit code (R305, R306, Table 10-2): every unit
reads as itself; with any one of its 266 data and check bits inverted its data are corrected; with any two inverted it is
uncorrectable. -/
def Obligations.CodesCorrectOneAndDetectTwo : Prop :=
  (∀ b : BitVec 8, byteRead (byteCode b) = ⟨b, false, false⟩ ∧ (byteRead (poisonCode b)).bad = true ∧
    (∀ i, i < 13 → byteRead (byteCode b ^^^ (1#13 <<< i)) = ⟨b, true, false⟩) ∧
    (∀ i j, i < 13 → j < 13 → i ≠ j → (byteRead (byteCode b ^^^ (1#13 <<< i) ^^^ (1#13 <<< j))).bad = true)) ∧
  (∀ d : BitVec 256,
    let c := hbmCheck d
    (unitRead d c).data = d ∧ (unitRead d c).corrected = false ∧ (unitRead d c).bad = false ∧
    (∀ i, i < 256 → (unitRead (d ^^^ (1#256 <<< i)) c).data = d ∧ (unitRead (d ^^^ (1#256 <<< i)) c).corrected = true ∧
      (unitRead (d ^^^ (1#256 <<< i)) c).bad = false) ∧
    (∀ i, i < 10 → (unitRead d (c ^^^ (1#10 <<< i))).data = d ∧ (unitRead d (c ^^^ (1#10 <<< i))).corrected = true ∧
      (unitRead d (c ^^^ (1#10 <<< i))).bad = false) ∧
    (∀ i j, i < 256 → j < 256 → i ≠ j → (unitRead (d ^^^ (1#256 <<< i) ^^^ (1#256 <<< j)) c).bad = true) ∧
    (∀ i j, i < 256 → j < 10 → (unitRead (d ^^^ (1#256 <<< i)) (c ^^^ (1#10 <<< j))).bad = true) ∧
    (∀ i j, i < 10 → j < 10 → i ≠ j → (unitRead d (c ^^^ (1#10 <<< i) ^^^ (1#10 <<< j))).bad = true))

/-- SCRUB_SLOT (R240, R241, R256 to R259): the scrubber takes the oldest row of its die's repair queue. A row that is invalid in
all three copies of its valid bit is passed over; in every other case each byte of the row reads afterwards as before, an
uncorrectable one as poisoned, and its corrected bytes are counted. SCRUB_CTL and INJECT (R257, R261, R262, R309, Table
12-5): a new lap, pause or resume of one scrubber or patrol and of no other; an armed flip mask in its register. A command
that fails a check changes nothing. -/
def Obligations.ScrubbersKeepRowsReadable : Prop :=
  (∀ (s : State) (t : Fin 4) (die : Fin 2) (bay row : Nat) (rest : List (Nat × Nat)),
    let old := (s.rowRead t die bay row 2).1
    let cells := s.rowCells t die bay (s.physRow t die bay row)
    s.dieReset t die = false → (s.tower t).fence = 0 → (s.tower t).inTower = false → bay < 136 → row < dataRows →
    SMap.get [] (s.tower t).repairQ die = (bay, row) :: rest →
    ∃ u, exec (.scrubSlot t die) s = .next u ∧ SMap.get [] (u.tower t).repairQ die = rest ∧
      (s.validBits t die bay row = 0#3 → s.rowOf t die bay (s.physRow t die bay row) = some row → u.mem = s.mem ∧ u.regs = s.regs) ∧
      (s.validBits t die bay row = 7#3 → s.rowOf t die bay (s.physRow t die bay row) = some row →
        (∀ i, i < 512 → isBad ((u.rowRead t die bay row 2).1.getD i 0#9) = isBad (old.getD i 0#9) ∧
          (isBad (old.getD i 0#9) = false → (u.rowRead t die bay row 2).1.getD i 0#9 = old.getD i 0#9)) ∧
        fld (u.reg ⟨.celErrCnt, t, die, 0, 0⟩) celErrCntCorrected.hi celErrCntCorrected.lo =
          min (2 ^ (celErrCntCorrected.hi + 1 - celErrCntCorrected.lo) - 1)
            (fld (s.reg ⟨.celErrCnt, t, die, 0, 0⟩) celErrCntCorrected.hi celErrCntCorrected.lo + (cells.filter ByteRead.corrected).length))) ∧
  (∀ (s : State) (q : Fin 1024) (p : Packet) (k : Pkt), k.words = p →
    let g := pbytes p 8 1
    let t := pbytes p 9 1
    let n := if g = 2 then pbytes p 10 1 else 100 + g
    (Due s q 0x72 k → (s.checkScrub p).1 ≠ 0 → Refuses (.scrubCtl q p) s q k (s.checkScrub p).1) ∧
    (Due s q 0x72 k → (s.checkScrub p).1 = 0 → Completes (.scrubCtl q p) s q k stOK 0 0 fun u => TowerOnly s u t ∧
      (pbytes p 11 1 = 0 → g = 2 → (∀ pc, pc < 64 → SMap.get 0 (u.tower t).patrolPtr (n * 64 + pc) = 0) ∧
        SMap.get 0 (u.tower t).patrolStart n = s.stamp t) ∧
      (pbytes p 11 1 = 0 → g < 2 → (∀ b, b < 136 → SMap.get 0 (u.tower t).scrubPtr (g * 136 + b) = 0) ∧ (u.tower t).lapStart.getD g 0 = s.stamp t) ∧
      (pbytes p 11 1 = 1 → (u.tower t).patrolPaused = (s.tower t).patrolPaused.filter (· ≠ n) ++ [n]) ∧
      (2 ≤ pbytes p 11 1 → (u.tower t).patrolPaused = (s.tower t).patrolPaused.filter (· ≠ n))) ∧
    (Due s q 0x73 k → (s.checkInject p).1 ≠ 0 → Refuses (.inject q p) s q k (s.checkInject p).1) ∧
    (Due s q 0x73 k → (s.checkInject p).1 = 0 → Completes (.inject q p) s q k stOK 0 0 fun u =>
      let l : Loc := if g = 0 then ⟨.celFlipmask, t, pbytes p 10 1, pbytes p 12 2, 0⟩ else ⟨.shfFlipmask, t, pbytes p 10 1, 0, 0⟩
      bit (u.reg l) 63 = decide (2 ^ 63 ≤ pbytes p 16 8) ∧ fld (u.reg l) 12 0 = pbytes p 16 8 % 2 ^ 13 ∧
      (∀ m : Loc, m.key ≠ l.key → u.reg m = s.reg m) ∧ u.mem = s.mem))

/-- CELLAR_HOLD_TIMEOUT, TOWER_HOLD_TIMEOUT and DIAGONAL_HOLD_TIMEOUT (R19, R265, R300): an access that its home's reset, or the
path to it, has held for 10 ms (2,000,000 stamps) fails with RESOURCE_LOST; one held for less time, or for another reason,
stays. CLEAR_BAY (R240, R243, R359): a command that fails a check changes no row; else every named row of the named bays and
dies is invalid and reads as 512 zeros, and every other valid bit is as before. CELLAR_SPLIT_COMMIT, PANTRY_POLICY_COMMIT and
REGULATION_WINDOW (R11, R233, R301, R312): a pending commit makes the values that it took active and is no longer pending; a
new split invalidates every row of a granule that changes role; a window's end restarts every class count and ends every
demotion. -/
def Obligations.HeldAccessesAndMemoryRegisters : Prop :=
  (∀ (s : State) (i : Instr) (kind : Nat) (r : Req) (at_ : Nat),
    (i, kind) ∈ [(Instr.cellarHoldTimeout r.id, 1), (Instr.towerHoldTimeout r.id, 2), (Instr.diagonalHoldTimeout r.id, 3)] →
    s.reqs.find? (fun q => decide (q.id = r.id)) = some r → r.id < s.mod.nextId →
    r.held = some at_ → r.stage = .issued →
    (s.holdKind r = kind → at_ + 2000000 ≤ s.stamp r.tower →
      (∀ q k d, r.owner = .command q k d → exec i s = .next { s with reqs := s.reqs.map fun x =>
        if x.id = r.id then { x with stage := .done, status := stLost, data := [] } else x }) ∧
      (∀ t c k d, r.owner = .hatch t c k d → exec i s = .next { s with reqs := s.reqs.map fun x =>
        if x.id = r.id then { x with stage := .done, status := stLost, data := [] } else x }) ∧
      (∃ u, exec i s = .next u ∧ ∀ x ∈ u.reqs, x.id = r.id → x.stage ≠ .issued)) ∧
    (s.holdKind r ≠ kind ∨ s.stamp r.tower < at_ + 2000000 → exec i s = .next s)) ∧
  (∀ (s : State) (q : Fin 1024) (p : Packet) (k : Pkt), Due s q 0x13 k → k.words = p →
    let t := pbytes p 8 1
    let n := (clearCount p).1
    let named (die bay row : Nat) : Prop := die ∈ clearDies p ∧ (∃ c, c < 128 ∧ pbytes p 24 16 / 2 ^ c % 2 = 1 ∧ bay = s.phys t c) ∧
      pbytes p 16 4 ≤ row ∧ row < pbytes p 16 4 + n
    ((s.checkClear p).1 ≠ 0 → Refuses (.clearBay q p) s q k (s.checkClear p).1) ∧
    ((s.checkClear p).1 = 0 → (∀ d ∈ clearDies p, s.dieReset t d = false) → (s.tower t).inTower = false →
      Completes (.clearBay q p) s q k (okStatus (clearCount p).2) 0 (clearCount p).2 fun u =>
        { u with mem := s.mem } = s ∧ { u.mem with valid := s.mem.valid } = s.mem ∧
        (∀ die bay row, die < 2 → bay < 136 → row < allRows →
          (named die bay row → u.validBits t die bay row = 0#3 ∧ ∀ src, (u.rowRead t die bay row src).1 = List.replicate 512 0#9) ∧
          (¬ named die bay row → u.validBits t die bay row = s.validBits t die bay row)) ∧
        ∀ t' die bay row, t' ≠ t → die < 2 → bay < 136 → row < allRows → u.validBits t' die bay row = s.validBits t' die bay row)) ∧
  (∀ (s : State) (t : Fin 4),
    let staged (r : RegName) (u : Nat) (f : Fld) : Nat := fld (s.lck ⟨r, t, u, 0, 0⟩) f.hi f.lo
    let u0 := min 12 (fld (s.lck ⟨.celSplit, t, 0, 0, 0⟩) 3 0)
    let l0 := min (22 - u0) (min 12 (fld (s.lck ⟨.celSplit, t, 1, 0, 0⟩) 3 0))
    (s.commitPending .celCommit t 0 = true → (u0 = s.priv t 0 ∧ l0 = s.priv t 1 ∨
        (s.splitBusy t = false ∧ s.dieReset t 0 = false ∧ s.dieReset t 1 = false ∧ (s.tower t).inTower = false)) →
      ∃ x, exec (.cellarSplitCommit t) s = .next x ∧ x.commitPending .celCommit t 0 = false ∧ x.priv t 0 = u0 ∧ x.priv t 1 = l0) ∧
    (s.commitPending .panCommit t 0 = true →
      ∃ x, exec (.pantryPolicyCommit t) s = .next x ∧ x.commitPending .panCommit t 0 = false ∧
        x.fget panPolicyFarWays t = staged .panPolicy 0 panPolicyFarWays ∧ x.fget panPolicyLarderQuota t = staged .panPolicy 0 panPolicyLarderQuota ∧
        x.fget panPolicyBypassClasses t = staged .panPolicy 0 panPolicyBypassClasses) ∧
    (∃ x, exec (.regulationWindow t) s = .next x ∧ (x.tower t).clsBytes = [] ∧ (x.tower t).demoted = [] ∧
      (s.commitPending .hbmCommit t 0 = false → TowerOnly s x t) ∧
      (s.commitPending .hbmCommit t 0 = true → x.commitPending .hbmCommit t 0 = false ∧
        fld (x.reg ⟨.hbmRegBudget, t, 0, 0, 0⟩) 63 0 = fld (s.lck ⟨.hbmRegBudget, t, 0, 0, 0⟩) 63 0)))

/-- PANTRY_LOOKUP (R278 to R281): a read of a local line whose bytes are all present is answered from the pantry; one that misses
joins the pending fill of its line, or opens one, if the class does not bypass the pantry and the table has room.
PANTRY_FILL_COMPLETE (R278 to R283, R290): a pending fill with one requester answers it, from the bytes of the line in HBM
for a local line, from what its read returned for a line of another module, and is pending no longer. -/
def Obligations.PantriesServeAndFillsAnswer : Prop :=
  (∀ (s : State) (r : Req) (t a n : Nat),
    let line := a / 128
    let half := (s.panSet t line).1
    let set := (s.panSet t line).2
    let fills := SMap.get [] s.mem.fills (t * 2 + half)
    let answered (bs : List (BitVec 9)) : List Req := s.reqs.map fun x =>
      if x.id = r.id then { x with stage := .done, status := 0, data := bs } else x
    s.reqs.find? (fun q => decide (q.id = r.id)) = some r → r.stage = .issued → s.behind r = false → r.op = .load n → a % 128 + n ≤ 128 →
    s.home r.tower r.addr = .hbm t a →
    (∀ w l, s.panFind t line none = some (w, l) → (∀ i, i < n → (presentMask l).getLsbD (a % 128 + i) = true) →
      (∀ i, i < n → isBad ((s.wayRead t half set w).1.getD (a % 128 + i) 0#9) = false) →
      ∃ u, exec (.pantryLookup r.id) s = .next u ∧ u.reqs = answered (((s.wayRead t half set w).1.drop (a % 128)).take n) ∧
        u.mem.hbm = s.mem.hbm ∧ u.mem.fills = s.mem.fills) ∧
    (s.panFind t line none = none → s.bypass t r.cls = false →
      (∀ f, fills.find? (fun x => decide (x.line = line) && decide (x.far = none)) = some f → f.reqs.length < 32 →
        ∃ u, exec (.pantryLookup r.id) s = .next u ∧ u.mem.hbm = s.mem.hbm ∧
          SMap.get [] u.mem.fills (t * 2 + half) = fills.map (fun x => if x.line = line ∧ x.far = none then { x with reqs := x.reqs ++ [(r.id, [])] } else x) ∧
          u.reqs = s.reqs.map fun x => if x.id = r.id then { x with stage := .filling } else x) ∧
      ((∀ f ∈ fills, ¬ (f.line = line ∧ f.far = none)) → fills.length < 1024 →
        ∃ u, exec (.pantryLookup r.id) s = .next u ∧ u.mem.hbm = s.mem.hbm ∧
          SMap.get [] u.mem.fills (t * 2 + half) = fills ++ [⟨line, none, r.cls, [(r.id, [])], false⟩] ∧
          u.reqs = s.reqs.map fun x => if x.id = r.id then { x with stage := .filling } else x))) ∧
  (∀ (s : State) (t : Fin 4) (half : Fin 2) (f : Fill) (r : Req) (n : Nat),
    let fills := SMap.get [] s.mem.fills (t * 2 + half)
    let got (u : State) (st : Nat) (bs : List (BitVec 9)) : Prop :=
      (∃ x ∈ u.reqs, x.id = r.id ∧ x.stage = .done ∧ x.status = st ∧
        x.data = (List.range n).map fun i => bs.getD (r.addr.toNat % 128 + i) 0#9) ∧
      SMap.get [] u.mem.fills (t * 2 + half) = fills.filter fun x => !(decide (x.line = f.line) && decide (x.far = f.far))
    fills.find? (fun x => decide (x.line = f.line)) = some f → f.reqs = [(r.id, [])] → r ∈ s.reqs → (∀ x ∈ s.reqs, x.id = r.id → x = r) →
    r.op = .load n → r.stage = .filling →
    (f.far = none → s.lineHeld t f.line = false → (s.tower t).inTower = false →
      ∃ u, exec (.pantryFillComplete t half f.line) s = .next u ∧ got u 0 (s.lineFetch t f.line f.cls).1) ∧
    (∀ m q, f.far = some m → s.reqs.filter (fun x => decide (x.owner = .fill t half f.line) && decide (x.stage = .done)) = [q] →
      (∀ x ∈ s.reqs, x.id = q.id → x = q) → q.id ≠ r.id →
      ∃ u, exec (.pantryFillComplete t half f.line) s = .next u ∧ got u q.status q.data))

/-- PIN of resident lines, UNPIN and DISCARD of HBM ranges (R285 to R287, R296): a pin is set where the set's pins lie below the
quota, the lines left unpinned are reported, and the range is recorded; UNPIN clears every pin of its range; DISCARD drops
the lines of its range and writes none back. No line outside the range, and no byte of HBM, changes. LARDER_PRESSURE (R287,
R288): the end of a pressure window. At or below the ceiling the condition ends; above it the run of windows grows; with the
run as long as the policy asks the tower comes under pressure, once with an event, and with the demote action its oldest pin
record is unpinned and logged. -/
def Obligations.PinsDiscardsAndPressure : Prop :=
  (∀ (s : State) (q : Fin 1024) (p : Packet) (k : Pkt), k.words = p →
    let ps := (s.hbmRange (wordAt p 1) (wordAt p 2).toNat).2
    let inside (key : Nat) (l : PLine) : Prop := l.far = none ∧ ∃ x ∈ ps, x.1 = key / 2 ^ 25 ∧ x.2.1 / 128 ≤ l.line ∧ l.line < (x.2.1 + x.2.2) / 128
    let way (u : State) (key : Nat) : Option PLine := SMap.get none u.mem.pantry key
    (Due s q 0x15 k → (s.checkPin q p).1 ≠ 0 → Refuses (.pin q p) s q k (s.checkPin q p).1) ∧
    (Due s q 0x15 k → (s.checkPin q p).1 = 0 → pbytes p 24 1 = 0 → s.heldLine ps = none →
      ∃ left, Completes (.pin q p) s q k (if left = 0 then stOK else stClamped) (min left 0xFFFFFFFF) 0 fun u =>
        { u with mem := s.mem, towers := s.towers } = s ∧ { u.mem with pantry := s.mem.pantry } = s.mem ∧
        (∀ key, ∃ b, way u key = (way s key).map fun l => { l with pinned := l.pinned || b }) ∧
        (∀ key l, way s key = some l → ¬ inside key l → way u key = some l) ∧
        (∀ x ∈ ps, ∀ i w l, i < x.2.2 / 128 → u.panFind x.1 (x.2.1 / 128 + i) none = some (w, l) →
          l.pinned = true ∨ u.quota x.1 ≤ u.pinsIn x.1 (u.panSet x.1 (x.2.1 / 128 + i)).1 (u.panSet x.1 (x.2.1 / 128 + i)).2) ∧
        ∀ t, t < 4 → (u.tower t).pins = (s.tower t).pins ++
          ((ps.filter fun x => decide (x.1 = t) && decide (x.2.2 ≠ 0)).map fun x => ⟨t * 2 ^ 39 + x.2.1, x.2.2⟩)) ∧
    (Due s q 0x16 k → (s.checkUnpin p).1 = 0 → Completes (.unpin q p) s q k stOK 0 0 fun u =>
      { u with mem := s.mem, towers := s.towers } = s ∧ { u.mem with pantry := s.mem.pantry } = s.mem ∧
      (∀ key l, way s key = some l → inside key l → way u key = some { l with pinned := false }) ∧
      (∀ key, (∀ l, way s key = some l → ¬ inside key l) → way u key = way s key) ∧
      ∀ t, t < 4 → (u.tower t).pins = match ps.find? fun x => decide (x.1 = t) with | some x => s.pinsWithout x | none => (s.tower t).pins) ∧
    (Due s q 0x16 k → ∀ st d, s.checkUnpin p = (st, d) → st ≠ 0 → Completes (.unpin q p) s q k st d 0 (· = s)) ∧
    (Due s q 0x14 k → (s.checkDiscard q p).1 ≠ 0 → Refuses (.discard q p) s q k (s.checkDiscard q p).1) ∧
    (Due s q 0x14 k → s.moduleAddr (wordAt p 1) ≠ none → (∀ a, s.moduleAddr (wordAt p 1) = some a → a < 0x020000000000) →
      (s.checkDiscard q p).1 = 0 → Memory.wf s.mem = true → s.heldLine ps = none → (∀ e ∈ s.mem.fills, ∀ f ∈ e.2, f.far ≠ none) →
      ∃ kept, Completes (.discard q p) s q k stOK kept 0 fun u =>
        { u.mem with pantry := s.mem.pantry } = s.mem ∧
        (∀ key l, way s key = some l → inside key l → way u key = none) ∧
        (∀ key, (∀ l, way s key = some l → ¬ inside key l) → way u key = way s key)) ∧
    (Due s q 0x14 k → ∀ a, s.moduleAddr (wordAt p 1) = some a → 0x020000000000 ≤ a → (s.checkDiscard q p).1 = 0 →
      let b := s.bayRange (qTower q) (wordAt p 1) (wordAt p 2).toNat
      s.dieReset b.2.1 b.2.2.1 = false → (s.tower b.2.1).inTower = false →
      Completes (.discard q p) s q k stOK 0 0 fun u => { u.mem with valid := s.mem.valid } = s.mem ∧
        ∀ row, b.2.2.2.2.1 ≤ row → row < b.2.2.2.2.1 + b.2.2.2.2.2 → row < allRows →
          ∀ src, (u.rowRead b.2.1 b.2.2.1 (s.phys b.2.1 b.2.2.2.1) row src).1 = List.replicate 512 0#9)) ∧
  (∀ (s : State) (t : Fin 4),
    let w := s.tower t
    let rate := if w.accUnpinned = 0 then 0 else 1000 * w.missUnpinned / w.accUnpinned
    let limit := max 1 (min 1000 (s.fget panPolicyPressureCeiling t))
    let long := max 1 (min 64 (s.fget panPolicyPressureWindows t))
    w.fence = 0 → w.inTower = false →
    ∃ u, exec (.larderPressure t) s = .next u ∧ (u.tower t).missUnpinned = 0 ∧ (u.tower t).accUnpinned = 0 ∧ u.mem.hbm = s.mem.hbm ∧
      u.mem.cells = s.mem.cells ∧
      (rate ≤ limit → (u.tower t).pressRun = 0 ∧ (u.tower t).pressure = false ∧ u.mod.log = s.mod.log ∧ u.mem = s.mem) ∧
      (limit < rate → (u.tower t).pressRun = w.pressRun + 1) ∧
      (limit < rate → w.pressure = false → w.pressRun + 1 < long → (u.tower t).pressure = false ∧ u.mod.log = s.mod.log ∧ u.mem = s.mem) ∧
      (limit < rate → w.pressure = true ∨ long ≤ w.pressRun + 1 → (u.tower t).pressure = true ∧
        (s.flag panPolicyPressureAction t = false → u.mem = s.mem ∧ (u.tower t).pins = w.pins ∧
          (w.pressure = false → ∃ e, u.mod.log.getLast? = some e ∧ e.code = 0x0034 ∧ e.source = t.val)) ∧
        (∀ r rs, s.flag panPolicyPressureAction t = true → w.pins = r :: rs →
          (u.tower t).pins = s.pinsWithout (t, r.start % 2 ^ 39, r.bytes) ∧
          (∃ e, u.mod.log.getLast? = some e ∧ e.code = 0x0035 ∧
            e.detail = [r.start % 2 ^ 32, r.start / 2 ^ 32, r.bytes % 2 ^ 32, r.bytes / 2 ^ 32].map (BitVec.ofNat 32)) ∧
          ∀ key l, SMap.get none s.mem.pantry key = some l → key / 2 ^ 25 = t.val → l.far = none →
            r.start % 2 ^ 39 / 128 ≤ l.line → l.line < (r.start % 2 ^ 39 + r.bytes) / 128 →
            SMap.get none u.mem.pantry key = some { l with pinned := false })))

/-- HBM_ACCESS, WRITE_QUEUE_DRAIN and HBM_REFRESH (R307, R308, R313, R315): an accepted write enters its pseudo-channel's queue,
and a read of that unit then returns its bytes; the queue drains its sixteen oldest writes once it holds 48, and a whole unit
drained reads as written; a refresh keeps every stored bit (DEDUCED, log entry 50). PATROL_READ and HBM_TEMP_READ (R302, R309): patrol
reads the granule at the pseudo-channel's pointer; every unit of it that has a correctable error is rewritten with its
corrected data and code, one that is uncorrectable with its poison flag, and no other unit changes; a stack's temperature is
shown, and the stack is hot from 85 degrees on. -/
def Obligations.HbmUnitsReadAsWritten : Prop :=
  (∀ (s : State) (t : Fin 4), s.hbmRuns t = true →
    (∀ (a b : HbmOp) (d : HbmData), a.wr = some d → b.wr = none → b.unit = a.unit → a.unit.val < 2 ^ 34 → d.mask = 0xFFFFFFFF#32 →
      let k := pcKey t (hbmPlace (a.unit.val * 32)).stack (hbmPlace (a.unit.val * 32)).pc
      s.chanFailed t (hbmPlace (a.unit.val * 32)).stack ((hbmPlace (a.unit.val * 32)).pc / 2) = false → (SMap.get [] s.mem.wq k).length < 64 →
      ∃ u v, exec (.hbmAccess t a) s = .next u ∧ exec (.hbmAccess t b) u = .next v ∧ v.out.head? = some (.hbmRead t a.unit
        ((List.range 32).map fun i => BitVec.ofNat 9 ((unitByte d.data i).toNat + if d.poison.getLsbD i then 256 else 0))) ∧
        SMap.get [] u.mem.wq k = SMap.get [] s.mem.wq k ++ [⟨a.unit, d, a.cls.val⟩] ∧ u.mem.hbm = s.mem.hbm) ∧
    (∀ (stack : Fin 8) (pc : Fin 64), let ws := SMap.get [] s.mem.wq (pcKey t stack pc)
      (ws.length < 48 → exec (.writeQueueDrain t stack pc) s = .next s) ∧
      (48 ≤ ws.length → ∃ u, exec (.writeQueueDrain t stack pc) s = .next u ∧ SMap.get [] u.mem.wq (pcKey t stack pc) = ws.drop 16 ∧
        (∀ k, k ≠ pcKey t stack pc → SMap.get [] u.mem.wq k = SMap.get [] s.mem.wq k) ∧
        (∀ i w, i < 16 → ws[i]? = some w → w.d.mask = 0xFFFFFFFF#32 → (∀ j x, i < j → j < 16 → ws[j]? = some x → x.unit ≠ w.unit) →
          SMap.get zeroUnit u.mem.hbm (unitKey t w.unit) = ⟨w.d.data, hbmCheck w.d.data, w.d.poison != 0#32⟩) ∧
        ∀ k, (∀ w ∈ ws.take 16, k ≠ unitKey t w.unit) → SMap.get zeroUnit u.mem.hbm k = SMap.get zeroUnit s.mem.hbm k)) ∧
    ∀ (stack : Fin 8) (pc : Fin 64) (bank : Nat), exec (.hbmRefresh t stack pc bank) s = .next s) ∧
  (∀ (s : State) (t : Fin 4), s.hbmRuns t = true →
    (∀ (stack : Fin 8) (pc : Fin 64), (s.tower t).patrolPaused.contains stack.val = false → s.chanFailed t stack (pc / 2) = false →
      let g := hbmGranule stack pc (SMap.get 0 (s.tower t).patrolPtr (stack * 64 + pc) % pcGranules)
      ∃ u, exec (.patrolRead t stack pc) s = .next u ∧
        (∀ i, i < 8 →
          let old := SMap.get zeroUnit s.mem.hbm (unitKey t (g * 8 + i))
          let r := unitRead old.data old.check
          SMap.get zeroUnit u.mem.hbm (unitKey t (g * 8 + i)) =
            if r.bad then ⟨r.data, hbmCheck r.data, true⟩ else if r.corrected then ⟨r.data, hbmCheck r.data, old.poison⟩ else old) ∧
        ∀ k, (∀ i, i < 8 → k ≠ unitKey t (g * 8 + i)) → SMap.get zeroUnit u.mem.hbm k = SMap.get zeroUnit s.mem.hbm k) ∧
    ∀ temps : List Nat, temps.length = 8 → ∃ u, exec (.hbmTempRead t temps) s = .next u ∧ u.mem = s.mem ∧
      ∀ k, k < 8 → u.fget hbmStatusTemp t 0 k = min 255 (temps.getD k 0) ∧ u.flag hbmStatusHot t 0 k = decide (85 ≤ temps.getD k 0))

/-! ## Links -/

/-- A flit of well-formed fields, laid out in its 256 bytes with its CRC-32C, is read back as it was sent (Table 11-1, R323). -/
def Obligations.FlitsAreReadAsSent : Prop :=
  ∀ f : Flit, f.start < 2 ^ 15 → f.crVc < 8 → f.crSlots < 2 ^ 14 → f.seq < 256 → f.ftype < 3 → f.body.length = 240 →
    (f.ftype = 2 → 1 ≤ (f.body.headD 0#8).toNat ∧ (f.body.headD 0#8).toNat ≤ 4) → f.cr2Vc < 8 → f.cr2Slots < 2 ^ 14 →
    f.bytes.length = 256 ∧ flitOf f.bytes = some f

/-- FLIT_RECEIVE, NAK and NAK_REPEAT (R323, R325, R327): a bad flit is discarded and counted, and asks once for the expected one;
a DATA flit out of order is discarded, but its ack and credits count; the expected one is acknowledged and the next is
expected. A NAK makes the sender send again from the named flit on; a NAK is repeated while the expected flit is missing.
FLIT_TRANSMIT (R324, R325, R327): one flit leaves. A flit asked for again goes first, then a CTRL body, then new DATA in
sequence, kept for replay, while fewer than 64 flits are unacknowledged; with 64 only IDLE and CTRL flits leave. No packet
starts without credits for all its slots, and none of another channel is held back by that. -/
def Obligations.FlitsTravelInOrder : Prop :=
  (∀ (s : State) (l : PortRef) (bs : List Byte) (fec : Bool),
    let x := s.port l.t l.p
    let asks : Port := { x with ctrlq := x.ctrlq ++ [nakBody x.expect], naking := true }
    x.live = true →
    (fec = true ∨ flitOf bs = none → ∃ u, exec (.flitReceive l bs fec) s = .next u ∧ PortOnly s u l ∧
      u.port l.t l.p = (if x.naking then x else asks) ∧
      u.fget lnkErrCntBadFlits l.t 0 l.p = min (2 ^ (lnkErrCntBadFlits.hi + 1 - lnkErrCntBadFlits.lo) - 1) (s.fget lnkErrCntBadFlits l.t 0 l.p + 1)) ∧
    (∀ f, fec = false → flitOf bs = some f → f.ftype = 1 → BitVec.ofNat 8 f.seq ≠ x.expect →
      ∃ u, exec (.flitReceive l bs fec) s = .next u ∧ PortOnly s u l ∧ (u.port l.t l.p).expect = x.expect ∧
        (u.port l.t l.p).rxq = x.rxq ∧ (u.port l.t l.p).partialRx = x.partialRx ∧ (u.port l.t l.p).naking = true ∧
        SMap.get 0 (u.port l.t l.p).returned f.cr2Vc = f.cr2Slots ∧
        (u.port l.t l.p).ctrlq = if x.naking then x.ctrlq else x.ctrlq ++ [nakBody x.expect]) ∧
    (∀ f, fec = false → flitOf bs = some f → f.ftype = 1 → BitVec.ofNat 8 f.seq = x.expect →
      ∃ u, exec (.flitReceive l bs fec) s = .next u ∧ (u.port l.t l.p).expect = x.expect + 1 ∧ (u.port l.t l.p).ackOut = some x.expect ∧
        (u.port l.t l.p).naking = false ∧ SMap.get 0 (u.port l.t l.p).returned f.cr2Vc = f.cr2Slots) ∧
    (∀ seq a b, x.replay = a ++ b → b ≠ [] → (∀ e ∈ a, e.1 ≠ seq) → (b.head?.map fun e => e.1) = some seq →
      ∃ u, exec (.nak l seq) s = .next u ∧ PortOnly s u l ∧ u.port l.t l.p = { x with resend := b.map fun e => e.1 }) ∧
    (x.naking = true → ∃ u, exec (.nakRepeat l) s = .next u ∧ PortOnly s u l ∧ u.regs = s.regs ∧ u.port l.t l.p = asks) ∧
    (x.naking = false → exec (.nakRepeat l) s = .next s)) ∧
  (∀ (s : State) (l : PortRef),
    let x := s.port l.t l.p
    let sent (u : State) (ftype : Nat) (P : Flit → Prop) : Prop :=
      ∃ f : Flit, (u.out.head? = some (.flit (portKey l.t l.p) f.bytes)) ∧ f.ftype = ftype ∧ f.ack = x.ackOut ∧ P f
    x.mode = .up →
    (∀ q qs e, x.resend = q :: qs → x.replay.find? (fun r => decide (r.1 = q) && decide (r.2.2 < 8)) = some e →
      ∃ u, exec (.flitTransmit l) s = .next u ∧ (u.port l.t l.p).resend = qs ∧ (u.port l.t l.p).nextSeq = x.nextSeq ∧
        sent u 1 fun f => f.seq = q.toNat ∧ f.body = e.2.1.drop 2) ∧
    (∀ b rest, x.resend = [] → x.ctrlq = b :: rest →
      ∃ u, exec (.flitTransmit l) s = .next u ∧ (u.port l.t l.p).ctrlq = rest ∧ (u.port l.t l.p).replay = x.replay ∧
        sent u 2 fun f => f.body = b) ∧
    (x.resend = [] → x.ctrlq = [] → 64 ≤ x.replay.length →
      ∃ u, exec (.flitTransmit l) s = .next u ∧ (u.port l.t l.p).replay = x.replay ∧ (u.port l.t l.p).txq = x.txq ∧ sent u 0 fun _ => True) ∧
    (x.resend = [] → x.ctrlq = [] → x.partialTx = [] → (∀ v, v < 8 → ∀ p ps, SMap.get [] x.txq v = p :: ps → x.credit v < p.slots.length + 1) →
      ∃ u, exec (.flitTransmit l) s = .next u ∧ (u.port l.t l.p).replay = x.replay ∧ (u.port l.t l.p).txq = x.txq ∧ sent u 0 fun _ => True) ∧
    (∀ v p ps, x.resend = [] → x.ctrlq = [] → x.partialTx = [] → x.replay.length < 64 → v < 8 → SMap.get [] x.txq v = p :: ps →
      p.slots.length < 15 → p.slots.length + 1 ≤ x.credit v → (∀ w, w < 8 → w ≠ v → SMap.get [] x.txq w = []) →
      ∃ u body, exec (.flitTransmit l) s = .next u ∧ (u.port l.t l.p).nextSeq = x.nextSeq + 1 ∧
        (u.port l.t l.p).replay = x.replay ++ [(x.nextSeq, body, 1)] ∧ sent u 1 fun f => f.seq = x.nextSeq.toNat ∧ f.start % 2 = 1 ∧
          bytesSlots (p.slots.length + 1) f.body = p.all))

/-- PORT_RETRAIN, PORT_DOWN, LINK_TRAINING_COMPLETE, PORT_QUALIFY and LANE_MONITOR_WINDOW (R329, R340, R345, R346): a flit sent
eight times makes its port retrain with replay and credits kept, until the limit is passed; a port that goes down completes
every request sent through it with FAULT_LINK and raises a health event; a clean window qualifies a port, at half width on
the half without a failed lane pair, and a pair fails with its second bad window. PORT_INFO, SYNC_REQ, SYNC_RSP and
LINK_CONFIG_COMMIT (R42 to R44, R344, R347, R466): a port tells its module, root and hops, and takes its neighbour's, after
which the module follows the best root it knows; a child asks its parent for the time and steps its stamps once before READY,
and steers them within 100 ppm after it, by a size the specification leaves open (DESIGN CHOICE, log entry 52); the first commit of the link
record assigns the module ID, and a later one keeps it. -/
def Obligations.PortsTrainAndExchangeStamps : Prop :=
  (∀ (s : State) (l : PortRef),
    let x := s.port l.t l.p
    let limit := max 1 (s.fget lnkCfgRetrainLimit l.t)
    let again (u : State) : Prop := (u.port l.t l.p).mode = .training ∧ (u.port l.t l.p).retrains = x.retrains + 1 ∧
      (u.port l.t l.p).window = 100 ∧ (u.port l.t l.p).replay.map (fun e => (e.1, e.2.1)) = x.replay.map (fun e => (e.1, e.2.1)) ∧
      (u.port l.t l.p).sent = x.sent ∧ (u.port l.t l.p).returned = x.returned ∧ u.reqs = s.reqs
    let down (u : State) : Prop := (u.port l.t l.p).mode = .down ∧
      u.reqs = s.reqs.map (fun r => if r.stage = .sent (portKey l.t l.p) then { r with stage := .done, status := stFaultLink } else r) ∧
      ∃ e ∈ u.mod.log, e.seq = s.mod.newest + 1 ∧ e.code = 0x0023 ∧ e.source = l.t.val
    (x.mode = .up → (∃ e ∈ x.replay, 8 ≤ e.2.2) → x.retrains < limit → ∃ u, exec (.portRetrain l) s = .next u ∧ again u) ∧
    (x.mode = .up → (∃ e ∈ x.replay, 8 ≤ e.2.2) → limit ≤ x.retrains → ∃ u, exec (.portRetrain l) s = .next u ∧ down u) ∧
    (x.mode = .training ∨ x.mode = .qualifying ∨ x.mode = .up → ∃ u, exec (.portDown l) s = .next u ∧ down u) ∧
    (x.mode = .training → ∃ u, exec (.linkTrainingComplete l) s = .next u ∧ PortOnly s u l ∧ (u.port l.t l.p).mode = .qualifying ∧
      (u.port l.t l.p).replay = x.replay ∧
      (if x.window = 100 then (u.port l.t l.p).ctrlq = x.ctrlq ++ [nakBody x.expect] else (u.port l.t l.p).window = 2000 ∧ (u.port l.t l.p).ctrlq = x.ctrlq)) ∧
    (∀ (bad : BitVec 8) (uncorr : Bool), x.mode = .qualifying →
      let now := bad &&& ~~~x.badLanes
      let failed := x.badLanes ||| (now &&& x.failedOnce)
      let low := failed &&& 0x0F#8
      let high := failed &&& 0xF0#8
      (low ≠ 0#8 → high ≠ 0#8 → ∃ u, exec (.portQualify l bad uncorr) s = .next u ∧ (u.port l.t l.p).mode = .down ∧
        (u.port l.t l.p).badLanes = failed) ∧
      (low = 0#8 ∨ high = 0#8 → now &&& ~~~failed = 0#8 → uncorr = false → ∃ u, exec (.portQualify l bad uncorr) s = .next u ∧
        (u.port l.t l.p).mode = .up ∧ (u.port l.t l.p).badLanes = failed ∧ (u.port l.t l.p).half = decide (failed ≠ 0#8) ∧
        (u.port l.t l.p).halfHigh = decide (low ≠ 0#8)) ∧
      (low = 0#8 ∨ high = 0#8 → now &&& ~~~failed ≠ 0#8 ∨ uncorr = true → ∃ u, exec (.portQualify l bad uncorr) s = .next u ∧
        PortOnly s u l ∧ u.port l.t l.p = { x with badLanes := failed, failedOnce := x.failedOnce ||| now })) ∧
    (∀ (bad : BitVec 8) (uncorr ber : Nat), x.mode = .up →
      (bad = 0#8 → uncorr ≤ 10 → ∃ u, exec (.laneMonitorWindow l bad uncorr ber) s = .next u ∧ PortOnly s u l ∧ u.port l.t l.p = x ∧
        u.fget lnkPortStatusBerExp l.t 0 l.p = min 255 ber) ∧
      (bad ≠ 0#8 ∨ 10 < uncorr → x.retrains < limit → ∃ u, exec (.laneMonitorWindow l bad uncorr ber) s = .next u ∧ again u))) ∧
  (∀ (s : State) (l : PortRef),
    let x := s.port l.t l.p
    (x.live = true →
      (∃ u b, exec (.portInfo l none) s = .next u ∧ PortOnly s u l ∧ u.regs = s.regs ∧ u.port l.t l.p = { x with ctrlq := x.ctrlq ++ [b] } ∧
        (infoOf b).moduleId = BitVec.ofNat 16 (match s.mod.moduleId with | some m => m.toNat | none => 0xFFFF) ∧
        (s.mod.isRoot = true → (infoOf b).hops = 0#8)) ∧
      (∀ b, ∃ u, exec (.portInfo l (some b)) s = .next u ∧ u.port l.t l.p = { x with peer := some b } ∧
        (u.rootCands = [] → u.mod.rootId = none) ∧
        ∀ c ∈ u.rootCands, ∃ d ∈ u.rootCands, u.mod.rootId = some (BitVec.ofNat 12 d.id) ∧ u.mod.isRoot = d.port.isNone ∧ u.mod.parent = d.port ∧
          c.better d = false) ∧
      (s.mod.parent = some (portKey l.t l.p) → ∃ u, exec (.syncReq l none) s = .next u ∧ PortOnly s u l ∧
        u.port l.t l.p = { x with ctrlq := x.ctrlq ++ [ctrlBody 2 [(8, leBytes 10 (s.syncNow l.t).toNat)]], syncT1 := some (s.syncNow l.t) }) ∧
      (∀ t1, ∃ u, exec (.syncReq l (some t1)) s = .next u ∧ PortOnly s u l ∧ u.port l.t l.p = { x with
        ctrlq := x.ctrlq ++ [ctrlBody 3 [(8, leBytes 10 t1.toNat ++ leBytes 10 (s.syncNow l.t).toNat ++ leBytes 10 (s.syncNow l.t).toNat)]] }) ∧
      (∀ t1 t2 t3 t4 : SyncStamp, s.mod.parent = some (portKey l.t l.p) → x.syncT1 = some t1 →
        let off : Int := (((t2.toNat : Int) - t1.toNat) - ((t4.toNat : Int) - t3.toNat)) / 2
        (s.mod.ready = false → s.mod.stepped = false → ∃ u, exec (.syncRsp l t1 t2 t3 t4) s = .next u ∧ u.mod.stepped = true ∧ u.mod.synced = true ∧
          ∀ t, t < 4 → (((u.tower t).stamp.toNat : Int) * 2 ^ 32 + (u.tower t).frac.toNat) % 2 ^ 96 =
            (((s.tower t).stamp.toNat : Int) * 2 ^ 32 + (s.tower t).frac.toNat + off * 2 ^ 16) % 2 ^ 96) ∧
        (s.mod.ready = true → ∃ u, exec (.syncRsp l t1 t2 t3 t4) s = .next u ∧ ∀ t, t < 4 → (u.tower t).stamp = (s.tower t).stamp ∧
          (u.tower t).rate.natAbs ≤ 429496 ∧ (0 < off → 0 ≤ (u.tower t).rate) ∧ (off < 0 → (u.tower t).rate ≤ 0) ∧ (off = 0 → (u.tower t).rate = 0)))) ∧
    ((∀ t, t < 4 → s.commitPending .lnkCommit t 0 = false) → exec .linkConfigCommit s = .next s) ∧
    (∀ t, t < 4 → s.commitPending .lnkCommit t 0 = true → (∀ k, t < k → k < 4 → s.commitPending .lnkCommit k 0 = false) →
      ∃ u, exec .linkConfigCommit s = .next u ∧ (∀ k, k < 4 → u.commitPending .lnkCommit k 0 = false) ∧ u.mem = s.mem ∧
        (s.mod.moduleId = none ∨ s.mod.idFree = true → u.mod.moduleId = some (BitVec.ofNat 12 (fld (s.lck ⟨.lnkCfg, t, 0, 0, 0⟩) 59 48))) ∧
        (s.mod.moduleId ≠ none → s.mod.idFree = false → u.mod.moduleId = s.mod.moduleId)))

/-- RD, WR, WRM and AMO (R271, R273, R330, R331, R338): a request that waits in a port's buffer is performed at its homes as an
access of class 5 and answered with its own agent and tag: a read with its bytes, a write with the status of its bytes under
their mask, an atomic with the old value. One that names the MMIO window changes nothing and is answered with BAD_ADDRESS.
RDR, ACK, AMR, MNR and REQUEST_TIMEOUT (R331, R340): a response that its request waits for completes it with the response's
status and data; one that none waits for changes no request and is counted; a request that has waited for req_timeout_ms
completes with FAULT_LINK. -/
def Obligations.MemoryPacketsAreServed : Prop :=
  (∀ (s : State) (l : PortRef) (p : LinkPkt),
    let u := s.takeRx l p
    let g := linkAgent l p
    let a := BitVec.ofNat 64 p.addr
    let ctl := (p.slots.getD 0 0#128).toNat
    let arg := (p.slots.getD 1 0#128).toNat
    let outside (i : Instr) (op : Nat) : Prop := 0x1F0000000000 ≤ p.addr →
      ∃ v, exec i s = .next v ∧ v.mem = s.mem ∧ v.reqs = s.reqs ∧ Replies s v p op stBadAddress fun _ => True
    let free (n : Nat) : Prop := p.addr < 0x1F0000000000 ∧ u.someHeld l.t (n / 128 + 2) p.addr n = false
    (AtPort s l p opRD → outside (.rd l p) opRDR ∧ (free p.count →
      let r := u.gread g a p.count
      ∃ v, exec (.rd l p) s = .next v ∧ v.mem = r.s.mem ∧
        (r.st = 0 → r.data.any isBad = false → Replies s v p opRDR stOK fun k =>
          k.count = p.count ∧ k.poison = false ∧ (slotBytes k.slots).take p.count = r.data.map dataOf) ∧
        (r.st = 0 → r.data.any isBad = true → Replies s v p opRDR stOK fun k => k.count = p.count ∧ k.poison = true) ∧
        (r.st ≠ 0 → Replies s v p opRDR (r.st % 2 ^ 16) fun k => k.slots = []))) ∧
    (AtPort s l p opWR → outside (.wr l p) opACK ∧ (free p.count →
      let w := u.gwrite g a (slotData p.addr p.count p.poison p.slots)
      ∃ v, exec (.wr l p) s = .next v ∧ v.mem = w.s.mem ∧ Replies s v p opACK (w.st % 2 ^ 16) fun k => k.slots = [])) ∧
    (AtPort s l p opWRM → outside (.wrm l p) opACK ∧ (free 128 →
      let w := u.gwriteM g a ((slotData 0 128 p.poison (p.slots.drop 1)).zipIdx.map fun b =>
        if (p.slots.headD 0#128).getLsbD b.2 then some b.1 else none)
      ∃ v, exec (.wrm l p) s = .next v ∧ v.mem = w.s.mem ∧ Replies s v p opACK (w.st % 2 ^ 16) fun k => k.slots = [])) ∧
    (AtPort s l p opAMO → outside (.amo l p) opAMR ∧ (free p.count →
      let r := u.amoAt g p.addr (ctl % 256) (ctl / 256 % 256) p.count (arg % 2 ^ 64) (arg / 2 ^ 64)
      ∃ v, exec (.amo l p) s = .next v ∧ v.mem = r.s.mem ∧ Replies s v p opAMR (r.st % 2 ^ 16) fun k =>
        (r.st = 0 → r.data.any isBad = false → k.poison = false ∧ k.slots = [BitVec.ofNat 128 (leNat (r.data.map dataOf))])))) ∧
  (∀ (s : State) (l : PortRef) (p : LinkPkt) (r : Req),
    let done (st : Nat) (bs : List (BitVec 9)) : List Req :=
      s.reqs.map fun x => if x.id = r.id then { x with stage := .done, status := st, data := if st = 0 then bs else [] } else x
    let data (op : Nat) : List (BitVec 9) :=
      if op = opRDR then slotData (r.addr.toNat % 2 ^ 48) p.count p.poison p.slots
      else if op = opAMR then (leBytes (match r.op with | .atomic _ _ n _ _ => n | _ => 8) (p.slots.headD 0#128).toNat).map fun b =>
        if p.poison then clean b ||| 256#9 else clean b
      else if op = opMNR then ((slotBytes p.slots).take p.count).map clean
      else []
    (∀ i op, (i, op) ∈ [(Instr.rdr l p, opRDR), (.ack l p, opACK), (.amr l p, opAMR), (.mnr l p, opMNR)] → p.op = op → s.inRx l p = true →
      (s.replyTo p = some r → ∃ u, exec i s = .next u ∧ u.reqs = done p.status (data op) ∧ u.mem = s.mem ∧ u.regs = s.regs) ∧
      (s.replyTo p = none → ∃ u, exec i s = .next u ∧ u.reqs = s.reqs ∧ u.mem = s.mem ∧
        u.fget lnkErrCntDropped l.t 0 l.p = min (2 ^ (lnkErrCntDropped.hi + 1 - lnkErrCntDropped.lo) - 1) (s.fget lnkErrCntDropped l.t 0 l.p + 1))) ∧
    (∀ k, s.reqs.find? (fun x => decide (x.id = r.id)) = some r → r.stage = .sent k →
      exec (.requestTimeout r.id) s = .next (if r.sentAt + s.reqTimeout ≤ s.stamp r.tower then
        { s with reqs := s.reqs.map fun x => if x.id = r.id then { x with stage := .done, status := stFaultLink, data := [] } else x } else s)))

/-- CMD, CMP, DBF, TSIG and CFL (R341 to R343, R350, R353, R369): packets of a CMD enter the ring of an enabled queue of master 2
and their doorbell rings, and are refused by any other queue; a status reply joins its REMOTE; a doorbell rings its queue; a
signal is an ARRIVE on its tally, and waits while its tower resets; a compressed row is expanded, rounded and written, a
malformed one dropped. HRD, HWR, HIRQ and MNT (R352, R419): a bridging module reads and writes host memory for another module
and passes on its interrupts; one without a working bridge answers FAULT_LINK and changes no memory. A maintenance request is
answered with as many bytes as it asks for, whose values the specification leaves open (DESIGN CHOICE, log entry 53), and with BAD_STATE
before READY. -/
def Obligations.RemoteAndHostPackets : Prop :=
  (∀ (s : State) (l : PortRef) (p : LinkPkt),
    let u := s.takeRx l p
    (AtPort s l p opCMD → let q := p.detail
      (1024 ≤ q ∨ s.qMaster q ≠ 2 ∨ (s.tower (qTower q)).fence ≠ 0 ∨ s.qEnabled q = false →
        ∃ v, exec (.cmd l p) s = .next v ∧ v.mem = s.mem ∧ v.queues = s.queues ∧ s.inRx l p = true) ∧
      (q < 1024 → s.qMaster q = 2 → (s.tower (qTower q)).fence = 0 → s.qEnabled q = true →
        2 ^ s.qSize q < ((s.queue q).tail - (s.queue q).head).toNat + p.count / 64 → exec (.cmd l p) s = .next s) ∧
      (q < 1024 → s.qMaster q = 2 → (s.tower (qTower q)).fence = 0 → s.qEnabled q = true → s.needs = [] → s.sends = [] →
        ((s.queue q).tail - (s.queue q).head).toNat + p.count / 64 ≤ 2 ^ s.qSize q →
        isHost (BitVec.ofNat 64 ((s.reg (qLoc .cmdQring q)).toNat / 64 * 64)) = true → s.hostWay = .direct →
        ∃ v, exec (.cmd l p) s = .next v ∧ (v.queue q).tail = (s.queue q).tail + BitVec.ofNat 32 (p.count / 64) ∧
          (v.queue q).bells = (s.queue q).bells ++ [(((s.queue q).tail + BitVec.ofNat 32 (p.count / 64)).toNat, s.stamp (qTower q))] ∧
          (∀ k, k ≠ q → v.queue k = s.queue k) ∧ Replies s v p opACK stOK fun k => k.slots = [])) ∧
    (∀ q k, p.op = opCMP → s.inRx l p = true → s.running? k.id = some (q, k) →
      (∃ r, s.reqs.find? (fun r => decide (agentOf r.owner r.tower = p.agent) && decide (r.id % 65536 = p.tag) && decide (s.dstOf r.addr.toNat = some p.src) &&
        (match r.op with | .packet op _ _ => decide (op = opCMD) | _ => false)) = some r ∧ r.owner = .command q k.id none) →
      let inner := (splitPackets 16 0 (k.words.drop 8)).map fun e => e.2
      let tag := leNat ((slotBytes p.slots).take 2)
      let st := leNat (((slotBytes p.slots).drop 2).take 2) % 2 ^ 15
      ∀ i, (inner.zipIdx.find? fun e => decide (hTag e.1 = tag) && !(k.got.any fun g => decide (g.1 = e.2))).map (fun e => e.2) = some i →
        ∃ v, exec (.cmp l p) s = .next v ∧ v.mem = s.mem ∧ v.reqs = s.reqs ∧ ∃ k', v.running? k.id = some (q, k') ∧ k'.got = k.got ++ [(i, st)] ∧
          k'.waits = if inner.length ≤ k.got.length + 1 then k.waits.filter (· ≠ waitCmp) else k.waits) ∧
    (p.op = opDBF → s.inRx l p = true → qLocal (p.hiAddr % 1024) ≠ 255 → exec (.dbf l p) s = exec (.doorbell ⟨p.hiAddr % 1024, Nat.mod_lt _ (by decide)⟩ (BitVec.ofNat 32 p.detail)) u) ∧
    (AtPort s l p opTSIG →
      let t := p.hiAddr / 256 % 4
      let c := p.hiAddr / 2 % 128
      let bad : Prop := 1024 ≤ p.hiAddr ∨ p.hiAddr % 2 = 1 ∨ 128 ≤ p.detail
      (bad → ∃ v, exec (.tsig l p) s = .next v ∧ v.clusters = s.clusters ∧ Replies s v p opACK stBadAddress fun _ => True) ∧
      (¬ bad → (s.tower t).fence = 0 → (s.tower t).inTower = true → exec (.tsig l p) s = .next s) ∧
      (¬ bad → (s.tower t).inTower = false → s.cluStatus t c ≠ 0 → ∃ v, exec (.tsig l p) s = .next v ∧ v.clusters = s.clusters ∧
        Replies s v p opACK stLost fun _ => True) ∧
      (¬ bad → (s.tower t).inTower = false → s.cluStatus t c = 0 → ∃ w v, TallyBecomes u w t c p.detail (settled (added (s.tally t c p.detail) p.count)) ∧
        exec (.tsig l p) s = .next v ∧ v.clusters = w.clusters ∧ v.mem = s.mem ∧ Replies s v p opACK stOK fun _ => True)) ∧
    (AtPort s l p opCFL →
      let ps := p.slots.headD 0#128
      let es := cflElems ps ((slotBytes (p.slots.drop 1)).take (cflBytes ps))
      (cflOk ps = false → ∃ v, exec (.cfl l p) s = .next v ∧ v.mem = s.mem ∧
        v.fget lnkErrCntDropped l.t 0 l.p = min (2 ^ (lnkErrCntDropped.hi + 1 - lnkErrCntDropped.lo) - 1) (s.fget lnkErrCntDropped l.t 0 l.p + 1)) ∧
      (∀ fo, cflOk ps = true → fmtOf (bitsOf ps.toNat 7 4) = some fo → p.addr < 0x1F0000000000 →
        let row := es.flatMap fun e => leBytes (fo.width / 8) (fo.round .rne (e.value (cflScale ps))).1
        u.someHeld l.t (row.length / 128 + 2) p.addr row.length = false →
        ∃ v, exec (.cfl l p) s = .next v ∧ v.mem = (u.gwriteB (linkAgent l p) (BitVec.ofNat 64 p.addr) row).s.mem ∧
          Replies s v p opACK ((u.gwriteB (linkAgent l p) (BitVec.ofNat 64 p.addr) row).st % 2 ^ 16) fun _ => True))) ∧
  (∀ (s : State) (l : PortRef) (p : LinkPkt),
    (AtPort s l p opHRD → (s.bridging = false → ∃ v, exec (.hrd l p) s = .next v ∧ v.mem = s.mem ∧ Replies s v p opRDR stFaultLink fun _ => True) ∧
      (s.bridging = true → ∃ v, exec (.hrd l p) s = .next v ∧ v.mem = s.mem ∧ Replies s v p opRDR stOK fun k =>
        (slotBytes k.slots).take p.count = (List.range p.count).map fun i => SMap.get 0#8 s.mem.host (p.addr % 2 ^ 62 + i))) ∧
    (AtPort s l p opHWR → (s.bridging = false → ∃ v, exec (.hwr l p) s = .next v ∧ v.mem = s.mem ∧ Replies s v p opACK stFaultLink fun _ => True) ∧
      (s.bridging = true → ∃ v, exec (.hwr l p) s = .next v ∧ { v.mem with host := s.mem.host } = s.mem ∧ Replies s v p opACK stOK (fun _ => True) ∧
        (∀ i b, (slotData p.addr p.count p.poison p.slots)[i]? = some b → SMap.get 0#8 v.mem.host (p.addr + i) = dataOf b) ∧
        ∀ a, a < p.addr ∨ p.addr + (slotData p.addr p.count p.poison p.slots).length ≤ a → SMap.get 0#8 v.mem.host a = SMap.get 0#8 s.mem.host a)) ∧
    (p.op = opHIRQ → s.inRx l p = true → exec (.hirq l p) s = .next (if s.bridging then (s.takeRx l p).emit (.msix (p.detail % 2048)) else s.takeRx l p)) ∧
    (p.op = opMNT → s.inRx l p = true → ∃ v r, exec (.mnt l p) s = .next v ∧ v.mem = s.mem ∧
      SMap.get [] (v.port l.t l.p).txq 1 = SMap.get [] (s.port l.t l.p).txq 1 ++ [r] ∧ r.op = opMNR ∧ r.dst = p.src ∧ r.agent = p.agent ∧
      r.tag = p.tag ∧ r.count = p.count ∧ r.status = (if s.mod.ready = true ∧ s.mod.verified = true then stOK else stBadState)))

/-! ## Queues -/

/-- DOORBELL, BAR0_DOORBELL and CHEAD_WRITE (R350, R356, R357, R440): a doorbell that lies between the tail and the ring's end
moves the tail, and its stamp is kept; any other, and one to a disabled queue, only counts; one of a fenced tower counts as
such. The host's doorbell rings the module's own queue, but for a management queue; for another module it leaves as a DBF,
and behind that module's outstanding BAR2 writes it waits; one for a slot that is not valid only leaves a note. A chead
beyond ctail is ignored. -/
def Obligations.DoorbellsMoveTheTail : Prop :=
  ∀ (s : State) (q : Fin 1024) (tail : W32) (slot : Fin 64) (t : Nat),
    let y := s.queue q
    let d := (tail - y.head).toNat
    let n := (y.tail - y.head).toNat
    let counts (f : Fld) (x i : Nat) : Prop := ∃ u, exec (.doorbell q tail) s = .next u ∧ { u with regs := s.regs } = s ∧
      u.fget f x 0 i = min (2 ^ (f.hi + 1 - f.lo) - 1) (s.fget f x 0 i + 1)
    let turns (v : Queue) (u : State) : Prop := { u with queues := s.queues } = s ∧ u.queue q = v ∧ ∀ j, j ≠ q.val → u.queue j = s.queue j
    ((s.tower (qTower q)).fence ≠ 0 → counts hltFenceFencedDb 0 0) ∧
    ((s.tower (qTower q)).fence = 0 → s.qEnabled q = false ∨ d < n ∨ 2 ^ s.qSize q < d → counts cmdQstatBadDb (qTower q) (qLocal q)) ∧
    (s.qEnabled q = true → n ≤ d → d ≤ 2 ^ s.qSize q → ∃ u, exec (.doorbell q tail) s = .next u ∧
      turns { y with tail := tail, bells := y.bells ++ [(tail.toNat, s.stamp (qTower q))] } u) ∧
    (s.hostUp = false → exec (.bar0Doorbell slot q tail) s = .next s) ∧
    (s.hostUp = true → exec (.bar0Doorbell 0 q tail) s = if qLocal q = 255 then .next s else exec (.doorbell q tail) s) ∧
    (s.hostUp = true → s.mod.bridge = some t → slot ≠ 0 →
      (s.slotModule t slot = none → ∃ u, exec (.bar0Doorbell slot q tail) s = .next u ∧ { u with regs := s.regs } = s ∧
        u.fget brgStatusDroppedDb t = 1) ∧
      (∀ m, s.slotModule t slot = some m → s.dbWaits m s.mod.nextId = true → ∃ u, exec (.bar0Doorbell slot q tail) s = .next u ∧
        { u with mod := s.mod } = s ∧ u.mod = { s.mod with heldDb := s.mod.heldDb ++ [(m, q.val, tail.toNat, s.mod.nextId)] }) ∧
      (∀ m, s.slotModule t slot = some m → s.dbWaits m s.mod.nextId = false → s.mod.moduleId ≠ none →
        s.mod.moduleId ≠ some (BitVec.ofNat 12 m) → s.routePorts m ≠ [] →
        ∃ u, exec (.bar0Doorbell slot q tail) s = .next u ∧ u.queues = s.queues ∧ u.mem = s.mem ∧
          ∃ e ∈ s.routePorts m, ∃ (v : Nat) (p : LinkPkt), SMap.get [] (u.port e.2.1 e.2.2).txq v = SMap.get [] (s.port e.2.1 e.2.2).txq v ++ [p] ∧
            p.op = opDBF ∧ p.dst = m ∧ p.hiAddr % 1024 = q.val ∧ p.detail = tail.toNat)) ∧
    (∃ u, exec (.cheadWrite q tail) s = .next u ∧
      turns { y with chead := if (y.ctail - y.chead).toNat < (tail - y.chead).toNat then y.chead else tail } u)

/-- BAR2_ACCESS, PCIE_PERST, PCIE_LINK_UP and PCIE_LINK_DOWN (R33, R348, R351, R419): an access of a slot that is not valid ends
with an Unsupported Request, or an AER entry; one of the module's own slot is performed at its homes in class 6 and its error
reported so too; while the firmware is taken from the host, the slot maps the staging area. The link trains only at a rate
and width of Table 11-8 with PCIE_PERST_N high; it goes down with it, and with it the bridge's status. -/
def Obligations.TheBridgeServesTheHost : Prop :=
  ∀ (s : State) (t : Nat) (slot : Fin 64) (off n : Nat) (bs : List Byte), s.mod.bridge = some t → n ≠ 0 → bs ≠ [] →
    let at_ := fld (s.reg ⟨.brgDir, t, 0, slot, 0⟩) 47 26 * 2 ^ 26 + off
    let rd (u : State) : Prop := exec (.bar2Access slot off (.read n)) s = .next u
    let wr (u : State) : Prop := exec (.bar2Access slot off (.write bs)) s = .next u
    (s.hostUp = false → rd s ∧ wr s) ∧
    (s.hostUp = true → s.staged? = true → slot = 0 →
      (off + n ≤ 2 ^ 26 → rd (s.emit (.bar2 0 ((List.range n).map fun i => clean (SMap.get 0#8 s.mod.stage (off + i)))))) ∧
      (off + bs.length ≤ 2 ^ 26 → ∃ u, wr u ∧ { u with mod := s.mod } = s ∧ { u.mod with stage := s.mod.stage } = s.mod ∧
        (∀ i b, bs[i]? = some b → SMap.get 0#8 u.mod.stage (off + i) = b) ∧
        ∀ a, a < off ∨ off + bs.length ≤ a → SMap.get 0#8 u.mod.stage a = SMap.get 0#8 s.mod.stage a)) ∧
    (s.hostUp = true → s.staged? = false → s.slotModule t slot = none →
      rd (s.emit (.bar2 1 [])) ∧ ∃ u, wr u ∧ u.mem = s.mem ∧ u.out = .aer :: s.out) ∧
    (∀ m, s.hostUp = true → s.staged? = false → s.slotModule t slot = some m → slot.val = 0 ∨ m = s.selfId →
      (s.someHeld t (n / 128 + 2) at_ n = false → ∃ u, rd u ∧
        let r := s.gread (hostAgent t s.mod.nextId) (BitVec.ofNat 64 at_) n
        u.mem = r.s.mem ∧ u.out = .bar2 (if r.st = 0 then 0 else if r.st = stBadAddress then 1 else 2) (if r.st = 0 then r.data else []) :: r.s.out) ∧
      (s.someHeld t (n / 128 + 2) at_ n = true → ∃ u r, rd u ∧ u.mem = s.mem ∧ u.out = s.out ∧ u.reqs = s.reqs ++ [r] ∧
        r.addr = BitVec.ofNat 64 at_ ∧ r.op = .load n ∧ r.cls = 6 ∧ r.held = some (s.stamp t))) ∧
    (∃ u, exec (.pciePerst true) s = .next u ∧ { u with mod := s.mod } = s ∧ u.mod = { s.mod with perstN := true }) ∧
    (∃ u, exec (.pciePerst false) s = .next u ∧ u.mod.perstN = false ∧ u.mod.linkUp = false ∧ u.mod.heldDb = [] ∧
      u.reg ⟨.brgStatus, t, 0, 0, 0⟩ = RegName.resetWord .brgStatus ∧ u.mem = s.mem ∧ ∀ r ∈ u.reqs, r ∈ s.reqs ∧ ∀ k, r.owner ≠ .host k) ∧
    (∀ rate width, let u := { s with mod := { s.mod with linkUp := true, pcieRate := rate, pcieWidth := width } }
      exec (.pcieLinkUp rate width) s = .next
        (if s.mod.perstN = true ∧ s.mod.linkUp = false ∧ 1 ≤ rate ∧ rate ≤ 6 ∧ 1 ≤ width ∧ width ≤ 3 then u else s)) ∧
    exec .pcieLinkDown s = .next { s with mod := { s.mod with linkUp := false, pcieRate := 0, pcieWidth := 0 } }

/-- The first failing check of R359 on a packet of a queue, in their order: opcode, header and flags, length, permission,
reserved bytes and encodings. PACKET_FETCH (R355, R358, R359): a packet in a ring of host memory behind the module's own link
leaves the ring, whole, when the doorbell covers it; it takes the stamp of the doorbell that covered it; a failing check
rejects it, with start and end at that stamp's tower's present stamp, and else it is the queue's next. Nothing is fetched
while the next packet waits, or at the tail. COMPLETION_WRITE (R352, R357, R358): the oldest completion of a queue is written
at ctail of a ring in host memory with its tag, status, clamp mask, stamps, energy, detail and phase, ctail advances, and a
status other than OK or the irq flag raises the queue's vector; a final entry waits while the ring is full. -/
def Obligations.PacketsAreCheckedFetchedAndCompleted : Prop :=
  (∀ (s : State) (q : Nat) (p : Packet), p.length = 8 * (hLength p + 1) →
    let op := hOpcode p
    let known := [0x00, 0x01, 0x10, 0x11, 0x13, 0x14, 0x15, 0x16, 0x20, 0x21, 0x22, 0x30, 0x31, 0x32, 0x40, 0x41, 0x42, 0x50, 0x51, 0x52, 0x60,
      0x61, 0x62, 0x70, 0x71, 0x72, 0x73, 0x80, 0x81, 0x90, 0x91]
    (op ∉ known → s.headerStatus q p = stBadOpcode) ∧
    (op ∈ known → fld (wordAt p 0) 31 24 ≠ 0 ∨ bit (wordAt p 0) 11 = true ∨ 7 < hClass p → s.headerStatus q p = stBadOpcode) ∧
    (op ∈ known → fld (wordAt p 0) 31 24 = 0 → bit (wordAt p 0) 11 = false → hClass p ≤ 7 → hFlags p = 0 →
      (op ∉ [0x10, 0x20, 0x40, 0x91] → hLength p ≠ 0 → s.headerStatus q p = stBadLength) ∧
      (op = 0x20 → hLength p ≠ 1 → s.headerStatus q p = stBadLength) ∧
      (op ∈ [0x50, 0x52, 0x60, 0x72, 0x73, 0x90] → hLength p = 0 → s.qMaster q = 2 → s.headerStatus q p = stRefused) ∧
      (op = 0x73 → hLength p = 0 → s.qget cmdQcfgInject q = 0 → s.headerStatus q p = stRefused) ∧
      (op = 0x00 → hLength p = 0 → (∀ i, 1 ≤ i → i < 8 → wordAt p i = 0#64) → s.headerStatus q p = stOK) ∧
      (op = 0x00 → hLength p = 0 → (∃ i, 1 ≤ i ∧ i < 8 ∧ wordAt p i ≠ 0#64) → s.headerStatus q p = stBadOpcode))) ∧
  (∀ (s : State) (q : Fin 1024),
    let y := s.queue q
    let size := 2 ^ s.qSize q
    let ring := (s.reg (qLoc .cmdQring q)).toNat / 64 * 64
    let entry (i : Nat) : List Byte := (List.range 64).map fun b => SMap.get 0#8 s.mem.host ((ring + 64 * ((y.head.toNat + i) % size)) % 2 ^ 62 + b)
    let n := (entry 0).getD 2 0#8 % 16#8
    let p := wordsOf (8 * (n.toNat + 1)) ((List.range (n.toNat + 1)).flatMap entry)
    let head := y.head + BitVec.ofNat 32 (n.toNat + 1)
    (y.next ≠ none ∨ y.head = y.tail ∨ s.qEnabled q = false ∨ s.mod.ready = false → exec (.packetFetch q) s = .next s) ∧
    (s.dispatching q = true → s.qEnabled q = true → y.next = none → y.head ≠ y.tail → qLocal q ≠ 255 → s.needs = [] → s.sends = [] →
      (∀ r ∈ s.reqs, r.owner ≠ fetchOwner q) → ring + 64 * size ≤ 2 ^ 63 → 2 ^ 62 ≤ ring → s.hostWay = .direct → y.remote = [] →
      n.toNat + 1 ≤ (y.tail - y.head).toNat →
      ∃ u, exec (.packetFetch q) s = .next u ∧ u.mem = s.mem ∧ u.regs = s.regs ∧ (u.queue q).head = head ∧ (u.queue q).tail = y.tail ∧
        (∀ j, j ≠ q.val → u.queue j = s.queue j) ∧ u.mod.nextId = s.mod.nextId + 1 ∧
        let e := s.checkPacket q p none
        (e.1 = 0 → ∃ k, (u.queue q).next = some k ∧ k.words = p ∧ k.id = s.mod.nextId ∧ k.begun = false ∧ k.accepted = false ∧
          (u.queue q).done = y.done ∧
          k.bell = ((y.bells.find? fun b => covers (BitVec.ofNat 32 b.1) head).map fun b => b.2).getD (s.stamp (qTower q))) ∧
        (e.1 ≠ 0 → (u.queue q).next = none ∧ ∃ c, (u.queue q).done = y.done ++ [c] ∧ c.tag = hTag p ∧ c.status = e.1 ∧ c.detail = e.2 ∧
          c.clamp = 0 ∧ c.start = s.stamp (qTower q) ∧ c.end_ = s.stamp (qTower q) ∧ c.energy = 0))) ∧
  (∀ (s : State) (q : Fin 1024) (c : Compl) (rest : List Compl), (s.queue q).running = [] → (s.queue q).done = c :: rest → (s.queue q).irqs = 0 →
    (∀ r ∈ s.reqs, r.owner ≠ entryOwner q) → s.sends = [] → s.needs = [] → qLocal q ≠ 255 → c.interim = false → c.reply = none → c.quiet = false →
    s.hostWay = .direct →
    let y := s.queue q
    let cs := s.qCsize q
    let ring := (s.reg (qLoc .cmdQcring q)).toNat / 32 * 32
    let a := ring + 32 * (y.ctail.toNat % 2 ^ cs)
    (2 ^ cs ≤ (y.ctail - y.chead).toNat → exec (.completionWrite q) s = .next s) ∧
    ((y.ctail - y.chead).toNat < 2 ^ cs → 2 ^ 62 ≤ ring → ring + 32 * 2 ^ cs ≤ 2 ^ 63 →
      ∃ u, exec (.completionWrite q) s = .next u ∧ (u.queue q).done = rest ∧ (u.queue q).ctail = y.ctail + 1#32 ∧ (u.queue q).chead = y.chead ∧
        (∀ j, j ≠ q.val → u.queue j = s.queue j) ∧ { u.mem with host := s.mem.host } = s.mem ∧ u.regs = s.regs ∧
        (∀ x, x < a % 2 ^ 62 ∨ a % 2 ^ 62 + 32 ≤ x → SMap.get 0#8 u.mem.host x = SMap.get 0#8 s.mem.host x) ∧
        (let at_ (off n : Nat) : Nat := leNat ((List.range n).map fun i => SMap.get 0#8 u.mem.host (a % 2 ^ 62 + off + i))
         at_ 0 2 = c.tag % 2 ^ 16 ∧ at_ 2 2 = c.status % 2 ^ 15 + 2 ^ 15 * ((1 + y.ctail.toNat / 2 ^ cs) % 2) ∧ at_ 4 4 = c.clamp % 2 ^ 32 ∧
           at_ 8 8 = c.start % 2 ^ 64 ∧ at_ 16 8 = c.end_ % 2 ^ 64 ∧ at_ 24 4 = min c.energy (2 ^ 32 - 1) ∧ at_ 28 4 = c.detail % 2 ^ 32) ∧
        u.out = (if c.irq = true ∨ c.status ≠ stOK then [.msix (s.qget cmdQcfgMsix q)] else []) ++ s.out))

/-- PACKET_START, CLASS7_ACCEPT and CLASS7_START (R361, R362, R364, R376, R377, R401): of the packets that can start on a tower
one of the highest class does, and takes the stamp; a class-7 packet is accepted while its tower holds fewer than the limit,
starts in the order of acceptance when the reserve covers it, and tells by an interim DEFERRED_POWER that it does not.
PACKET_DEADLINE (R363, Table 12-4): a packet whose deadline has passed before it starts completes with TIMEOUT without
starting; a running FENCE or TALLY_WAIT ends with TIMEOUT, a LAUNCH stops its teams with it, and a command that Table 12-4
does not stop goes on. Nothing happens before the deadline. -/
def Obligations.PacketsStartAndMeetDeadlines : Prop :=
  (∀ (s : State) (q : Fin 1024) (k : Pkt), (s.queue q).next = some k →
    let t := qTower q
    let c := s.pktClass q k.words
    let started (u : State) : Prop := (u.queue q).next = none ∧ (u.queue q).done = (s.queue q).done ∧
      (u.queue q).running = (s.queue q).running ++ [{ k with start := s.stamp t, begun := false }] ∧ (∀ j, j ≠ q.val → u.queue j = s.queue j) ∧
      k.id ∉ (u.tower t).c7Order ∧ k.id ∉ (u.tower t).runNextIds ∧ u.mem = s.mem ∧ u.regs = s.regs
    let waits (u : State) : Prop := (u.queue q).next = some k ∧ (u.queue q).running = (s.queue q).running ∧ (u.queue q).done = (s.queue q).done
    (c ≤ 7 ∧ (hDeadline k.words = 0 → c < 7) ∧ c ≤ hClass k.words) ∧
    (c ≠ 7 → s.choice t = some q.val → ∃ u, exec (.packetStart q) s = .next u ∧ started u ∧ u.clusters = s.clusters) ∧
    (c ≠ 7 → s.choice t ≠ some q.val → ∃ u, exec (.packetStart q) s = .next u ∧ waits u) ∧
    (SMap.sorted s.queues → ∀ a, s.choice t = some a → ∃ x, (s.queue a).next = some x ∧ s.startable a x = true ∧
      ∀ b y, (s.queue b).next = some y → qTower b = t → s.startable b y = true → s.pktClass b y.words ≤ s.pktClass a x.words) ∧
    (s.startable q k = true → s.dispatching q = true ∧ s.cringFull q = false ∧ s.late q k = false ∧
      (∀ x ∈ (s.queue q).running, orderly x.words = false) ∧ (orderly k.words = true → (s.queue q).running = [])) ∧
    (c = 7 → s.startable q k = true → ∃ u, exec (.class7Start q) s = .next u ∧ started u) ∧
    (c = 7 → s.startable q k = false → exec (.class7Start q) s = .next s) ∧
    (c = 7 → k.accepted = false → s.dispatching q = true →
      let limit := max 1 (min 64 (s.fget cmdDispatchClass7QueueLimit t))
      (limit ≤ (s.tower t).c7Order.length → ∃ u, exec (.class7Accept q) s = .next u ∧ waits u ∧ (u.queue q).heldC7 = true) ∧
      ((s.tower t).c7Order.length < limit → ∃ u, exec (.class7Accept q) s = .next u ∧ (u.queue q).next = some { k with accepted := true } ∧
        (u.tower t).c7Order = (s.tower t).c7Order ++ [k.id] ∧ (u.queue q).running = (s.queue q).running ∧
        (s.covered q k.words = true → (u.queue q).done = (s.queue q).done ∧ u.regs = s.regs) ∧
        (s.covered q k.words = false → ∃ x, (u.queue q).done = (s.queue q).done ++ [x] ∧ x.status = stDeferred ∧ x.interim = true ∧
          x.tag = hTag k.words ∧ x.start = s.stamp t ∧ x.detail = s.estimateMj q k.words ∧
          u.fget cmdC7Deferred t = min (2 ^ (cmdC7Deferred.hi + 1 - cmdC7Deferred.lo) - 1) (s.fget cmdC7Deferred t + 1))))) ∧
  (∀ (s : State) (q : Fin 1024) (k : Pkt),
    let due := hDeadline k.words ≠ 0 ∧ k.bell + 200 * hDeadline k.words ≤ s.stamp (qTower q)
    ((s.queue q).next = some k →
      (¬ due → exec (.packetDeadline q k.id) s = .next s) ∧
      (due → ∃ u, exec (.packetDeadline q k.id) s = .next u ∧ (u.queue q).next = none ∧ (u.queue q).running = (s.queue q).running ∧ u.mem = s.mem ∧
        ∃ c, (u.queue q).done = (s.queue q).done ++ [c] ∧ c.tag = hTag k.words ∧ c.status = stTimeout ∧ c.start = s.stamp (qTower q) ∧
          c.end_ = s.stamp (qTower q))) ∧
    ((s.queue q).next = none → (s.queue q).running.find? (fun x => decide (x.id = k.id)) = some k → s.running? k.id = some (q.val, k) → k.status = 0 →
      (¬ due → exec (.packetDeadline q k.id) s = .next s) ∧
      (due → hOpcode k.words ∈ [0x01, 0x31] → ∃ u, exec (.packetDeadline q k.id) s = .next u ∧
        (u.queue q).running = (s.queue q).running.filter (fun x => decide (x.id ≠ k.id)) ∧ u.mem = s.mem ∧
        (∀ r ∈ u.reqs, r.owner ≠ cmdOwner q k.id) ∧
        ∃ c, (u.queue q).done = (s.queue q).done ++ [c] ∧ c.tag = hTag k.words ∧ c.status = stTimeout ∧ c.start = k.start) ∧
      (due → hOpcode k.words = 0x20 → k.begun = true → ∃ u, exec (.packetDeadline q k.id) s = .next u ∧ u.queues = s.queues ∧ u.mem = s.mem ∧
        (∀ l ∈ u.mod.launches, l.id = k.id → l.status ≠ 0) ∧
        ∀ e ∈ u.clusters, ∀ tm, e.2.team = some tm → tm.launch = k.id → tm.stopped = true) ∧
      (due → hOpcode k.words ∈ [0x00, 0x14, 0x16, 0x21, 0x30, 0x40, 0x41, 0x50, 0x52, 0x60] → exec (.packetDeadline q k.id) s = .next s)))

/-! ## Commands -/

/-- NOP, FENCE, TALLY_SET, TALLY_WAIT, TALLY_SIGNAL, MATRIX and REMOTE (R156, R158, R341, R365, R367, R369): NOP completes and
changes nothing; a FENCE of scope 4 with no write-back under way drops every far line; TALLY_SET sets count, target and auto
and clears done, TALLY_SIGNAL arrives on its tally, after which a tally that is due completes once, TALLY_WAIT completes at
once when its condition holds and else waits; MATRIX queues its jobs in order and waits for them; REMOTE sends its packets in
one CMD. A command on an absent cluster is refused with RESOURCE_LOST. -/
def Obligations.CommandsActOnTalliesAndEngines : Prop :=
  ∀ (s : State) (q : Fin 1024) (k : Pkt),
    let p := k.words
    let t := pbytes p 8 1
    let c := pbytes p 9 1
    let n := pbytes p 10 1
    let here := t ≤ 3 ∧ c ≤ 127 ∧ n ≤ 127 ∧ s.cluStatus t c = 0 ∧ (s.tower t).inTower = false
    (Due s q 0x00 k → Completes (.nopCommand q p) s q k stOK 0 0 (· = s)) ∧
    (Due s q 0x01 k → hFlags p = 0 → pbytes p 8 1 = 4 → k.begun = true → s.backsLeft k.id = false →
      Completes (.fenceCommand q p) s q k stOK 0 0 fun u => (∀ e ∈ u.mem.pantry, e.1 / 2 ^ 25 < 4 → ∀ x, e.2 = some x → x.far = none) ∧
        u.mem.hbm = s.mem.hbm ∧ u.mem.cells = s.mem.cells ∧ u.queues = s.queues ∧ u.clusters = s.clusters) ∧
    (Due s q 0x30 k → (3 < t ∨ 127 < c ∨ 127 < n → Refuses (.tallySet q p) s q k stBadAddress) ∧
      (t ≤ 3 → c ≤ 127 → n ≤ 127 → s.cluStatus t c = stLost → Refuses (.tallySet q p) s q k stLost) ∧
      (here → Completes (.tallySet q p) s q k stOK 0 0 fun u =>
        (let count := BitVec.ofNat 32 (pbytes p 12 4)
         let target := BitVec.ofNat 32 (pbytes p 16 4)
         let auto : Bool := decide (pbytes p 11 1 % 2 = 1)
         let z : Tally := { s.tally t c n with count := count, target := target, auto := auto, done := false }
         u.tally t c n = if target ≠ 0#32 ∧ target.toNat ≤ count.toNat then
           (if auto then { z with phase := !z.phase, count := count - target } else { z with phase := !z.phase, done := true }) else z) ∧
        (∀ a b m, cluKey a b ≠ cluKey t c ∨ m ≠ n → u.tally a b m = s.tally a b m) ∧ u.mem = s.mem ∧ u.regs = s.regs ∧ u.bunches = s.bunches)) ∧
    (Due s q 0x32 k → pbytes p 8 2 / 2 ^ 15 = 1 →
      let a := pbytes p 10 1
      let b := pbytes p 11 1
      let m := pbytes p 12 1
      a ≤ 3 → b ≤ 127 → m ≤ 127 → s.cluStatus a b = 0 → (s.tower a).inTower = false →
      Completes (.tallySignal q p) s q k stOK 0 0 fun u => u.tally a b m = ((s.tally a b m).arrive (pbytes p 16 4)).complete ∧
        (∀ x y z, cluKey x y ≠ cluKey a b ∨ z ≠ m → u.tally x y z = s.tally x y z) ∧ u.mem = s.mem ∧ u.regs = s.regs ∧ u.bunches = s.bunches) ∧
    (Due s q 0x32 k → pbytes p 8 2 / 2 ^ 15 = 0 → 3 < pbytes p 10 1 ∨ 127 < pbytes p 11 1 → Refuses (.tallySignal q p) s q k stBadAddress) ∧
    (Due s q 0x31 k → here → (tallyMet p t c n (s.tally t c n) = true → Completes (.tallyWait q p) s q k stOK 0 0 (· = s)) ∧
      (tallyMet p t c n (s.tally t c n) = false → Waits (.tallyWait q p) s k 0 [waitTally] (· = s))) ∧
    (Due s q 0x21 k → s.cluReady t c = 0 → (s.tower t).inTower = false →
      let count := max 1 (min 16 (pbytes p 10 1))
      let off := pbytes p 12 2 * 64
      let r := s.shelfRead t c off (64 * count)
      let ds := readDescs r.1 count
      r.2.matrixFault t c off r.1 ds = none → ((r.2.clu t c).arr.queue.length + (r.2.clu t c).arr.runs + count ≤ 32) →
      Waits (.matrix q p) s k (if pbytes p 10 1 < 1 ∨ 16 < pbytes p 10 1 then 4 else 0) [waitJobs] fun u => ∃ js,
        (u.clu t c).arr.queue = (s.clu t c).arr.queue ++ js ∧ js.map (fun j => j.words) = ds ∧ (∀ j ∈ js, j.owner = k.id) ∧
        (u.clu t c).tallies = (s.clu t c).tallies ∧ u.queues = s.queues) ∧
    (Due s q 0x21 k → s.cluStatus t c = stLost → Refuses (.matrix q p) s q k stLost) ∧
    (Due s q 0x91 k → embeddedLength 16 (p.drop 8) ≠ hLength p → Refuses (.remote q p) s q k stBadLength) ∧
    (Due s q 0x91 k → embeddedLength 16 (p.drop 8) = hLength p → 4095 < pbytes p 8 2 ∨ 1023 < pbytes p 10 2 → Refuses (.remote q p) s q k stBadAddress) ∧
    (Due s q 0x91 k → embeddedLength 16 (p.drop 8) = hLength p → pbytes p 8 2 ≤ 4095 → pbytes p 10 2 ≤ 1023 →
      Waits (.remote q p) s k 0 ((if hFlags p % 2 = 1 then [waitCmp] else []) ++ [Wait.replies.code]) fun u => u.mem = s.mem ∧ u.queues = s.queues ∧
        ∃ r, u.reqs = s.reqs ++ [r] ∧ r.id = s.mod.nextId ∧ r.owner = cmdOwner q k.id ∧
          r.op = .packet opCMD (mkRspW (64 * hLength p) 0 (pbytes p 10 2) false) (dataSlots (bytesOf (p.drop 8))))

/-- COPY and FILL (R254, R366, R392): a command that fails a check ends with its status and changes nothing, and one whose grants
are not held waits; COPY mode 0 writes its source rows, mode 1 the transposed ones, in order, and its first uncorrectable row
is reported; FILL writes its pattern of eight bytes from each row's start. A row in host memory is told byte by byte. -/
def Obligations.CopyAndFillWriteRows : Prop :=
  ∀ (s : State) (q : Fin 1024) (k : Pkt),
    let p := k.words
    let g := s.cmdAgent q k
    (Due s q 0x10 k →
      ((s.checkCopy q p).1 ≠ 0 → (s.checkCopy q p).1 < stWait → Refuses (.copy q p) s q k (s.checkCopy q p).1) ∧
      ((s.checkCopy q p).1 = 0 → s.streamsHeld q k.id (copyStreams p) = false → exec (.copy q p) s = .next s) ∧
      ((s.checkCopy q p).1 = 0 → s.streamsHeld q k.id (copyStreams p) = true → cMode p ≤ 1 →
        let r := s.creadRows g (cSrc p) (cRows p) (cSstride p) (cBytes p)
        let rows := r.rows.map fun x => x.map some
        let out := if cMode p = 1 then (List.range (cBytes p * 8 / cWidth p)).map fun j => transposeRow (cWidth p) rows j else rows
        let w := r.s.cwriteRows g (cDst p) (cDstride p) out
        r.st = 0 → Served q k w →
        ((∀ x ∈ r.rows, ∀ b ∈ x, isBad b = false) → Completes (.copy q p) s q k stOK 0 0 fun u => u.mem = w.s.mem) ∧
        (∀ i, i < r.rows.length → (∀ j, j < i → ∀ b ∈ r.rows.getD j [], isBad b = false) → (∃ b ∈ r.rows.getD i [], isBad b = true) →
          Completes (.copy q p) s q k stUncorrectable i 0 fun u => u.mem = w.s.mem)) ∧
      ((s.checkCopy q p).1 = 0 → cMode p = 0 → cRows p = 1 → s.hostWay = .direct → isHost (cSrc p) = true → isHost (cDst p) = true →
        (cSrc p).toNat + cBytes p ≤ 2 ^ 63 → (cDst p).toNat + cBytes p ≤ 2 ^ 63 →
        Completes (.copy q p) s q k stOK 0 0 fun u => { u.mem with host := s.mem.host } = s.mem ∧
          (∀ i, i < cBytes p → SMap.get 0#8 u.mem.host ((cDst p).toNat % 2 ^ 62 + i) = SMap.get 0#8 s.mem.host ((cSrc p).toNat % 2 ^ 62 + i)) ∧
          ∀ a, a < (cDst p).toNat % 2 ^ 62 ∨ (cDst p).toNat % 2 ^ 62 + cBytes p ≤ a → SMap.get 0#8 u.mem.host a = SMap.get 0#8 s.mem.host a)) ∧
    (Due s q 0x11 k →
      ((s.checkFill q p).1 ≠ 0 → (s.checkFill q p).1 < stWait → Refuses (.fill q p) s q k (s.checkFill q p).1) ∧
      ((s.checkFill q p).1 = 0 → fillValue p = false → fillRows p = 1 → s.hostWay = .direct → isHost (wordAt p 1) = true →
        (wordAt p 1).toNat + fillBytes p ≤ 2 ^ 63 →
        Completes (.fill q p) s q k stOK 0 0 fun u => { u.mem with host := s.mem.host } = s.mem ∧
          (∀ i, i < fillBytes p → SMap.get 0#8 u.mem.host ((wordAt p 1).toNat % 2 ^ 62 + i) = BitVec.ofNat 8 (pbytes p (32 + i % 8) 1)) ∧
          ∀ a, a < (wordAt p 1).toNat % 2 ^ 62 ∨ (wordAt p 1).toNat % 2 ^ 62 + fillBytes p ≤ a →
            SMap.get 0#8 u.mem.host a = SMap.get 0#8 s.mem.host a))

/-- CONFIG, FORMAT_POLICY, POWER_BUDGET, DOMAIN_STATE and LINK_CTL (R131, R334, R359, R371, R372, R375, R404): a packet that
fails its checks is refused; else its orders, with their targets and values, are accepted at the present tick and it waits
for the next. -/
def Obligations.OrdersAreAccepted : Prop :=
  ∀ (s : State) (q : Fin 1024) (k : Pkt),
    let p := k.words
    let t := pbytes p 8 1
    let n := pbytes p 10 1
    let new : List Order := (s.ordersOf q p ++ [(tgtMark k.id, 0)]).map fun (x : List Nat × Nat) => ⟨x.1, x.2, q, k.id, s.stamp s.mod.lead / 200, false⟩
    (∀ i op (own : Bool), (i, op, own) ∈ [(Instr.configCmd q p, 0x40, true), (.formatPolicy q p, 0x42, true), (.powerBudget q p, 0x50, true)
        , (.domainStateOn q p, 0x52, decide (pbytes p 11 1 = 0)), (.domainStateOff q p, 0x52, decide (pbytes p 11 1 = 1))
        , (.domainStateCap q p, 0x52, decide (pbytes p 11 1 = 2)), (.linkCtl q p, 0x90, decide (pbytes p 8 1 ≤ 1))] → own = true → Due s q op k →
      ((s.checkOrder q p).1 ≠ 0 → Refuses i s q k (s.checkOrder q p).1) ∧
      ((s.checkOrder q p).1 = 0 → Waits i s k 0 [waitOrder] fun u => u = { s with mod := { s.mod with orders := s.mod.orders ++ new } })) ∧
    (hOpcode p = 0x40 → ((recFields (gRec p)).length < gCount p → gRec p ≠ 0x0401 → gRec p ∈ [0x0301, 0x0801, 0x0901, 0x0A01, 0x0B01, 0x0C01, 0x0C02, 0x0D01, 0x0E01] →
        (s.checkOrder q p).1 = stBadLength) ∧
      (gRec p ∉ [0x0301, 0x0401, 0x0801, 0x0901, 0x0A01, 0x0B01, 0x0C01, 0x0C02, 0x0D01, 0x0E01] → (s.checkOrder q p).1 = stBadAddress)) ∧
    (hOpcode p = 0x42 → (s.checkOrder q p).1 =
      if 9 < pbytes p 12 1 then stBadLength else if pbytes p 10 2 < pbytes p 8 2 then stBadAddress else 0) ∧
    (hOpcode p = 0x50 → (s.checkOrder q p).1 = 0) ∧
    (hOpcode p = 0x52 → (3 < t → (s.checkOrder q p).1 = stBadAddress) ∧
      (t ≤ 3 → n ≤ 127 → pbytes p 9 1 = 0 → (s.tower t).fence ≠ 0 ∨ (s.clu t n).absent = true → (s.checkOrder q p).1 = stLost) ∧
      (t ≤ 3 → n ≤ 127 → pbytes p 9 1 = 0 → (s.tower t).fence = 0 → (s.clu t n).absent = false →
        (s.checkOrder q p).1 = if pbytes p 11 1 = 1 ∧ s.occupied t n = true then stBadState else 0)) ∧
    (hOpcode p = 0x90 → (pbytes p 8 1 = 0 → (s.checkOrder q p).1 = if 4095 < pbytes p 10 2 then stBadAddress else 0) ∧
      (pbytes p 8 1 = 1 → pbytes p 10 2 ≤ 4095 → 1 ≤ pbytes p 9 1 → pbytes p 9 1 ≤ 63 →
        (s.checkOrder q p).1 = if s.mod.bridge = none then stBadState else 0)) ∧
    (Due s q 0x90 k → 2 ≤ pbytes p 8 1 → let e := lcPort p
      ((s.tower e.1).fence ≠ 0 → Refuses (.linkCtl q p) s q k stLost) ∧
      ((s.tower e.1).fence = 0 → (s.port e.1 e.2).mode = .disabled ∨ (s.port e.1 e.2).mode = .bridge → Refuses (.linkCtl q p) s q k stBadState) ∧
      ((s.tower e.1).fence = 0 → (s.port e.1 e.2).mode = .up → (s.port e.1 e.2).retrains < s.retrainLimit e.1 →
        Completes (.linkCtl q p) s q k stOK 0 0 fun u => (u.port e.1 e.2).mode = .training ∧
          (u.port e.1 e.2).retrains = (s.port e.1 e.2).retrains + 1))

/-- DISPATCH_TICK (R131, R334, R372, R375, R391, R404, R405, R407): before READY nothing happens. Of two packets that order
different module budgets in one tick, of masters of one kind, the higher one is superseded by the lower; a packet alone
applies its orders: budgets within their ranges; an awake cluster stays awake, one in retention gets a pending wake, one
switched off is in retention; a cap between the standing current and the hardware cap; a route in every tower; a policy and a
record are staged, and the packet waits for their commit. GUARD_POLICY_COMMIT (R132, R140): a staged policy becomes the
entry's own and no other's; clear bit 0 zeroes its counts on every tower, and leaves its last SQNR and its escalation; a
packet that waited for this alone completes. -/
def Obligations.TheDispatchTickAppliesOrders : Prop :=
  (∀ (s : State) (q : Nat) (k : Pkt),
    let p := k.words
    let t := pbytes p 8 1
    let c := pbytes p 10 1
    (s.mod.ready = false → exec .dispatchTick s = .next s) ∧
    (∀ (r : Nat) (x : Pkt) (a b n : Nat), s.mod.ready = true → n < s.tickNow → k.id ≠ x.id → a < b → s.qMaster q = s.qMaster r →
      s.running? k.id = some (q, k) → s.running? x.id = some (r, x) → x.status = 0 → hOpcode x.words = 0x50 → hOpcode k.words = 0x50 →
      s.mod.orders = [⟨tgtModule, a, q, k.id, n, false⟩, ⟨tgtModule, b, r, x.id, n, false⟩] →
      s.needs = [] → s.sends = [] → (∀ y ∈ s.reqs, y.owner ≠ cmdOwner q k.id) →
      ∃ u, exec .dispatchTick s = .next u ∧ (∀ y ∈ (u.queue r).running, y.id ≠ x.id) ∧ (∃ e ∈ (u.queue r).done, e.tag = hTag x.words ∧ e.status = stSuperseded ∧
          e.detail = q * 2 ^ 16 + hTag k.words) ∧
        ∀ y, y < 4 → pbModule p = a → s.mod.variant = .x → 2000 ≤ a → a ≤ 7200 → u.fget pwrBudgetModuleW y = a) ∧
    (Alone s q k → hOpcode p = 0x50 →
      let lo := if s.mod.variant = .x then 2000 else 1500
      let hi := if s.mod.variant = .x then 7200 else 3600
      let most := if s.mod.variant = .x then 2000 else 1200
      let m := if pbModule p = 0 then s.fget pwrBudgetModuleW s.mod.lead else max lo (min hi (pbModule p))
      let want (x : Nat) : Nat := if (s.tower x).fence ≠ 0 then 0 else if pbTower p x = 0 then s.fget pwrBudgetTowerW x else max 370 (min most (pbTower p x))
      let clamp := (if pbModule p ≠ 0 ∧ m ≠ pbModule p then 1 else 0) +
        ((List.range 4).map fun x => if pbTower p x ≠ 0 ∧ want x ≠ pbTower p x then 2 ^ (1 + x) else 0).sum
      want 0 + want 1 + want 2 + want 3 ≤ m →
      Completes .dispatchTick s q k (if clamp = 0 then stOK else stClamped) 0 clamp fun u =>
        (∀ x, x < 4 → u.fget pwrBudgetModuleW x = m ∧ u.fget pwrBudgetTowerW x = want x) ∧ u.mem = s.mem ∧ u.mod.orders = []) ∧
    (Alone s q k → hOpcode p = 0x52 → (s.checkDomain q p).1 = 0 → pbytes p 9 1 = 0 →
      (pbytes p 11 1 = 0 → (s.clu t c).dom = .on → Completes .dispatchTick s q k stOK 0 0 fun u => u.clusters = s.clusters ∧ u.towers = s.towers) ∧
      (pbytes p 11 1 = 0 → (s.clu t c).dom = .retention → ∃ u, exec .dispatchTick s = .next u ∧ GoesOn u q k stOK 0 0 [(Wait.wake t c).code] ∧
        (u.tower t).hot = insertUp c (s.tower t).hot ∧ u.clusters = s.clusters) ∧
      (pbytes p 11 1 = 1 → Completes .dispatchTick s q k stOK 0 0 fun u => (u.clu t c).dom = .retention ∧ (u.clu t c).team = none ∧
        (u.clu t c).cache = [] ∧ u.mem.shelf = s.mem.shelf) ∧
      (pbytes p 11 1 = 2 → let d := s.phys t c
        let cap := if pbytes p 12 4 = 0 then 0 else max (cdiv (s.standing160 t c) 10) (min (s.hwCap t d) (pbytes p 12 4))
        let clamp := if cap = pbytes p 12 4 then 0 else 1
        Completes .dispatchTick s q k (if clamp = 0 then stOK else stClamped) 0 clamp fun u => SMap.get 0 (u.tower t).domCap d = cap ∧
          (cap ≠ 0 → ∀ g ∈ (u.tower t).grants, g.req.domain.toNat = d → g.granted ≤ cap))) ∧
    (Alone s q k → hOpcode p = 0x90 → pbytes p 8 1 = 0 → pbytes p 10 2 ≤ 4095 → Completes .dispatchTick s q k stOK 0 0 fun u =>
      (∀ x, x < 4 → u.reg ⟨.lnkRoute, x, 0, pbytes p 10 2, 0⟩ = BitVec.ofNat 64 (pbytes p 12 4) &&& 0x83FFFFFF#64) ∧ u.mem = s.mem) ∧
    (Alone s q k → hOpcode p = 0x42 → ∃ u, exec .dispatchTick s = .next u ∧ u.policy = s.policy ∧
      GoesOn u q k (if fpClamp p ≠ 0 then stClamped else if fpCount p < 9 then stPartial else stOK) 0 (fpClamp p) [Wait.guard.code] ∧
      u.policyStaged = s.policyStaged ++ (tagList (fpFirst p) (fpLast p)).map fun g => (g, fpFields p)) ∧
    (Alone s q k → hOpcode p = 0x40 → gRec p = 0x0901 → gCount p = 1 → ∀ x, x < 4 → gMask p = 2 ^ x → (s.tower x).fence = 0 →
      let v := pbytes p 16 4
      let w := min 4 v
      fld (s.stg ⟨.panPolicy, x, 0, 0, 0⟩) panPolicyLarderQuota.hi panPolicyLarderQuota.lo ≤ 11 →
      ∃ u, exec .dispatchTick s = .next u ∧ GoesOn u q k (if w ≠ v then stClamped else stPartial) (1 + 8 * 256) (if w ≠ v then 1 else 0) [(Wait.pantry x).code] ∧
        u.commitPending .panCommit x 0 = true ∧ u.fget panPolicyFarWays x = s.fget panPolicyFarWays x ∧
        fld (u.stg ⟨.panPolicy, x, 0, 0, 0⟩) panPolicyFarWays.hi panPolicyFarWays.lo = w)) ∧
  (∀ (s : State) (tag : Nat) (f : List Nat), s.policyStaged = [(tag, f)] → tag < 4096 →
    ∃ u, exec .guardPolicyCommit s = .next u ∧ u.policyStaged = [] ∧ u.mem = s.mem ∧ u.pol tag = (s.pol tag).apply f ∧
      (∀ g, g % 4096 ≠ tag → u.pol g = s.pol g ∧ u.escOf g = s.escOf g ∧ ∀ t, t < 4 → u.tag t g = s.tag t g) ∧
      (∀ i v, f[i]? = some v → i < 7 → (u.pol tag).words[i]? = some v) ∧
      (f.getD 8 0 = 1 → ∀ t, t < 4 → (u.tag t tag).invocations = 0 ∧ (u.tag t tag).badRun = 0 ∧ (u.tag t tag).reports = 0 ∧
        (u.tag t tag).lastSqnr = (s.tag t tag).lastSqnr ∧ (u.tag t tag).escStamp = (s.tag t tag).escStamp) ∧
      (f.getD 8 0 / 4 % 2 = 1 → s.escOf tag = .escalated → u.escOf tag = .releasePending) ∧
      (∀ q k, s.running? k.id = some (q, k) → k.waits = [Wait.guard.code] → k.status = stOK → k.clamp = 0 → hQuiet k.words = false →
        (∀ e ∈ s.queues, ∀ x ∈ e.2.running, x ≠ k → Wait.guard.code ∉ x.waits) →
        ∃ c, (u.queue q).done = (s.queue q).done ++ [c] ∧ c.tag = hTag k.words ∧ c.status = stOK ∧ c.detail = k.detail))

/-- QUERY, POWER_QUERY, TELEMETRY, LOG_READ, CVU_GET and CVU_SET (R141, R359, R370, R417, R444 to R446, R464, R465): a capacity
below the shortest reply ends a report with BAD_LENGTH; else its records are written at the address, whole, and counted in
its detail; TELEMETRY's clear flag clears them afterwards, LOG_READ from the management queue acknowledges them; CVU_SET sets
a context of its own parameters, active and staged, cut to the width. -/
def Obligations.ReportsAreWritten : Prop :=
  ∀ (s : State) (q : Fin 1024) (k : Pkt),
    let p := k.words
    let a := wordAt p 1
    let cap := pbytes p 24 4
    let put (at_ : W64) (bs : List Byte) : Put := s.cwriteB (s.cmdAgent q k) at_ bs
    let fits (at_ : W64) (bs : List Byte) : Prop := s.crange (qTower q) at_ bs.length = 0 ∧ Served q k (put at_ bs)
    (Due s q 0x41 k → pbytes p 16 1 = 0 → (s.queryModule q).length = 128 ∧
      (cap < 128 → Refuses (.query q p) s q k stBadLength) ∧
      (128 ≤ cap → fits a (s.queryModule q) → Completes (.query q p) s q k stOK 128 0 fun u => u.mem = (put a (s.queryModule q)).s.mem)) ∧
    (Due s q 0x41 k → pbytes p 16 1 = 1 →
      let v := s.recordValues (pbytes p 18 2) (pbytes p 17 1) (pbytes p 20 2)
      let bs := v.2.flatMap fun x => leBytes 4 x
      (v.1 ≠ 0 → Refuses (.query q p) s q k v.1) ∧
      (v.1 = 0 → bs ≠ [] → 4 * v.2.length ≤ cap → fits a bs → Completes (.query q p) s q k stOK (4 * v.2.length) 0 fun u => u.mem = (put a bs).s.mem)) ∧
    (Due s q 0x51 k →
      let bs := s.powerHeader q ++ (List.range 4).flatMap s.powerRecord
      (pbytes p 16 4 < 288 → Refuses (.powerQuery q p) s q k stBadLength) ∧
      (288 ≤ pbytes p 16 4 → fits a bs → Completes (.powerQuery q p) s q k stOK 0 0 fun u => u.mem = (put a bs).s.mem)) ∧
    (Due s q 0x80 k →
      let names := telemetryNames p
      let guard := pbytes p 16 1 = 0
      let bs := names.flatMap fun e => if guard then s.guardRecord e.1 e.2 else s.powerRecord e.1
      (guard → pbytes p 20 2 < pbytes p 18 2 → Refuses (.telemetry q p) s q k stBadAddress) ∧
      (¬ (guard ∧ pbytes p 20 2 < pbytes p 18 2) → names ≠ [] → bs.length ≤ cap → fits a bs →
        let w := put a bs
        Completes (.telemetry q p) s q k stOK names.length 0 fun u => u.mem = w.s.mem ∧
          (hFlags p % 2 = 0 → u.tags = w.s.tags ∧ u.towers = w.s.towers) ∧
          (hFlags p % 2 = 1 → ∀ e ∈ names, (w.s.tower e.1).fence = 0 →
            (guard → u.tag e.1 e.2 = (w.s.tag e.1 e.2).clearStats) ∧ (¬ guard → (u.tower e.1).peakW = 0 ∧ (u.tower e.1).guards = 0)))) ∧
    (Due s q 0x81 k →
      let es := s.mod.log.filter fun e => decide ((wordAt p 2).toNat ≤ e.seq)
      let bs := es.flatMap LogEnt.bytes
      (cap < 32 → Refuses (.logRead q p) s q k stBadLength) ∧
      (32 ≤ cap → es ≠ [] → bs.length ≤ cap → fits a bs →
        let w := put a bs
        Completes (.logRead q p) s q k stOK es.length 0 fun u => u.mem = w.s.mem ∧
          (s.qMaster q ≠ 1 → u.mod = w.s.mod) ∧
          (s.qMaster q = 1 → ∀ e, es.getLast? = some e → u.mod.acked = max w.s.mod.acked (min e.seq w.s.mod.newest)))) ∧
    (Due s q 0x71 k → ((s.checkCvu q p).1 ≠ 0 → Refuses (.cvuGet q p) s q k (s.checkCvu q p).1) ∧
      ((s.checkCvu q p).1 = 0 → fits (wordAt p 2) (s.cvuReply p) →
        Completes (.cvuGet q p) s q k stOK 0 0 fun u => u.mem = (put (wordAt p 2) (s.cvuReply p)).s.mem)) ∧
    (Due s q 0x70 k → ((s.checkCvu q p).1 ≠ 0 → Refuses (.cvuSet q p) s q k (s.checkCvu q p).1) ∧
      ((s.checkCvu q p).1 = 0 → pbytes p 13 1 / 16 % 2 = 0 → 1 ≤ pbytes p 12 1 → pbytes p 12 1 ≤ 64 →
        let t := pbytes p 9 1
        let n := cuUnit p
        let i := pbytes p 11 1
        let w := pbytes p 12 1
        let high (x : Nat) : Bool := decide (2 ^ w ≤ x)
        let clamp := (if high (pbytes p 16 8) then 2 else 0) + (if high (pbytes p 24 8) then 4 else 0) + (if high (pbytes p 32 8) then 8 else 0) +
          (if high (pbytes p 40 8) then 16 else 0) + (if 127 < pbytes p 49 1 then 32 else 0)
        Completes (.cvuSet q p) s q k (if clamp = 0 then stOK else stClamped) 0 clamp fun u => u.mem = s.mem ∧
          (∀ r v, (r, v) ∈ [(RegName.cvuPoly, pbytes p 16 8), (.cvuRun, pbytes p 24 8), (.cvuXorout, pbytes p 32 8), (.cvuExpect, pbytes p 40 8)] →
            u.reg ⟨r, t, n, i, 0⟩ = BitVec.ofNat 64 (v % 2 ^ w) ∧ u.stg ⟨r, t, n, i, 0⟩ = BitVec.ofNat 64 (v % 2 ^ w)) ∧
          u.fget cvuCtlWidth t n i = w ∧ u.fget cvuCtlTally t n i = min 127 (pbytes p 49 1) ∧
          (u.ctx t n i).run = BitVec.ofNat 64 (pbytes p 24 8 % 2 ^ w) ∧ (u.ctx t n i).bytes = 0))

/-! ## Resets -/

/-- CLUSTER_RESET, ATTIC_RESET, CELLAR_U_RESET, CELLAR_L_RESET, TOWER_RESET and MODULE_WARM (R26, R263, R264, R368, R430 to R434,
R466): a reset of a target that is lost, or not there, is refused; one inside another that is in progress waits for that
one's end; any other begins at once, with the effect that Table 14-5 gives its scope, and waits for its end. RESET_END and
TOWER_RESET_TIMEOUT (R45, R368, R421, R432, R433): once the waves that it started have ended, a reset leaves the list, its
blocks run again and its command completes; a returning tower takes the lead tower's stamp and its enabled ports train. A
TOWER reset of more than 10 s of the island's count fences its tower off with cause 4. Nothing happens for a reset that is
not in progress. -/
def Obligations.ResetsBeginAndEnd : Prop :=
  (∀ (s : State) (q : Fin 1024) (k : Pkt) (i : Instr) (scope : Nat),
    (i, scope) ∈ [(Instr.clusterReset q k.words, 0), (.atticReset q k.words, 1), (.cellarUReset q k.words, 2), (.cellarLReset q k.words, 3)
      , (.towerReset q k.words, 4), (.moduleWarm q k.words, 5)] →
    Due s q 0x60 k → rsScope k.words = scope → k.begun = false → k.waits = [] → (∀ e ∈ s.queues, ∀ x ∈ e.2.running, x.id = k.id → x = k) →
    let t := pbytes k.words 9 1
    let c := pbytes k.words 10 1
    let target := if scope = 0 then t * 128 + c else if scope = 5 then 0 else t
    let begins (P : State → Prop) : Prop := s.mod.waiting = [] → ∃ u, exec i s = .next u ∧ GoesOn u q k stOK 0 0 [(resetWait scope target).code] ∧
      u.mod.waiting = [(scope, target, s.mod.aonStamp)] ∧ P u
    (scope ≠ 5 → 3 < t ∨ (scope = 0 ∧ 127 < c) → Refuses i s q k stBadAddress) ∧
    (scope ≠ 5 → t ≤ 3 → (scope = 0 → c ≤ 127) → (s.tower t).fence ≠ 0 ∨ (scope = 0 ∧ (s.clu t c).absent = true) → Refuses i s q k stLost) ∧
    (scope = 4 → t ≤ 3 → (s.tower t).fence = 0 → s.mod.bridge = some t → s.ringsHost q = true → Refuses i s q k stBadState) ∧
    (scope = 5 ∨ (t ≤ 3 ∧ (scope = 0 → c ≤ 127 ∧ (s.clu t c).absent = false) ∧ (s.tower t).fence = 0 ∧ (scope = 4 → s.mod.bridge = some t → s.ringsHost q = false)) →
      (∀ w, s.mod.waiting.find? (fun w => resetWithin (scope, target) (w.1, w.2.1)) = some w →
        Waits i s k 0 [(resetWait w.1 w.2.1).code] (· = s)) ∧
      (scope = 0 → begins fun u => (∀ j, j / 64 = cluKey t c → u.bunch j = default) ∧ u.mem.shelf = s.mem.shelf ∧ u.mem.cells = s.mem.cells ∧
        (let x := s.clu t c
         u.clu t c = { Cluster.init with absent := x.absent, dom := x.dom, limited := x.limited, saved := x.saved, selfTested := x.selfTested })) ∧
      (scope = 1 → begins fun u => (u.tower t).inAttic = true ∧ u.mem.shelf = s.mem.shelf ∧ ∀ x, x < 128 → (u.clu t x).team = none ∧
        ((s.clu t x).absent = false → (s.clu t x).dom = .on → x ∈ (u.tower t).hot ∧ (u.clu t x).dom = .retention)) ∧
      (scope = 2 → begins fun u => (u.tower t).inCelU = true ∧ ∀ bay row, bay < 136 → row < dataRows → u.validBits t 0 bay row = 0#3) ∧
      (scope = 3 → begins fun u => (u.tower t).inCelL = true ∧ ∀ bay row, bay < 136 → row < dataRows → u.validBits t 1 bay row = 0#3) ∧
      (scope = 4 → begins fun u => (u.tower t).inTower = true ∧ (u.tower t).transitStop = true ∧ u.mem.remap = s.mem.remap ∧
        (u.tower t).pins = [] ∧ (∀ p, p < 8 → (s.port t p).mode ≠ .bridge → (u.port t p).mode = .down) ∧
        (s.mod.lead = t → t < 2 → (s.tower (1 - t)).fence = 0 → (s.tower (1 - t)).inTower = false → u.mod.lead = 1 - t)) ∧
      (scope = 5 → begins fun u => u.mod.phase = 1 ∧ u.mod.ready = false ∧ u.mod.warm = true ∧ u.esc = [] ∧ u.mod.moduleId = s.mod.moduleId ∧
        ∀ x, x < 4 → (u.tower x).stamp = BitVec.ofNat 64 s.mod.aonStamp ∧
          u.fget pwrBudgetModuleW x = (match s.mod.variant with | .x => 5600 | .s => 3200)))) ∧
  (∀ (s : State) (scope : Nat) (t : Fin 4) (c : Fin 128) (q : Nat) (k : Pkt),
    let x := if scope = 0 then cluKey t c else t.val
    let listed := ∃ at_, (scope, x, at_) ∈ s.mod.waiting
    let waved := scope = 1 ∨ scope = 4 → s.wavesDone t = true
    (4 < scope ∨ ¬ listed ∨ ¬ waved → exec (.resetEnd scope t c) s = .next s) ∧
    (scope ≤ 4 → listed → waved → ∃ u, exec (.resetEnd scope t c) s = .next u ∧
      u.mod.waiting = s.mod.waiting.filter (fun w => !(w.1 = scope && w.2.1 = x)) ∧
      (scope = 1 → (u.tower t).inAttic = false) ∧ (scope = 2 → (u.tower t).inCelU = false) ∧ (scope = 3 → (u.tower t).inCelL = false) ∧
      (scope = 4 → (u.tower t).inTower = false ∧ (u.tower t).transitStop = false ∧ (u.tower t).frac = 0#32 ∧
        (u.tower t).stamp = (if s.mod.lead = t.val then BitVec.ofNat 64 s.mod.aonStamp else (s.tower s.mod.lead).stamp) ∧
        ∀ p, p < 8 → (s.port t p).mode ≠ .bridge → (u.port t p).mode = if bit (s.reg ⟨.lnkCfg, t, 0, 0, 0⟩) p then .training else .disabled) ∧
      (s.running? k.id = some (q, k) → k.waits = [(resetWait scope x).code] → k.status = stOK → k.clamp = 0 → hQuiet k.words = false →
        (∀ e ∈ s.queues, ∀ y ∈ e.2.running, y ≠ k → (resetWait scope x).code ∉ y.waits) →
        ∃ e, (u.queue q).done = (s.queue q).done ++ [e] ∧ e.tag = hTag k.words ∧ e.status = stOK ∧ e.start = k.start)) ∧
    ((∀ w ∈ s.mod.waiting, ¬ (w.1 = 4 ∧ w.2.1 = t.val)) → exec (.towerResetTimeout t) s = .next s) ∧
    (∀ w, s.mod.waiting.find? (fun w => w.1 = 4 && w.2.1 = t.val) = some w → (s.tower t).fence = 0 →
      (s.mod.aonStamp < w.2.2 + 2000000000 → exec (.towerResetTimeout t) s = .next s) ∧
      (w.2.2 + 2000000000 ≤ s.mod.aonStamp → ∃ u, exec (.towerResetTimeout t) s = .next u ∧ (u.tower t).fence = 4 ∧ (u.tower t).on = false ∧
        (u.tower t).inTower = false ∧ u.fget pwrBudgetTowerW t = 0 ∧ (∀ w ∈ u.mod.waiting, w.1 ≤ 4 → resetTower w.1 w.2.1 ≠ t.val) ∧
        ∃ e ∈ u.mod.log, e.code = 0x0021 ∧ e.source = t.val ∧ e.detail = [4#32])))

/-- PREEMPT, SNAPSHOT and RESTORE (R376, R379 to R382): at the end of its slice a team gives way to an accepted class-7 packet
that needs its cluster, and else it stays; a SNAPSHOT into too small a range is refused with the size it needs, and else
writes the image of its context; a RESTORE of less than a header, or of an image of another layout, is refused with what
differs, and a whole image's data and tallies take the places of the context's. -/
def Obligations.TeamsYieldAndSequencesReturn : Prop :=
  ∀ (s : State) (q : Fin 1024) (k : Pkt) (r : CluRef) (tm : Team) (l : Launch) (c : SeqCtx),
    let p := k.words
    let img := wordAt p 1
    let g := s.cmdAgent q k
    ((s.clu r.t r.c).team = none → exec (.preempt r) s = .next s) ∧
    ((s.clu r.t r.c).team = some tm → s.launch? tm.launch = some l →
      exec (.preempt r) s = if s.wanted r.t r.c ∧ l.started + 200 * max 10 (min 1000 (s.fget cmdDispatchSliceUs (qTower l.q))) ≤ s.stamp (qTower l.q)
        then exec (.teamSuspend r 0 (s.direct r.t r.c)) s else .next s) ∧
    (Due s q 0x61 k → let x := s.readCtx q k
      x.ctx = some c → (∀ e ∈ c.exts, e.drop = false) → s.streamsHeld q k.id (seqStreams c img) = true →
      ((wordAt p 2).toNat < c.size → ∃ u, exec (.snapshot q p) s = .next u ∧ Completed s u q k stBadLength (cdiv c.size 65536) 0) ∧
      (c.size ≤ (wordAt p 2).toNat → x.did.s.crange (qTower q) img c.size = 0 →
        let d := x.did.s.readExts g c.exts
        let w := d.s.cwriteB g img (d.s.imageOf q c (d.bytes.map dataOf))
        d.st = 0 → d.bad = none → Served q k w → Completes (.snapshot q p) s q k stOK (min (c.size / 64) 0xFFFFFFFF) 0 fun u => u.mem = w.s.mem)) ∧
    (Due s q 0x62 k → let x := s.readCtx q k
      x.ctx = some c → (∀ e ∈ c.exts, e.pin = false) → s.streamsHeld q k.id (seqStreams c img) = true →
      let n := (wordAt p 2).toNat
      let h := x.did.s.cread g img (min n c.tables)
      let y := h.s.cread g img n
      (n < 64 → ∃ u, exec (.restore q p) s = .next u ∧ Completed s u q k stInconsistent 0xFFFF 0) ∧
      (64 ≤ n → (∀ t, t < 4 → (s.tower t).pins.length ≤ 1024) → s.crange (qTower q) img (min n c.size) = 0 → h.st = 0 → h.s.needs = [] → (∀ b ∈ h.data, isBad b = false) →
        (∀ e, imageDiff c n h.data (h.data.drop 64) = some e → h.s.sends = [] → (∀ r ∈ h.s.reqs, r.owner ≠ cmdOwner q k.id) →
          ∃ s1 u, exec (.restore q p) s = .next u ∧ s1.mem = h.s.mem ∧ Completed s1 u q k stInconsistent e 0) ∧
        (imageDiff c n h.data (h.data.drop 64) = none → y.st = 0 → y.s.needs = [] → (∀ b ∈ y.data, isBad b = false) →
          crc64xz ((y.data.drop 64).map dataOf) = numAt y.data 40 8 →
          let w := y.s.writeExts g c.exts (y.data.drop c.tables)
          let at_ := 64 + pad64 (8 * c.exts.length)
          Served q k w → Completes (.restore q p) s q k stOK 0 0 fun u => u.mem = w.s.mem ∧
            ∀ z, c.tallies = [z] → z.2.2 < 128 →
              (u.tally z.1 z.2.1 z.2.2).count = BitVec.ofNat 32 (numAt (y.data.drop at_) 0 4) ∧
              (u.tally z.1 z.2.1 z.2.2).target = BitVec.ofNat 32 (numAt (y.data.drop at_) 4 4))))

/-! ## Power -/

/-- GRANT_REQUEST, GRANT_FROM_QUEUE and POWER_POLICY_COMMIT (R388, R393, R416): a request that fits is granted at once, at most
at its current, and replaces what its requester held; granted power never exceeds the effective budget afterwards; one that
does not fit is queued, and a requester has one request at a time; the queued one served next fits, has the highest class,
and is the oldest of it. The storekeeper's policy becomes active at its commit, after the reserve account is brought up to
date. BUDGET_GUARD and BUDGET_WINDOW_END (R386, R389, R390): when the measured energy of a window reaches the tower's
effective budget, the guard comes into force, is counted and flagged, and every array of the tower stands at duty 1/16 at
most, and no grant fits; the window's end lifts it, keeps the measured power and its peak, and moves the derate factor: up to
the ratio when that exceeds 1.02, at most to 2, and else one step of 1/64 down, at least to 1. -/
def Obligations.GrantsAndBudgetWindows : Prop :=
  (∀ (s : State) (t : Fin 4) (g : GrantReq),
    let w := s.tower t
    let given (u : State) (g : GrantReq) (gs : List Grant) : Prop := ∃ n, (u.tower t).grants = gs.filter (fun x => x.req.requester ≠ g.requester) ++ [⟨g, n⟩] ∧
      1 ≤ n ∧ n ≤ max 1 g.current.toNat ∧ n ≤ max 1 (s.domCapNow t g.domain.toNat) ∧ u.grantedMw t ≤ u.effectiveMw t ∧
      w.guardOn = false ∧ u.mem = s.mem ∧ u.regs = s.regs ∧ u.queues = s.queues
    (w.fence ≠ 0 ∨ g.current = 0#16 ∨ (∃ x ∈ w.grantQ, x.requester = g.requester) → exec (.grantRequest t g) s = .next s) ∧
    (w.fence = 0 → g.current ≠ 0#16 → (∀ x ∈ w.grantQ, x.requester ≠ g.requester) →
      (s.fits t g = true → ∃ u, exec (.grantRequest t g) s = .next u ∧ given u g w.grants ∧ (u.tower t).grantQ = w.grantQ) ∧
      (s.fits t g = false → ∃ u, exec (.grantRequest t g) s = .next u ∧ TowerOnly s u t ∧ u.tower t = { w with grantQ := w.grantQ ++ [g] })) ∧
    ((∀ x ∈ w.grantQ, s.fits t x = false) → exec (.grantFromQueue t) s = .next s) ∧
    ((∃ x ∈ w.grantQ, s.fits t x = true) → ∃ a r b u, w.grantQ = a ++ r :: b ∧ s.fits t r = true ∧
      (∀ x ∈ a, s.fits t x = true → x.cls.val < r.cls.val) ∧ (∀ x ∈ b, s.fits t x = true → x.cls.val ≤ r.cls.val) ∧
      exec (.grantFromQueue t) s = .next u ∧ given u r w.grants ∧ (u.tower t).grantQ = w.grantQ.filter (· ≠ r)) ∧
    (s.commitPending .pwrCommit t 0 = false → exec (.powerPolicyCommit t) s = .next s) ∧
    (s.commitPending .pwrCommit t 0 = true → ∃ u, exec (.powerPolicyCommit t) s = .next u ∧ u.commitPending .pwrCommit t 0 = false ∧ u.mem = s.mem ∧
      (let m := RegName.wsBits .pwrPolicy
       u.reg ⟨.pwrPolicy, t, 0, 0, 0⟩ &&& m = s.lck ⟨.pwrPolicy, t, 0, 0, 0⟩ &&& m) ∧
      (u.tower t).reserveMj = s.reserveNow t ∧ (u.tower t).reserveAt = s.stamp t)) ∧
  (∀ (s : State) (t : Fin 4) (e : Nat) (m : WindowMeas),
    let w := s.tower t
    let up := w.on = true ∧ w.fence = 0
    (¬ up → exec (.budgetGuard t e) s = .next s ∧ exec (.budgetWindowEnd t m) s = .next s) ∧
    (up → (w.guardOn = true ∨ (e : ℚ) < s.effectiveMw t → exec (.budgetGuard t e) s = .next s) ∧
      (w.guardOn = false → s.effectiveMw t ≤ e → ∃ u, exec (.budgetGuard t e) s = .next u ∧ (u.tower t).guardOn = true ∧
        (u.tower t).guards = w.guards + 1 ∧ u.fget pwrStatusGuard t = 1 ∧ u.mem = s.mem ∧
        (∀ c ∈ u.clusters, c.1 / 128 = t.val → c.2.arr.duty ≤ 1) ∧ ∀ g, u.fits t g = false) ∧
      ∃ u, exec (.budgetWindowEnd t m) s = .next u ∧ (u.tower t).guardOn = false ∧ (u.tower t).drawnW = m.energyMj ∧
        (u.tower t).peakW = max w.peakW m.peakW ∧ (u.tower t).windowMj = 0 ∧ (u.tower t).grants = w.grants ∧ u.mem = s.mem ∧ u.queues = s.queues ∧
        ((m.energyMj : ℚ) < w.windowMj → (u.tower t).derate = max 1024 (w.derate - 16)) ∧
        (w.windowMj ≤ m.energyMj → (m.energyMj : ℚ) ≤ w.windowMj * 102 / 100 → (u.tower t).derate = w.derate) ∧
        (w.windowMj * 102 / 100 < m.energyMj → 0 < w.windowMj → 1024 ≤ (u.tower t).derate ∧ (u.tower t).derate ≤ 2048 ∧
          ((m.energyMj : ℚ) ≤ 2 * w.windowMj → (m.energyMj : ℚ) * 1024 / w.windowMj ≤ (u.tower t).derate ∧
            ((u.tower t).derate : ℚ) < m.energyMj * 1024 / w.windowMj + 1))))

/-- WAKE_WAVE, WAKE_WAIT_EXPIRE, DOMAIN_WAKE_COMPLETE, PHASE_LOST and CURRENT_LIMIT (R396, R397, R399, R405, R408, R415, Table
13-7): once in each period of 40 µs at most wake_wave pending wakes of a tower begin, in order; a cluster is awake when its
wake completes, and stands as after a reset; a lost phase is counted, logged and flagged, and the phase that its domain
cannot lose fences its tower off; a current limit holds the array at 8/16. -/
def Obligations.WakesAndRegulatorLosses : Prop :=
  ∀ (s : State) (t : Fin 4) (r : CluRef) (d : Nat),
    let w := s.tower t
    let up (t : Nat) : Prop := (s.tower t).on = true ∧ (s.tower t).fence = 0
    let x := s.clu r.t r.c
    let most := max 1 (min 16 (s.fget pwrPolicyWakeWave t))
    (¬ up t ∨ w.hot = [] ∨ w.waveUsed = wavePeriod (s.stamp t) t + 1 → exec (.wakeWave t) s = .next s) ∧
    (up t → w.hot ≠ [] → w.waveUsed ≠ wavePeriod (s.stamp t) t + 1 → w.hot.Nodup → ∃ u, exec (.wakeWave t) s = .next u ∧ (u.tower t).hot = w.hot.drop most ∧
      (u.tower t).waveUsed = wavePeriod (s.stamp t) t + 1 ∧ (∀ c ∈ w.hot.take most, (u.clu t c).dom = .waking ∧ (u.clu t c).team = (s.clu t c).team) ∧
      (∀ a b, cluKey a b ∉ (w.hot.take most).map (cluKey t) → u.clu a b = s.clu a b) ∧ u.mem = s.mem ∧ u.queues = s.queues) ∧
    (exec (.wakeWaitExpire r) s = if x.dom = .waking ∨ (∃ b ∈ x.arr.bins, b.2.mode = .rampUp)
      then .next (s.modClu r.t r.c fun y => { y with halfSlope := true }) else .next s) ∧
    (x.dom ≠ .waking ∨ x.selfTested = false → exec (.domainWakeComplete r) s = .next s) ∧
    (x.dom = .waking → x.selfTested = true → ∃ u, exec (.domainWakeComplete r) s = .next u ∧ u.clu r.t r.c =
      { Cluster.init with dom := .on, absent := x.absent, limited := x.limited, saved := x.saved, selfTested := true } ∧ u.mem.shelf = s.mem.shelf) ∧
    (¬ up t ∨ isDomain s.mod.variant t d = false ∨ max 1 (domPhases s.mod.variant d) ≤ s.lostPhases t d → exec (.phaseLost t d) s = .next s) ∧
    (up t → isDomain s.mod.variant t d = true → s.lostPhases t d < max 1 (domPhases s.mod.variant d) → ∃ u, exec (.phaseLost t d) s = .next u ∧
      u.lostPhases t d = s.lostPhases t d + 1 ∧
      ((u.tower t).fence = 0 → ∃ e ∈ u.mod.log, e.code = 0x0013 ∧ e.source = t.val ∧ e.detail = [BitVec.ofNat 32 d, BitVec.ofNat 32 (s.lostPhases t d + 1)]) ∧
      (0x300 ≤ d → d ≤ 0x323 → (u.tower t).fence = 2) ∧
      (0x100 ≤ d → d < 0x300 → (s.mod.variant = .s ∨ s.lostPhases t d = 1) → (u.tower t).fence = 3) ∧
      (s.mod.variant = .x → d < 0x100 → s.lostPhases t d = 0 → (u.tower t).fence = 0 ∧ u.fget pwrStatusPhaseEvent t = 1) ∧
      (∀ c, d < 0x100 → s.logical t d = some c → (s.clu t c).absent = false → (s.mod.variant = .s ∨ s.lostPhases t d = 1) →
        (u.clu t c).absent = true ∧ (u.clu t c).dom = .lost)) ∧
    (¬ up r.t ∨ x.absent = true ∨ x.dom ≠ .on → exec (.currentLimit r) s = .next s) ∧
    (up r.t → x.absent = false → x.dom = .on → ∃ u, exec (.currentLimit r) s = .next u ∧ (u.clu r.t r.c).limited = true ∧ (u.clu r.t r.c).arr.duty ≤ 8 ∧
      u.fget pwrStatusCurrentLimit r.t = 1 ∧ u.mem = s.mem)

/-- SUPPLY_SAG, SAG_EXIT, ORDERED_STOP, INPUT_OVERVOLTAGE, INPUT_QUALIFIED, INPUT_LOSS, SB_PWR_EN_FALL and SB_PWR_EN_RISE (R31,
R34, R36, R409, R410, R463): a sag is counted and flagged in every tower, and halves every grant and effective budget while
it lasts; its end is logged with the lowest input; an ordered stop is logged with its cause, ends every started command with
RESOURCE_LOST, and switches the rails off; an overvoltage keeps them off; the input and SB_PWR_EN bring them up; the loss of
the input loses the event log. -/
def Obligations.SupplyEventsActOnTheModule : Prop :=
  ∀ (s : State) (mv us : Nat),
    let m := s.mod
    let off (u : State) : Prop := u.mod.railsOn = false ∧ u.mod.pwrGood = false ∧ u.mod.ready = false ∧ u.clusters = [] ∧ u.mem.hbm = [] ∧
      u.mem.host = s.mem.host ∧ u.mod.nor = m.nor ∧ u.mod.invA = m.invA ∧ u.mod.invB = m.invB ∧ ∀ t, t < 4 → (u.tower t).on = false
    let still := ∀ e ∈ s.queues, e.2.running = [] ∧ e.2.done = []
    let logged (u : State) (code : Nat) (d : Nat) : Prop := ∃ e ∈ u.mod.log, e.code = code ∧ e.detail.head? = some (BitVec.ofNat 32 d)
    (10800 ≤ mv ∨ m.railsOn = false → exec (.supplySag mv) s = .next s) ∧
    (mv < 10800 → m.railsOn = true → m.sagged = true →
      exec (.supplySag mv) s = .next { s with mod := { m with sagMin := min m.sagMin mv, vinMv := mv, inputOk := false } }) ∧
    (mv < 10800 → m.railsOn = true → m.sagged = false → ∃ u, exec (.supplySag mv) s = .next u ∧ u.mod.sagged = true ∧ u.mod.sagMin = mv ∧
      u.mod.sagCount = m.sagCount + 1 ∧ u.mod.sagStart = s.stamp m.lead ∧ u.mem = s.mem ∧
      ∀ t, t < 4 → u.fget pwrStatusSagEvent t = 1 ∧ (u.tower t).grants = (s.tower t).grants ∧
        (∀ g, u.grantNow t g = s.grantNow t g / 2) ∧ (u.effectiveMw t = s.standingMw t ∨ u.effectiveMw t = s.effectiveMw t / 2)) ∧
    (m.sagged = false → exec .sagExit s = .next s) ∧
    (m.sagged = true → ∃ u, exec .sagExit s = .next u ∧ u.mod.sagged = false ∧ u.mod.inputOk = true ∧ logged u 0x0010 m.sagMin ∧ u.mem = s.mem) ∧
    (m.sagged = false ∨ 9600 ≤ m.vinMv → exec .orderedStop s = .next s) ∧
    (m.sagged = true → m.vinMv < 9600 → m.railsOn = true → ∃ u, exec .orderedStop s = .next u ∧ u.mod.railsOn = false ∧ u.mod.ready = false ∧
      (still → logged u 0x0011 1) ∧ u.clusters = [] ∧ u.mem.hbm = [] ∧ ∀ t, t < 4 → (u.tower t).grants = [] ∧ (u.tower t).on = false) ∧
    (m.pwrEn = true → m.railsOn = true → ∃ u, exec .sbPwrEnFall s = .next u ∧ u.mod.pwrEn = false ∧ u.mod.railsOn = false ∧ (still → logged u 0x0011 2)) ∧
    (m.pwrEn = true → m.railsOn = false → exec .sbPwrEnFall s = .next { s with mod := { m with pwrEn := false } }) ∧
    (m.pwrEn = false → exec .sbPwrEnFall s = .next s) ∧
    (m.pwrEn = true → exec .sbPwrEnRise s = .next s) ∧
    (m.pwrEn = false → m.railsOn = false → ∃ u, exec .sbPwrEnRise s = .next u ∧ u.mod.pwrEn = true ∧ u.mod.thermtripN = true ∧
      (u.mod.railsOn = true ↔ m.inputOk = true ∧ m.overvolt = false ∧ (∃ b ∈ m.aonUp, b = true)) ∧
      (u.mod.railsOn = true → u.mod.pwrGood = true ∧ u.mod.phase = 1 ∧ ∀ t, t < 4 → (u.tower t).on = true)) ∧
    (m.railsOn = false → ∃ u, exec .inputQualified s = .next u ∧ u.mod.inputOk = true ∧ u.mod.vinMv = max 10800 m.vinMv ∧
      (u.mod.railsOn = true ↔ m.pwrEn = true ∧ m.overvolt = false ∧ m.tripped = false ∧ (∃ b ∈ m.aonUp, b = true))) ∧
    (m.railsOn = true → exec .inputQualified s = .next { s with mod := { m with inputOk := true, vinMv := max 10800 m.vinMv } }) ∧
    (mv ≤ 13800 ∨ us ≤ 100 ∨ m.overvolt = true → exec (.inputOvervoltage mv us) s = .next s) ∧
    (13800 < mv → 100 < us → m.overvolt = false → ∃ u, exec (.inputOvervoltage mv us) s = .next u ∧ u.mod.overvolt = true ∧ off u ∧ logged u 0x0012 mv) ∧
    (∃ u, exec .inputLoss s = .next u ∧ off u ∧ u.mod.log = [] ∧ u.mod.newest = 0 ∧ u.mod.aonUp = [false, false])

/-- THERMAL_SENSE, THROTTLE_STEP, THERMAL_HALVING, THERMAL_HALVING_END, THERMAL_TRIP and THERMAL_SENSOR_SUSPECT (R385, R411 to
R414): a tower above its limit less the margin has its thermal limit lowered by 2 % of the set budget at a step, and raised
by 1 % once 3 °C cooler; a die at its limit has its grants halved, until it is 2 °C cooler; one that has stood at its trip
value for 100 µs switches the rails off; a sensor that its region's estimate has exceeded by more than 6 °C for 20 ms is
suspect. -/
def Obligations.ThermalLimitsHold : Prop :=
  ∀ (s : State) (t : Fin 4) (die : Fin 4) (region : Fin 16) (m : ThermalMeas),
    let w := s.tower t
    let up := w.on = true ∧ w.fence = 0
    let temp := w.dieTemp die
    let at_ := SMap.get 0 w.tripSince die
    let est := SMap.get 0 w.estRun region
    (up → ∃ u, exec (.thermalSense t m) s = .next u ∧ TowerOnly s u t ∧ (u.tower t).temp 0 = m.attic ∧ (u.tower t).temp 3 = m.lower ∧
      (u.tower t).temp 4 = m.hbm ∧ (u.tower t).grants = w.grants ∧
      (SMap.get 0 (u.tower t).tripSince 0 = if 115000 ≤ m.attic then (if SMap.get 0 w.tripSince 0 = 0 then s.stamp t + 1 else SMap.get 0 w.tripSince 0) else 0)) ∧
    (up → (∃ d, d < 4 ∧ limitOf d - (max 2 (s.fget pwrPolicyThrottleMarginC t) : Nat) * 1000 ≤ w.dieTemp d) → w.thermalMw = none →
      (s.standingMw t).ceil.toNat + 20 * s.setBudget t ≤ s.setBudget t * 1000 → 0 < s.setBudget t →
      ∃ u, exec (.throttleStep t) s = .next u ∧ (u.tower t).thermalMw = some (980 * s.setBudget t) ∧ u.mem = s.mem ∧ u.queues = s.queues) ∧
    (up → (∀ d, d < 4 → w.dieTemp d < limitOf d - ((max 2 (s.fget pwrPolicyThrottleMarginC t) : Nat) * 1000 + 3000)) →
      ∀ x, w.thermalMw = some x → x ≤ s.setBudget t * 1000 → 0 < s.setBudget t →
      ∃ u, exec (.throttleStep t) s = .next u ∧
        (u.tower t).thermalMw = if x + 10 * s.setBudget t < s.setBudget t * 1000 then some (x + 10 * s.setBudget t) else none) ∧
    (¬ up ∨ die.val ∈ w.halvedDies ∨ temp < limitOf die → exec (.thermalHalving t die) s = .next s) ∧
    (up → die.val ∉ w.halvedDies → limitOf die ≤ temp → ∃ u, exec (.thermalHalving t die) s = .next u ∧ (u.tower t).halvedDies = w.halvedDies ++ [die.val] ∧
      u.fget thmStatusHotEvent t = 1 ∧ u.mem = s.mem ∧ (∀ g, dieOfDom g.domain.toNat = some die.val → u.fits t g = false) ∧
      (u.tower t).grants = w.grants.map fun g => if dieOfDom g.req.domain.toNat = some die.val then { g with granted := g.granted / 2 } else g) ∧
    (∃ u, exec (.thermalHalvingEnd t die) s = .next u ∧ TowerOnly s u t ∧
      u.tower t = { w with halvedDies := if temp < limitOf die - 2000 then w.halvedDies.filter (· ≠ die.val) else w.halvedDies }) ∧
    (¬ up ∨ at_ = 0 ∨ s.stamp t + 1 < at_ + 20000 ∨ temp < tripOf die → exec (.thermalTrip t die) s = .next s) ∧
    (up → at_ ≠ 0 → at_ + 20000 ≤ s.stamp t + 1 → tripOf die ≤ temp → ∃ u, exec (.thermalTrip t die) s = .next u ∧ u.mod.thermtripN = false ∧
      u.mod.tripped = true ∧ u.mod.railsOn = false ∧ u.clusters = [] ∧ u.mem.hbm = [] ∧ ∃ e ∈ u.mod.log, e.code = 0x0015 ∧ e.source = t.val) ∧
    (¬ up ∨ w.suspect = true ∨ est = 0 ∨ s.stamp t + 1 < est + 4000000 → exec (.thermalSensorSuspect t region) s = .next s) ∧
    (up → w.suspect = false → est ≠ 0 → est + 4000000 ≤ s.stamp t + 1 → ∃ u, exec (.thermalSensorSuspect t region) s = .next u ∧
      (u.tower t).suspect = true ∧ u.fget thmStatusHotEvent t = 1 ∧ ∃ e ∈ u.mod.log, e.code = 0x0014 ∧ e.source = t.val)

/-! ## Bring-up and management -/

/-- COLD_RESET, ISLAND_FAILOVER, PLL_HOLDOVER, PLL_HOLDOVER_EXIT, PLL_LOCK, PLL_LOCK_TIMEOUT, STAMP_TICK and STAMP_TOWER_STEER
(R22, R30, R40 to R42, R45, R421): a cold reset empties the module and keeps what lies outside it; whether a pulse below 10
µs resets is open (DESIGN CHOICE, log entry 2). A tick adds one count, and at most 100 ppm of adjustment, to the tower's stamp, and one to
the island's count for the lead tower; a tower in reset holds its stamp. A tower takes the lead's rate and steers against its
own difference, by a size that the specification leaves open (DESIGN CHOICE, log entry 52). A lock ends phase 3 when every tower has one or
is fenced off; without one its tower is. -/
def Obligations.ResetsAndClocks : Prop :=
  ∀ (s : State) (t : Fin 4) (ns : Nat) (straps : Straps),
    let m := s.mod
    let w := s.tower t
    let fine (w : Tower) : Nat := w.stamp.toNat * 2 ^ 32 + w.frac.toNat
    let locked := m.pllPhase.getD t false = true
    let runs := w.on = true ∧ w.fence = 0 ∧ locked
    let blank (u : State) : Prop := u.pending = s.pending ∧ u.clusters = [] ∧ u.queues = [] ∧ u.towers = [] ∧ u.reqs = [] ∧ u.mem.hbm = [] ∧
      u.mem.host = s.mem.host ∧ u.mod.straps = straps ∧ u.mod.invA = m.invA ∧ u.mod.invB = m.invB ∧ u.mod.nor = m.nor ∧ u.mod.phase = 0 ∧
      u.mod.ready = false ∧ u.mod.railsOn = false ∧ u.mod.moduleId = none ∧ (∃ e, u.mod.log = [e] ∧ e.code = 1 ∧ e.seq = 1) ∧
      ∀ x, x < 4 → u.fget pwrBudgetModuleW x = (match m.variant with | .x => 5600 | .s => 3200)
    (10000 ≤ ns → ∃ u, exec (.coldReset ns straps) s = .next u ∧ blank u) ∧
    (ns < 10000 → ∃ u, exec (.coldReset ns straps) s = .next u ∧ (blank u ∨ u = { s with free := s.free + 1 })) ∧
    (exec .islandFailover s = .next (if m.aonTower = 0 ∧ m.aonUp.getD 1 false = true
      then { s with mod := { m with aonTower := 1, aonUp := [false, true], mirrorOk := false } } else s)) ∧
    (m.holdover.length = 4 →
      (¬ runs ∨ m.holdover.getD t false = true → exec (.pllHoldover t) s = .next s) ∧
      (runs → m.holdover.getD t false = false → ∃ u, exec (.pllHoldover t) s = .next u ∧ u.mod.holdover.getD t false = true ∧
        u.fget hltClkStatusHoldoverSeen t = 1 ∧ (∃ e ∈ u.mod.log, e.code = 0x0016 ∧ e.source = t.val ∧ e.detail = [1#32]) ∧ u.towers = s.towers) ∧
      (m.holdover.getD t false = false → exec (.pllHoldoverExit t) s = .next s) ∧
      (m.holdover.getD t false = true → ∃ u, exec (.pllHoldoverExit t) s = .next u ∧ u.mod.holdover.getD t false = false ∧
        (∃ e ∈ u.mod.log, e.code = 0x0016 ∧ e.source = t.val ∧ e.detail = [0#32]) ∧ u.towers = s.towers)) ∧
    (∃ u, exec (.stampTick t) s = .next u ∧ u.mod.aonStamp = (if m.lead = t.val then m.aonStamp + 1 else m.aonStamp) ∧ u.mem = s.mem ∧ u.regs = s.regs ∧
      (∀ x, x ≠ t.val → u.tower x = s.tower x) ∧ (¬ runs ∨ w.inTower = true → u.towers = s.towers) ∧
      (runs → w.inTower = false → ∃ a : Int, -429496 ≤ a ∧ a ≤ 429496 ∧ (w.rate + w.steer = 0 → a = 0) ∧
        (fine (u.tower t) : Int) = ((fine w : Int) + 2 ^ 32 + a) % 2 ^ 96 ∧ (u.tower t).rate = w.rate ∧ (u.tower t).grants = w.grants)) ∧
    (m.lead = t.val ∨ ¬ runs ∨ w.inTower = true → exec (.stampTowerSteer t) s = .next s) ∧
    (m.lead ≠ t.val → runs → w.inTower = false → let l := s.tower m.lead
      ∃ u, exec (.stampTowerSteer t) s = .next u ∧ (u.tower t).rate = l.rate ∧ (u.tower t).stamp = w.stamp ∧ (u.tower t).steer.natAbs ≤ 429496 ∧
        (fine w < fine l → 0 < (u.tower t).steer) ∧ (fine l < fine w → (u.tower t).steer < 0) ∧ (fine w = fine l → (u.tower t).steer = 0)) ∧
    (m.phase ≠ 2 ∨ ¬ (w.on = true ∧ w.fence = 0) ∨ locked → exec (.pllLock t) s = .next s ∧ exec (.pllLockTimeout t) s = .next s) ∧
    (m.phase = 2 → w.on = true → w.fence = 0 → ¬ locked → m.pllPhase.length = 4 →
      (∃ u, exec (.pllLock t) s = .next u ∧ u.mod.pllPhase = m.pllPhase.set t true ∧
        (u.tower t).stamp = (if m.warm then BitVec.ofNat 64 m.aonStamp else w.stamp) ∧
        u.mod.phase = if ((List.range 4).all fun x => decide ((s.tower x).fence ≠ 0 ∨ x = t.val) || m.pllPhase.getD x false) = true then
          (if (s.tower 0).fence ≠ 0 ∧ (s.tower 1).fence ≠ 0 then 2 else 3) else 2) ∧
      ∃ u, exec (.pllLockTimeout t) s = .next u ∧ (u.tower t).fence = (if m.warm then 4 else 1) ∧ (u.tower t).on = false ∧
        u.fget pwrBudgetTowerW t = 0)

/-- FIRMWARE_FETCH, FW_SOURCE_FAILED, STAGING_LENGTH_WRITE and FIRMWARE_UPDATE (R419, R420, R436, R452, R454): a package that a
source delivers and that passes every step of R452 is the running one; one that fails a step marks its source, whose failure
is logged, and the next of the strap's order is tried, the last one leaving the module FAILED; an update replaces the flash
image only when it is valid, and restarts a module that stopped for want of firmware. -/
def Obligations.FirmwareComesFromItsSources : Prop :=
  ∀ (s : State) (src : Fin 3) (pkg : List Byte) (len : Nat),
    let m := s.mod
    let open_ := m.phase = 1 ∧ m.railsOn = true ∧ m.fwSource = src.val
    let k := pkgStep pkg
    let runs (u : State) : Prop := u.mod.verified = true ∧ u.mod.pkg = pkg ∧ (u.mod.phase = 2 ∨ u.mod.phase = 3) ∧ u.mod.lead < 2
    (¬ open_ ∨ m.fwFail ≠ 0 ∨ s.delivers src pkg = false → exec (.firmwareFetch src pkg) s = .next s) ∧
    (open_ → m.fwFail = 0 → s.delivers src pkg = true → ∃ u, exec (.firmwareFetch src pkg) s = .next u ∧
      (k = 0 → runs u ∧ u.mod.fwSource = src.val) ∧ (k ≠ 0 → u.mod.fwFail = k ∧ u.mod.verified = m.verified ∧ u.mod.phase = 1 ∧ u.towers = s.towers)) ∧
    (¬ open_ → exec (.fwSourceFailed src) s = .next s) ∧
    (open_ → ∃ u, exec (.fwSourceFailed src) s = .next u ∧ u.mod.fwTried = m.fwTried ++ [src.val] ∧
      (∃ e ∈ u.mod.log, e.code = 0x0004 ∧ e.detail.head? = some (BitVec.ofNat 32 src)) ∧
      let left := (fwOrder m.straps.fwsrc).filter fun x => x ∉ m.fwTried ∧ x ≠ src.val
      (∀ x, left.head? = some x → u.mod.fwSource = x ∧ u.mod.phase = 1 ∧ u.mod.fwFail = 0) ∧
      (left = [] → u.mod.phase = 15 ∧ u.mod.health = .failed)) ∧
    (exec (.stagingLengthWrite len) s = .next (if m.phase = 1 ∧ m.fwSource = 0 ∧ s.hostUp = true ∧ m.staging = none
      then { s with mod := { m with staging := some len } } else s)) ∧
    (m.ready = true → ∃ u, exec (.firmwareUpdate pkg) s = .next u ∧ u.mem = s.mem ∧ u.mod.nor = (if k = 0 then pkg else m.nor) ∧
      u.mod.pkg = m.pkg ∧ (k = 0 → ∃ e ∈ u.mod.log, e.code = 0x0037)) ∧
    (m.ready = false → m.phase ≠ 15 → exec (.firmwareUpdate pkg) s = .next s) ∧
    (m.ready = false → m.phase = 15 → ∃ u, exec (.firmwareUpdate pkg) s = .next u ∧ (k = 0 → runs u) ∧ (k ≠ 0 → u.mod.phase = 15 ∧ u.mod.verified = m.verified))

/-- TRAINING_COMPLETE, MEMORY_TEST, SOFT_REPAIR, CLUSTER_SELF_TEST, READY and CE_TREND_WINDOW (R42, R422 to R427, R437, Table
14-1): channels that failed training fail; the memory test leaves what it tested empty, and in a MODULE_WARM leaves HBM
alone; soft repair makes every failing shelf's place a lost one; a cluster that fails its self-test is replaced by its row's
free spare, or absent; the module is READY when every port has settled, with its stamps aligned; an hour above the threshold
is counted, and enough of them in a row raise the trigger. -/
def Obligations.BringUpReachesReady : Prop :=
  ∀ (s : State) (f : TestFindings) (failed : List (Nat × Nat × Nat)) (t : Fin 4) (row : Fin 8) (col : Fin 17) (pass : Bool),
    let m := s.mod
    (m.phase ≠ 3 → exec (.trainingComplete failed) s = .next s) ∧
    (m.phase = 3 → ∃ u, exec (.trainingComplete failed) s = .next u ∧ u.mod.phase = 4 ∧
      ∀ e ∈ failed, e.1 < 4 → (s.tower e.1).fence = 0 → e.2.1 < 8 → e.2.2 < 32 → u.chanFailed e.1 e.2.1 e.2.2 = true) ∧
    (m.phase ≠ 4 → exec (.memoryTest f) s = .next s) ∧
    (m.phase = 4 → ∃ u, exec (.memoryTest f) s = .next u ∧ u.mod.phase = 5 ∧ u.mem.shelf = [] ∧ u.mem.cells = [] ∧ u.mem.valid = [] ∧
      u.mem.hbm = (if m.warm then s.mem.hbm else []) ∧ u.mem.remap = s.mem.remap ∧ u.towers = s.towers ∧
      ∃ g, u.mod.findings = some g ∧ (m.warm = true → g.hbm = []) ∧ ∀ e ∈ f.shelves, e.1 < 4 → (s.tower e.1).fence = 0 → e ∈ g.shelves) ∧
    (m.phase ≠ 5 ∨ m.findings = none → exec .softRepair s = .next s) ∧
    (m.phase = 5 → m.findings = some f → ∃ u, exec .softRepair s = .next u ∧ (u.mod.phase = 6 ∨ u.mod.phase = 7) ∧ u.mod.findings = none ∧
      ∀ e ∈ f.shelves, e.1 < 4 → (s.tower e.1).fence = 0 → e.2.1 < 8 → e.2.2 < 17 → 17 * e.2.1 + e.2.2 ∈ (u.tower e.1).lostPos) ∧
    (s.logical t (17 * row + col) = none → exec (.clusterSelfTest t row col pass) s = .next s) ∧
    (∀ c, s.logical t (17 * row + col) = some c → let x := s.clu t c
      (x.dom ≠ .waking ∨ x.selfTested = true → exec (.clusterSelfTest t row col pass) s = .next s) ∧
      ((s.tower t).on = true → (s.tower t).fence = 0 → x.dom = .waking → x.selfTested = false →
        (exec (.clusterSelfTest t row col true) s = .next (s.modClu t c fun y => { y with selfTested := true })) ∧
        ∃ u, exec (.clusterSelfTest t row col false) s = .next u ∧ (s.spare t row ≠ 8 → 17 * row.val + col.val ∈ (u.tower t).lostPos) ∧
          (c < 128 → gridRow c = row.val → col.val ≠ 8 → s.spare t row ≠ 0xFF → (u.clu t c).absent = true ∧ (u.clu t c).dom = .lost) ∧
          (c < 128 → gridRow c = row.val → col.val ≠ 8 → s.spare t row = 0xFF → 17 * row.val + 8 ∉ (s.tower t).lostPos →
            (∀ d, d < 128 → gridRow d = row.val → (s.clu t d).absent = false) → (u.clu t c).absent = false ∧ u.spare t row = gridCol c))) ∧
    (m.phase ≠ 7 ∨ s.portsSettled = false → exec .ready s = .next s) ∧
    (m.phase = 7 → s.portsSettled = true → ∃ u, exec .ready s = .next u ∧ u.mod.ready = true ∧ u.mod.phase = 8 ∧ u.mod.warm = false ∧
      u.mod.bootMs = (m.aonStamp - m.bootStart) / 200000 ∧ u.mem = s.mem ∧
      (∀ x, x < 4 → (u.tower x).stamp = (s.tower m.lead).stamp ∧ (u.tower x).aligned = true) ∧
      (∃ e ∈ u.mod.log, e.code = 0x0002) ∧ ∀ w ∈ u.mod.waiting, ¬ (w.1 = 5 ∧ w.2.1 = 0)) ∧
    (m.ready = false → exec .ceTrendWindow s = .next s) ∧
    (m.ready = true → ∃ u, exec .ceTrendWindow s = .next u ∧ u.mod.ceLast = m.ceNow ∧ u.mod.ceNow = 0 ∧ u.mem = s.mem ∧
      u.mod.ceOver = (if m.ceThreshold < m.ceNow then min 255 (m.ceOver + 1) else 0) ∧
      (m.ceWindows ≤ u.mod.ceOver → u.mod.sticky.getLsbD 5 = true) ∧ (u.mod.ceOver < m.ceWindows → u.mod.sticky = m.sticky))

/-- GET_VERSION, GET_CAPABILITIES, NEGOTIATE_ALGORITHMS, GET_DIGESTS, GET_CERTIFICATE, CHALLENGE, GET_MEASUREMENTS,
DYNAMIC_ADDRESS_ASSIGN, MCTP_CONTROL, PLDM_BASE_DISCOVERY, PLDM_SENSOR_READ, POLL_FOR_PLATFORM_EVENT_MESSAGE,
VENDOR_COMMAND_MESSAGE, VENDOR_MEMORY_READ and VENDOR_MEMORY_WRITE (R457 to R462, R465): while an always-on island answers,
every message is answered, a signed one only with the identity key; the oldest unacknowledged event is delivered and
acknowledged; a vendor message's packets enter the management queue; a malformed one changes nothing but the answers. Their
framing is the standards' own (PRESUMED, log entry 72). -/
def Obligations.ManagementMessagesAreAnswered : Prop :=
  ∀ (s : State) (msg nonce : List Byte) (slot off len sensor : Nat) (index : BitVec 8) (sign : Bool) (addr : BitVec 7),
    let m := s.mod
    let up := ∃ b ∈ m.aonUp, b = true
    let tells (i : Instr) (kind : Nat) (content : List Byte) (P : State → Prop) : Prop := ∃ u, exec i s = .next u ∧
      u.out = .mgmt (Config.standardReply kind content) :: s.out ∧ { u with mod := m, out := s.out, free := s.free } = s ∧ P u
    let logs (request : List Byte) (u : State) : Prop := u.mod = { m with spdmLog := m.spdmLog ++ request }
    let same (u : State) : Prop := u.mod = m
    (¬ up → ∀ i ∈ [Instr.getVersion msg, .getCapabilities msg, .negotiateAlgorithms msg, .getDigests msg, .getCertificate slot off len
      , .challenge slot nonce, .getMeasurements index sign nonce, .dynamicAddressAssign addr, .mctpControl msg, .pldmBaseDiscovery msg
      , .pldmSensorRead sensor, .pollForPlatformEventMessage, .vendorCommandMessage msg, .vendorMemoryRead msg, .vendorMemoryWrite msg]
      , exec i s = .next s) ∧
    (up →
      tells (.getVersion msg) 0x104 [0x12#8, 0x13#8] (fun u => u.mod = { m with spdmLog := msg }) ∧
      tells (.getCapabilities msg) 0x161 (leBytes 4 0x16) (logs msg) ∧
      tells (.negotiateAlgorithms msg) 0x163 (leBytes 4 0x80 ++ leBytes 4 2 ++ leBytes 4 4) (logs msg) ∧
      (m.seed = none → tells (.getDigests msg) 0 msg (logs msg) ∧ tells (.challenge 0 nonce) 0 (0#8 :: nonce) (logs (0#8 :: nonce))) ∧
      (∀ key, m.seed = some key → tells (.getDigests msg) 0x101 (1#8 :: digestBytes (Config.sha384 m.certs)) (logs msg) ∧
        (off ≤ m.certs.length → let part := (m.certs.drop off).take len
          tells (.getCertificate 0 off len) 0x102 (leBytes 2 part.length ++ leBytes 2 (m.certs.length - off - part.length) ++ part) fun u =>
            u.mod.certs = m.certs) ∧
        let c := digestBytes (Config.sha384 m.certs)
        tells (.challenge 0 nonce) 0x103 (c ++ Config.identitySign key (m.spdmLog ++ 0#8 :: nonce ++ c)) (logs (0#8 :: nonce))) ∧
      (slot ≠ 0 → ∃ r, tells (.getCertificate slot off len) 0 r (logs r) ∧ ∃ r, tells (.challenge slot nonce) 0 r (logs r)) ∧
      (index = 0#8 → tells (.getMeasurements index false nonce) 0x160 [16#8] (logs (index :: nonce))) ∧
      (1 ≤ index.toNat → index.toNat ≤ 16 → tells (.getMeasurements index false nonce) 0x160
        (leBytes 1 index.toNat ++ digestBytes (SMap.get 0#384 m.meas (index.toNat - 1))) (logs (index :: nonce))) ∧
      (16 < index.toNat → index ≠ 0xFF#8 → tells (.getMeasurements index sign nonce) 0 (index :: nonce) (logs (index :: nonce))) ∧
      exec (.dynamicAddressAssign addr) s = .next { s with mod := { m with dynAddr := addr } } ∧
      (∀ a b e rest, msg = a :: b :: e :: rest → b = 1#8 → e.toNat ≤ 1 → rest ≠ [] → tells (.mctpControl msg) 0x200 msg fun u =>
        u.mod = { m with eid := rest.headD 0#8 }) ∧
      (msg.getD 1 0#8 ≠ 1#8 → tells (.mctpControl msg) 0x200 msg same) ∧ tells (.pldmBaseDiscovery msg) 0x300 msg same ∧
      (sensor = 2 → tells (.pldmSensorRead sensor) 0x302 (leBytes 2 2 ++ leBytes 4 ((s.tower 0).drawnW + (s.tower 1).drawnW + (s.tower 2).drawnW +
        (s.tower 3).drawnW)) same) ∧
      (sensor = 19 → tells (.pldmSensorRead sensor) 0x302 (leBytes 2 19 ++ leBytes 4 m.health.code) same) ∧
      (19 < sensor → tells (.pldmSensorRead sensor) 0 (leBytes 2 sensor) same) ∧
      ((∀ e ∈ m.log, e.seq ≤ m.acked) → tells .pollForPlatformEventMessage 0x303 [] same) ∧
      (∀ a e b, m.log = a ++ e :: b → (∀ x ∈ a, x.seq ≤ m.acked) → m.acked < e.seq → e.seq ≤ m.newest →
        tells .pollForPlatformEventMessage 0x303 e.bytes fun u => u.mod.acked = e.seq ∧ u.mod.log = m.log) ∧
      (vendorPackets msg = none → tells (.vendorCommandMessage msg) 0 msg same) ∧
      (∀ ps, vendorPackets msg = some ps → let q := m.lead * 256 + 255
        let n := (msg.length - 4) / 64
        let y := s.queue q
        (s.qEnabled q = false → tells (.vendorCommandMessage msg) 0 msg same) ∧
        (s.qEnabled q = true → 2 ^ s.qSize q < (y.tail - y.head).toNat + n → tells (.vendorCommandMessage msg) 1 msg same) ∧
        (s.qEnabled q = true → (s.tower m.lead).fence = 0 → (y.tail - y.head).toNat + n ≤ 2 ^ s.qSize q → ∃ u, exec (.vendorCommandMessage msg) s = .next u ∧ u.out = s.out ∧
          (u.queue q).tail = y.tail + BitVec.ofNat 32 n ∧ (u.queue q).head = y.head ∧ (∀ j, j ≠ q → u.queue j = s.queue j) ∧ u.mem = s.mem ∧
          u.mod.vendor = m.vendor ++ [⟨m.nextId, ps.map fun _ => none⟩])) ∧
      (s.vendorRange 2 msg = none → tells (.vendorMemoryRead msg) 0 msg same) ∧ (s.vendorRange 3 msg = none → tells (.vendorMemoryWrite msg) 0 msg same) ∧
      (∀ a n, s.vendorRange 2 msg = some (a, n) → let r := s.gread s.mgmtAgent a n
        r.st = 0 → (∀ b ∈ r.data, isBad b = false) → ∃ u, exec (.vendorMemoryRead msg) s = .next u ∧ u.mem = r.s.mem ∧
          u.out = .mgmt (r.data.map dataOf) :: r.s.out) ∧
      (∀ a n, s.vendorRange 3 msg = some (a, n) → msg.length = 14 + n → let w := s.gwriteB s.mgmtAgent a (msg.drop 14)
        w.st = 0 → ∃ u, exec (.vendorMemoryWrite msg) s = .next u ∧ u.mem = w.s.mem ∧ u.out = .mgmt [] :: w.s.out))

/-! ## Registers -/

/-- REGISTER_WRITE (R8, R11, R12): a write that falls on one register without an effect of its own gives its RW bits the value,
clears its W1C bits by ones, gives its WS bits to the staged copy only, and leaves every other bit, every other register and
everything else; two registers under one access of 8 bytes are written in turn; a write where no register lies has no effect
(R269). The commit writes (R11, R119, R267, R301, R318, R347, R416): writing 1 takes the staged copies of the block and waits
for its boundary, writing 0 does nothing; queue and dispatch values are first brought into range. A check-value unit's
boundary stands at once (DEDUCED, log entry 40), and T2 and T3 have no bridge unit. TALLY_REGISTER_WRITE is a SET (R180), the FLIPMASK
writes set their fields (R261, R262), and MGT_LOG.acked advances the acknowledged number (R465). -/
def Obligations.RegisterWritesFollowTheirAccessCodes : Prop :=
  ∀ s : State,
    (∀ rq addr size v l b, FallsOn s addr size l b → takesWrites l = true →
      ∃ u, exec (.registerWrite rq addr size v) s = .next u ∧
        (∀ i, i < 64 → (u.reg l).getLsbD i = writtenBit l.r (s.reg l) v (8 * b) (8 * size) i) ∧
        (∀ i, i < 64 → (u.stg l).getLsbD i = stagedBit l.r (s.stg l) v (8 * b) (8 * size) i) ∧
        (∀ k, k.key ≠ l.key → u.reg k = s.reg k ∧ u.stg k = s.stg k) ∧
        { u with regs := s.regs, staged := s.staged, latch := s.latch } = s) ∧
    (∀ rq addr v l k, FallsOn s addr 4 l 0 → FallsOn s (addr + 4) 4 k 0 → addr % 8 = 0 → l.key ≠ k.key →
      l.r.place.width = 32 → k.r.place.width = 32 → takesWrites l = true → takesWrites k = true →
      ∃ u, exec (.registerWrite rq addr 4 v) s = .next u ∧
        exec (.registerWrite rq addr 8 v) s = exec (.registerWrite rq (addr + 4) 4 (v >>> 32)) u) ∧
    (∀ rq addr size v, (∀ i, i < size → locate (addr / 2 ^ 32 % 4) (addr % 2 ^ 32 + i) = none) →
      exec (.registerWrite rq addr size v) s = .next s) ∧
    (∀ r v, s.mmioOpen r.t (r.c * 0x100000) = true → ∃ u, exec (.arrCommitWrite r v) s = .next u ∧
      (if v.getLsbD 0 then Requested s u [⟨.arrPower, r.t, r.c, 0, 0⟩, ⟨.arrLfsrSeed, r.t, r.c, 0, 0⟩] ⟨.arrCommit, r.t, r.c, 0, 0⟩
       else { u with latch := s.latch } = s)) ∧
    (∀ (t : Fin 4) v, s.mmioOpen t 0x10000000 = true →
      (∃ u, exec (.celCommitWrite t v) s = .next u ∧
        (if v.getLsbD 0 then Requested s u ([0, 1].flatMap fun d => [⟨.celSplit, t, d, 0, 0⟩, ⟨.celScrubCtl, t, d, 0, 0⟩]) ⟨.celCommit, t, 0, 0, 0⟩
         else { u with latch := s.latch } = s)) ∧
      (∃ u, exec (.panCommitWrite t v) s = .next u ∧
        (if v.getLsbD 0 then Requested s u [⟨.panPolicy, t, 0, 0, 0⟩] ⟨.panCommit, t, 0, 0, 0⟩ else { u with latch := s.latch } = s)) ∧
      (∃ u, exec (.hbmCommitWrite t v) s = .next u ∧
        (if v.getLsbD 0 then Requested s u [⟨.hbmRegBudget, t, 0, 0, 0⟩, ⟨.hbmRegCtl, t, 0, 0, 0⟩] ⟨.hbmCommit, t, 0, 0, 0⟩
         else { u with latch := s.latch } = s)) ∧
      (∃ u, exec (.lnkCommitWrite t v) s = .next u ∧
        (if v.getLsbD 0 then Requested s u [⟨.lnkCfg, t, 0, 0, 0⟩, ⟨.lnkHostBridge, t, 0, 0, 0⟩] ⟨.lnkCommit, t, 0, 0, 0⟩
         else { u with latch := s.latch } = s)) ∧
      (∃ u, exec (.pwrCommitWrite t v) s = .next u ∧
        (if v.getLsbD 0 then Requested s u [⟨.pwrPolicy, t, 0, 0, 0⟩] ⟨.pwrCommit, t, 0, 0, 0⟩ else { u with latch := s.latch } = s)) ∧
      (∃ u, exec (.cmdCommitWrite t v) s = .next u ∧
        (if v.getLsbD 0 then u.commitPending .cmdCommit t 0 = true ∧ (∀ l, l.key ≠ Loc.key ⟨.cmdCommit, t, 0, 0, 0⟩ → u.reg l = s.reg l) ∧
            (∀ l ∈ commitSet .cmdCommit t 0, u.lck l = u.stg l) ∧
            (let w := u.lck ⟨.cmdDispatch, t, 0, 0, 0⟩
             10 ≤ fld w cmdDispatchSliceUs.hi cmdDispatchSliceUs.lo ∧ fld w cmdDispatchSliceUs.hi cmdDispatchSliceUs.lo ≤ 1000 ∧
             1 ≤ fld w cmdDispatchClass7QueueLimit.hi cmdDispatchClass7QueueLimit.lo ∧
             fld w cmdDispatchClass7QueueLimit.hi cmdDispatchClass7QueueLimit.lo ≤ 64) ∧
            { u with regs := s.regs, locked := s.locked, latch := s.latch, staged := s.staged } = s
         else { u with latch := s.latch } = s))) ∧
    (∀ (c : CvuRef) v, (v.getLsbD 0 = false → exec (.cvuCommitWrite c v) s = .next s) ∧
      (∀ t : Fin 4, 2 ≤ t.val → exec (.cvuCommitWrite (.bridge t) v) s = .next s) ∧
      (v.getLsbD 0 = true → (∀ t : Fin 4, c = .bridge t → t.val < 2) → ∃ u, exec (.cvuCommitWrite c v) s = .next u ∧
        (let n := cvuOf c
         (∀ i, i < 8 → u.fget cvuPolyValue n.1 n.2 i = (s.stg ⟨.cvuPoly, n.1, n.2, i, 0⟩).toNat % 2 ^ (cvuPolyValue.hi + 1) ∧
           u.fget cvuCtlKind n.1 n.2 i = fld (s.stg ⟨.cvuCtl, n.1, n.2, i, 0⟩) cvuCtlKind.hi cvuCtlKind.lo ∧
           ((s.ctx n.1 n.2 i).newRun = true → (u.ctx n.1 n.2 i).run = u.reg ⟨.cvuRun, n.1, n.2, i, 0⟩) ∧
           ((s.ctx n.1 n.2 i).newRun = false → (u.ctx n.1 n.2 i).run = (s.ctx n.1 n.2 i).run) ∧ (u.ctx n.1 n.2 i).newRun = false) ∧
         u.mem = s.mem ∧ u.clusters = s.clusters ∧ u.queues = s.queues))) ∧
    (∀ (r : CluRef) (n : Fin 128) a, s.mmioOpen r.t (r.c * 0x100000) = true → ∃ u, exec (.tallyRegisterWrite r n a) s = .next u ∧
      TallyBecomes s u r.t r.c n
        (let y := s.tally r.t r.c n
         match a with
         | .val v => settled { y with count := BitVec.ofNat 32 v.toNat, target := BitVec.ofNat 32 (v.toNat / 2 ^ 32), done := false }
         | .count v => settled { y with count := v, done := false }
         | .target v => settled { y with target := v, done := false }
         | .ctl v => { y with auto := v.getLsbD 1, sat := y.sat && !v.getLsbD 3 })) ∧
    (∀ (t : Fin 4) (d : Fin 2) (b : Fin 136) v, s.mmioOpen t 0x10000000 = true → ∃ u, exec (.celFlipmaskWrite t d b v) s = .next u ∧
      (let l : Loc := ⟨.celFlipmask, t, d, b, 0⟩
       (∀ i, i < 64 → (u.reg l).getLsbD i = writtenBit .celFlipmask (s.reg l) v 0 64 i) ∧ (∀ k, k.key ≠ l.key → u.reg k = s.reg k) ∧
       { u with regs := s.regs, latch := s.latch } = s)) ∧
    (∀ (r : CluRef) v, s.mmioOpen r.t (r.c * 0x100000) = true → ∃ u, exec (.shfFlipmaskWrite r v) s = .next u ∧
      (let l : Loc := ⟨.shfFlipmask, r.t, r.c, 0, 0⟩
       (∀ i, i < 64 → (u.reg l).getLsbD i = writtenBit .shfFlipmask (s.reg l) v 0 64 i) ∧ (∀ k, k.key ≠ l.key → u.reg k = s.reg k) ∧
       { u with regs := s.regs, latch := s.latch } = s)) ∧
    (∀ v : W32, ∃ u, exec (.mgtLogAckWrite v) s = .next u ∧ u.mod.acked = max s.mod.acked (min v.toNat s.mod.newest) ∧
      u.mod.alertN = decide (s.mod.newest ≤ u.mod.acked) ∧ { u with mod := { u.mod with acked := s.mod.acked, alertN := s.mod.alertN } } = s)

/-- READ_CLEAR_REGISTER_READ and LOW_HALF_READ (R10, R13): a read of a whole register sends its value out and clears its RC bits;
a 32-bit read of the low half of a 64-bit register with an RO or RC field sends the low half, clears the RC bits and latches
the high half for the requester, whose next read of the high half returns it. PAN_DEAD_LOG_READ (R298) takes the oldest entry
out and latches its stamp. PWR_VMIN_READ (R387) returns a measured value, which is free (DESIGN CHOICE, log entry 2), and latches its stamp,
at most the present one. -/
def Obligations.RegisterReadsClearAndLatch : Prop :=
  ∀ s : State,
    (∀ rq addr l, FallsOn s addr (l.r.place.width / 8) l 0 → l.r ≠ .panDeadLog → l.r ≠ .pwrVmin → l.r.measured = false →
      ∃ u, exec (.readClearRegisterRead rq addr (l.r.place.width / 8)) s = .next u ∧
        u.out = .regRead rq (BitVec.ofNat 64 ((s.view l).toNat % 2 ^ l.r.place.width)) :: s.out ∧
        u.reg l = s.reg l &&& ~~~l.r.rcBits ∧ (∀ k, k.key ≠ l.key → u.reg k = s.reg k) ∧ (∀ a ∈ u.latch, a.key ≠ l.key) ∧
        { u with regs := s.regs, latch := s.latch, out := s.out } = s) ∧
    (∀ rq addr l, FallsOn s addr 4 l 0 → l.r.latches = true → l.r ≠ .panDeadLog → l.r ≠ .pwrVmin → l.r.measured = false →
      ∃ u, exec (.lowHalfRead rq addr) s = .next u ∧ exec (.readClearRegisterRead rq addr 4) s = .next u ∧
        u.out = .regRead rq (s.view l &&& 0xFFFFFFFF#64) :: s.out ∧
        u.reg l = s.reg l &&& ~~~l.r.rcBits ∧ (∀ k, k.key ≠ l.key → u.reg k = s.reg k) ∧
        { u with regs := s.regs, latch := s.latch, out := s.out } = s ∧
        (FallsOn s (addr + 4) 4 l 4 → ∃ w, exec (.readClearRegisterRead rq (addr + 4) 4) u = .next w ∧
          w.out = .regRead rq (s.view l >>> 32) :: u.out ∧ w.regs = u.regs ∧ ∀ a ∈ w.latch, a.key ≠ l.key)) ∧
    (∀ t : Fin 4, s.mmioOpen t 0x10000000 = true → ∃ u, exec (.panDeadLogRead t) s = .next u ∧
      u.out = .regRead 0 (s.view ⟨.panDeadLog, t, 0, 0, 0⟩) :: s.out ∧
      (u.tower t).deadLog = (s.tower t).deadLog.tail ∧
      (∀ d rest, (s.tower t).deadLog = d :: rest → u.reg ⟨.panDeadStamp, t, 0, 0, 0⟩ = d.stamp) ∧
      (∀ k, k.key ≠ Loc.key ⟨.panDeadStamp, t, 0, 0, 0⟩ → u.reg k = s.reg k) ∧
      ((s.tower t).deadLog = [] → u.regs = s.regs) ∧ TowerOnly s { u with regs := s.regs, latch := s.latch, out := s.out } t) ∧
    (∀ (t : Fin 4) d, s.mmioOpen t 0x10000000 = true → isDomain s.mod.variant t d = true → ∃ u v,
      exec (.pwrVminRead t d) s = .next u ∧ u.out = .regRead 0 v :: s.out ∧ v.toNat < 65536 ∧
      (u.reg ⟨.pwrVminStamp, t, 0, d, 0⟩).toNat ≤ s.stamp t ∧
      (∀ k, k.key ≠ Loc.key ⟨.pwrVminStamp, t, 0, d, 0⟩ → u.reg k = s.reg k) ∧
      { u with regs := s.regs, latch := s.latch, out := s.out, free := s.free } = s)

/-- R8: what a write carries for the RO fields of a register changes nothing of what the write does, and the write completes; a
W1C bit for which it carries a 0 reads afterwards as before. For every register of the map. -/
def Obligations.WritesOfReadOnlyFieldsAreIgnored : Prop :=
  ∀ (s : State) (rq addr size : Nat) (l : Loc) (b : Nat) (v w : W64), FallsOn s addr size l b →
    (∃ u, exec (.registerWrite rq addr size v) s = .next u ∧
      ∀ i, i < 8 * size → l.r.w1cBits.getLsbD (8 * b + i) = true → v.getLsbD i = false →
        (u.view l).getLsbD (8 * b + i) = (s.view l).getLsbD (8 * b + i)) ∧
    ((∀ i, i < 8 * size → (l.r.bitsWhere fun f => f.acc = .ro).getLsbD (8 * b + i) = false → v.getLsbD i = w.getLsbD i) →
      exec (.registerWrite rq addr size v) s = exec (.registerWrite rq addr size w) s)

/-! ## Reset and invariants -/

/-- Reset (R14, R30, R353, R391, R418, R463): every register and staged copy holds the value of its map, the budgets the
variant's default, of which each tower has a quarter; no queue is enabled, nothing runs, no power is on, bring-up stands in
its first phase, and the event log holds LOG_START with the boot count. What the module's memories hold before bring-up is
the model's choice (DESIGN CHOICE, log entry 60). -/
def Obligations.ResetLeaves : Prop :=
  let s := State.reset
  (∀ l : Loc, (∀ t, t < 4 → l.key ≠ Loc.key ⟨.pwrBudget, t, 0, 0, 0⟩) → s.reg l = l.r.resetWord) ∧
  (∀ l : Loc, s.stg l = l.r.resetWord ∧ s.lck l = l.r.resetWord) ∧
  (∀ t, t < 4 → s.fget pwrBudgetModuleW t = 5600 ∧ s.fget pwrBudgetTowerW t = 1400) ∧
  (∀ q, q < 1024 → s.flag cmdQcfgEnable (q / 256) 0 (q % 256) = false ∧ (s.queue q).running = []) ∧
  (∀ t c, (s.clu t c).arr.queue = [] ∧ (s.clu t c).team = none) ∧ s.bunches = [] ∧
  (∀ t, (s.tower t).on = false ∧ (s.tower t).stamp = 0#64 ∧ (s.tower t).fence = 0) ∧
  s.mod.phase = 0 ∧ s.mod.ready = false ∧ s.mod.railsOn = false ∧ s.mod.health = .good ∧
  s.mod.log.map (fun e => (e.seq, e.code, e.severity)) = [(1, 1, 0)] ∧ s.mod.acked = 0 ∧ s.mod.alertN = false ∧
  s.pending = [] ∧ s.reqs = [] ∧ s.out = [] ∧ Memory.wf s.mem = true ∧ s.mod.logOk

/-- Every command keeps every memory of the module, and the host's, in canonical form, from every state in which they are so:
equal memories stay equal data. -/
def Obligations.EveryStepKeepsMemoriesCanonical : Prop :=
  ∀ s u : State, step s = .next u → Memory.wf s.mem = true → Memory.wf u.mem = true

/-- Every command keeps the event log as R463 and R465 give it, from every state in which it is so: a ring of at most 1,024
entries with consecutive sequence numbers that end at the newest, an acknowledged number never beyond the newest, and
SB_ALERT_N low exactly while the newest entry lies beyond it. -/
def Obligations.EveryStepKeepsTheEventLog : Prop :=
  ∀ s u : State, step s = .next u → s.mod.logOk → u.mod.logOk
end

