-- ==== Sys2Proof/Laws/Store.lean ====
section
/-! SUPPORT. Sparse stores: reads after writes, and the operations that keep their form. -/

namespace Sys2Proof.Machine

theorem SMap.sorted_nil {α : Type} : SMap.sorted ([] : SMap α) := List.Pairwise.nil

theorem SMap.sorted_cons {α : Type} {k : Nat} {v : α} {m : SMap α} :
    SMap.sorted ((k, v) :: m) ↔ (∀ e ∈ m, k < e.1) ∧ SMap.sorted m := by
  simp [SMap.sorted]

theorem SMap.above_iff {α : Type} {b : Nat} {m : SMap α} : SMap.above b m = true ↔ ∀ e ∈ m, b < e.1 := by
  induction m with
  | nil => simp [SMap.above]
  | cons e m ih => obtain ⟨k, v⟩ := e; simp [SMap.above, ih]

theorem SMap.wf_iff {α : Type} [DecidableEq α] {d : Nat → α} {m : SMap α} :
    SMap.wf d m = true ↔ SMap.sorted m ∧ ∀ e ∈ m, e.2 ≠ d e.1 := by
  induction m with
  | nil => simp [SMap.wf, SMap.sorted]
  | cons e m ih =>
    obtain ⟨k, v⟩ := e
    simp only [SMap.wf, Bool.and_eq_true, decide_eq_true_eq, ih, SMap.above_iff, SMap.sorted_cons, List.forall_mem_cons]
    tauto

theorem SMap.get_remove {α : Type} (d : α) (m : SMap α) (i j : Nat) :
    SMap.get d (m.filter fun e => e.1 != i) j = if j = i then d else SMap.get d m j := by
  induction m with
  | nil => simp [SMap.get]
  | cons e m ih =>
    obtain ⟨k, w⟩ := e
    simp only [List.filter_cons, SMap.get]
    by_cases hk : k = i
    · subst hk
      by_cases hj : j = k
      · subst hj; simpa using ih
      · simp [ih, hj]
    · by_cases hj : j = i
      · subst hj
        have : j ≠ k := fun h => hk h.symm
        simp [hk, SMap.get, ih, this]
      · simp [hk, SMap.get, ih, hj]

theorem SMap.get_insert_other {α : Type} (d : α) (m : SMap α) (i : Nat) (v : α) {j : Nat} (h : j ≠ i) :
    SMap.get d (SMap.insert m i v) j = SMap.get d m j := by
  induction m with
  | nil => simp [SMap.insert, SMap.get, h]
  | cons e m ih =>
    obtain ⟨k, w⟩ := e
    simp only [SMap.insert]
    split <;> simp [SMap.get, h, ih]

theorem SMap.get_insert_self {α : Type} (d : α) (m : SMap α) (i : Nat) (v : α) :
    SMap.get d (SMap.insert (m.filter fun e => e.1 != i) i v) i = v := by
  induction m with
  | nil => simp [SMap.insert, SMap.get]
  | cons e m ih =>
    obtain ⟨k, w⟩ := e
    by_cases hk : k = i
    · subst hk; simpa using ih
    · have hi : i ≠ k := fun h => hk h.symm
      simp only [List.filter_cons, bne_iff_ne, ne_eq, hk, not_false_eq_true, if_true, SMap.insert]
      split <;> simp [SMap.get, hi, ih]

/-- A write reads back. -/
@[simp] theorem SMap.get_put_self {α : Type} [DecidableEq α] (d : α) (m : SMap α) (i : Nat) (v : α) :
    SMap.get d (SMap.put d m i v) i = v := by
  unfold SMap.put
  split
  · simp [SMap.get_remove, *]
  · simp [SMap.get_insert_self]

/-- A value that is not the default reads back whatever the default that reads. -/
theorem SMap.get_put_ne_default {α : Type} [DecidableEq α] {d b : α} (m : SMap α) (i : Nat) {v : α} (hv : v ≠ d) :
    SMap.get b (SMap.put d m i v) i = v := by
  simp [SMap.put, if_neg hv, SMap.get_insert_self]

/-- A write leaves every other key alone. -/
@[simp] theorem SMap.get_put_other {α : Type} [DecidableEq α] {d b : α} (m : SMap α) {i j : Nat} (v : α) (h : j ≠ i) :
    SMap.get b (SMap.put d m i v) j = SMap.get b m j := by
  unfold SMap.put
  split
  · simp [SMap.get_remove, h]
  · simp [SMap.get_insert_other _ _ _ _ h, SMap.get_remove, h]

theorem SMap.remove_insert {α : Type} (m : SMap α) (i : Nat) (v : α) :
    (SMap.insert m i v).filter (fun e => e.1 != i) = m.filter fun e => e.1 != i := by
  induction m with
  | nil => simp [SMap.insert]
  | cons e m ih =>
    obtain ⟨k, w⟩ := e
    simp only [SMap.insert]
    split
    · simp [List.filter_cons]
    · simp [List.filter_cons, ih]

/-- A second write of a key replaces the first. -/
@[simp] theorem SMap.put_put {α : Type} [DecidableEq α] (d : α) (m : SMap α) (i : Nat) (v w : α) :
    SMap.put d (SMap.put d m i v) i w = SMap.put d m i w := by
  have : (SMap.put d m i v).filter (fun e => e.1 != i) = m.filter fun e => e.1 != i := by
    unfold SMap.put
    split <;> simp [SMap.remove_insert]
  generalize SMap.put d m i v = p at this
  simp only [SMap.put, this]

theorem SMap.mem_insert {α : Type} {m : SMap α} {i : Nat} {v : α} {e : Nat × α}
    (h : e ∈ SMap.insert m i v) : e ∈ m ∨ e = (i, v) := by
  induction m with
  | nil => simp_all [SMap.insert]
  | cons x m ih =>
    obtain ⟨k, w⟩ := x
    simp only [SMap.insert] at h
    split at h
    · rcases List.mem_cons.mp h with rfl | h
      exacts [.inr rfl, .inl h]
    · rcases List.mem_cons.mp h with rfl | h
      · exact .inl (by simp)
      · rcases ih h with h | h
        exacts [.inl (List.mem_cons_of_mem _ h), .inr h]

/-- Entries of a store after a write. -/
theorem SMap.mem_put {α : Type} [DecidableEq α] {d : α} {m : SMap α} {i : Nat} {v : α} {e : Nat × α}
    (h : e ∈ SMap.put d m i v) : e ∈ m ∨ (e = (i, v) ∧ v ≠ d) := by
  unfold SMap.put at h
  split at h
  · exact .inl (List.mem_of_mem_filter h)
  · rcases SMap.mem_insert h with h | h
    exacts [.inl (List.mem_of_mem_filter h), .inr ⟨h, ‹_›⟩]

theorem SMap.sorted_insert {α : Type} {m : SMap α} (h : SMap.sorted m) (i : Nat) (v : α) (hi : ∀ e ∈ m, e.1 ≠ i) :
    SMap.sorted (SMap.insert m i v) := by
  induction m with
  | nil => simp [SMap.insert, SMap.sorted]
  | cons x m ih =>
    obtain ⟨k, w⟩ := x
    have hs := SMap.sorted_cons.mp h
    have hk : k ≠ i := hi (k, w) (by simp)
    simp only [SMap.insert]
    split
    · rename_i hlt
      refine SMap.sorted_cons.mpr ⟨fun e he => ?_, h⟩
      rcases List.mem_cons.mp he with rfl | he
      exacts [hlt, hlt.trans (hs.1 e he)]
    · rename_i hnl
      refine SMap.sorted_cons.mpr ⟨fun e he => ?_, ih hs.2 fun e he => hi e (List.mem_cons_of_mem _ he)⟩
      rcases SMap.mem_insert he with he | rfl
      · exact hs.1 e he
      · exact lt_of_le_of_ne (not_lt.mp hnl) hk

theorem SMap.sorted_put {α : Type} [DecidableEq α] {d : α} {m : SMap α} (h : SMap.sorted m) (i : Nat) (v : α) :
    SMap.sorted (SMap.put d m i v) := by
  unfold SMap.put
  split
  · exact List.Pairwise.filter _ h
  · exact SMap.sorted_insert (List.Pairwise.filter _ h) i v fun e he => by simpa using (List.mem_filter.mp he).2

theorem SMap.sorted_filter {α : Type} {m : SMap α} (h : SMap.sorted m) (p : Nat × α → Bool) : SMap.sorted (List.filter p m) :=
  List.Pairwise.filter p h

/-- A change of values keeps the keys. -/
theorem SMap.sorted_map {α β : Type} {m : SMap α} (h : SMap.sorted m) (f : Nat × α → β) :
    SMap.sorted (List.map (fun e => (e.1, f e)) m) := by
  simpa [SMap.sorted, List.pairwise_map] using h

/-- A write keeps the canonical form. -/
theorem SMap.wf_put {α : Type} [DecidableEq α] {d : Nat → α} {m : SMap α} (h : SMap.wf d m = true) (i : Nat) (v : α) :
    SMap.wf d (SMap.put (d i) m i v) = true := by
  rw [SMap.wf_iff] at h ⊢
  refine ⟨SMap.sorted_put h.1 i v, fun e he => ?_⟩
  rcases SMap.mem_put he with he | ⟨rfl, hv⟩
  exacts [h.2 e he, hv]

/-- The same where every unlisted key reads as one value. -/
theorem SMap.wf_put_const {α : Type} [DecidableEq α] {d : α} {m : SMap α} (h : SMap.wf (fun _ => d) m = true) (i : Nat) (v : α) :
    SMap.wf (fun _ => d) (SMap.put d m i v) = true := SMap.wf_put (d := fun _ => d) h i v

theorem SMap.wf_filter {α : Type} [DecidableEq α] {d : Nat → α} {m : SMap α} (h : SMap.wf d m = true) (p : Nat × α → Bool) :
    SMap.wf d (List.filter p m) = true := by
  rw [SMap.wf_iff] at h ⊢
  exact ⟨SMap.sorted_filter h.1 p, fun e he => h.2 e (List.mem_of_mem_filter he)⟩

/-- Writes one after another keep the canonical form. -/
theorem SMap.wf_foldl_put {α β : Type} [DecidableEq α] {d : α} (l : List β) (k : β → Nat) (v : SMap α → β → α) (m : SMap α)
    (h : SMap.wf (fun _ => d) m = true) : SMap.wf (fun _ => d) (l.foldl (fun m b => SMap.put d m (k b) (v m b)) m) = true := by
  induction l generalizing m with
  | nil => exact h
  | cons b l ih => exact ih _ (SMap.wf_put (d := fun _ => d) h _ _)

end Sys2Proof.Machine
end

