-- ==== Sys2Proof/Laws/State.lean ====
section
/-! SUPPORT. What each update of the state leaves alone, field by field, and what it writes. -/

namespace Sys2Proof.Machine

variable (s : State)

/-! ### State.modTower -/

@[simp] theorem State.modTower_pending (t : Nat) (f : Tower → Tower) : (s.modTower t f).pending = s.pending := rfl
@[simp] theorem State.modTower_free (t : Nat) (f : Tower → Tower) : (s.modTower t f).free = s.free := rfl
@[simp] theorem State.modTower_regs (t : Nat) (f : Tower → Tower) : (s.modTower t f).regs = s.regs := rfl
@[simp] theorem State.modTower_staged (t : Nat) (f : Tower → Tower) : (s.modTower t f).staged = s.staged := rfl
@[simp] theorem State.modTower_locked (t : Nat) (f : Tower → Tower) : (s.modTower t f).locked = s.locked := rfl
@[simp] theorem State.modTower_latch (t : Nat) (f : Tower → Tower) : (s.modTower t f).latch = s.latch := rfl
@[simp] theorem State.modTower_mem (t : Nat) (f : Tower → Tower) : (s.modTower t f).mem = s.mem := rfl
@[simp] theorem State.modTower_mod (t : Nat) (f : Tower → Tower) : (s.modTower t f).mod = s.mod := rfl
@[simp] theorem State.modTower_clusters (t : Nat) (f : Tower → Tower) : (s.modTower t f).clusters = s.clusters := rfl
@[simp] theorem State.modTower_tes (t : Nat) (f : Tower → Tower) : (s.modTower t f).tes = s.tes := rfl
@[simp] theorem State.modTower_bunches (t : Nat) (f : Tower → Tower) : (s.modTower t f).bunches = s.bunches := rfl
@[simp] theorem State.modTower_ports (t : Nat) (f : Tower → Tower) : (s.modTower t f).ports = s.ports := rfl
@[simp] theorem State.modTower_queues (t : Nat) (f : Tower → Tower) : (s.modTower t f).queues = s.queues := rfl
@[simp] theorem State.modTower_tags (t : Nat) (f : Tower → Tower) : (s.modTower t f).tags = s.tags := rfl
@[simp] theorem State.modTower_policy (t : Nat) (f : Tower → Tower) : (s.modTower t f).policy = s.policy := rfl
@[simp] theorem State.modTower_policyStaged (t : Nat) (f : Tower → Tower) : (s.modTower t f).policyStaged = s.policyStaged := rfl
@[simp] theorem State.modTower_esc (t : Nat) (f : Tower → Tower) : (s.modTower t f).esc = s.esc := rfl
@[simp] theorem State.modTower_cvu (t : Nat) (f : Tower → Tower) : (s.modTower t f).cvu = s.cvu := rfl
@[simp] theorem State.modTower_reqs (t : Nat) (f : Tower → Tower) : (s.modTower t f).reqs = s.reqs := rfl
@[simp] theorem State.modTower_needs (t : Nat) (f : Tower → Tower) : (s.modTower t f).needs = s.needs := rfl
@[simp] theorem State.modTower_sends (t : Nat) (f : Tower → Tower) : (s.modTower t f).sends = s.sends := rfl
@[simp] theorem State.modTower_out (t : Nat) (f : Tower → Tower) : (s.modTower t f).out = s.out := rfl

/-! ### State.modClu -/

@[simp] theorem State.modClu_pending (t c : Nat) (f : Cluster → Cluster) : (s.modClu t c f).pending = s.pending := rfl
@[simp] theorem State.modClu_free (t c : Nat) (f : Cluster → Cluster) : (s.modClu t c f).free = s.free := rfl
@[simp] theorem State.modClu_regs (t c : Nat) (f : Cluster → Cluster) : (s.modClu t c f).regs = s.regs := rfl
@[simp] theorem State.modClu_staged (t c : Nat) (f : Cluster → Cluster) : (s.modClu t c f).staged = s.staged := rfl
@[simp] theorem State.modClu_locked (t c : Nat) (f : Cluster → Cluster) : (s.modClu t c f).locked = s.locked := rfl
@[simp] theorem State.modClu_latch (t c : Nat) (f : Cluster → Cluster) : (s.modClu t c f).latch = s.latch := rfl
@[simp] theorem State.modClu_mem (t c : Nat) (f : Cluster → Cluster) : (s.modClu t c f).mem = s.mem := rfl
@[simp] theorem State.modClu_mod (t c : Nat) (f : Cluster → Cluster) : (s.modClu t c f).mod = s.mod := rfl
@[simp] theorem State.modClu_towers (t c : Nat) (f : Cluster → Cluster) : (s.modClu t c f).towers = s.towers := rfl
@[simp] theorem State.modClu_tes (t c : Nat) (f : Cluster → Cluster) : (s.modClu t c f).tes = s.tes := rfl
@[simp] theorem State.modClu_bunches (t c : Nat) (f : Cluster → Cluster) : (s.modClu t c f).bunches = s.bunches := rfl
@[simp] theorem State.modClu_ports (t c : Nat) (f : Cluster → Cluster) : (s.modClu t c f).ports = s.ports := rfl
@[simp] theorem State.modClu_queues (t c : Nat) (f : Cluster → Cluster) : (s.modClu t c f).queues = s.queues := rfl
@[simp] theorem State.modClu_tags (t c : Nat) (f : Cluster → Cluster) : (s.modClu t c f).tags = s.tags := rfl
@[simp] theorem State.modClu_policy (t c : Nat) (f : Cluster → Cluster) : (s.modClu t c f).policy = s.policy := rfl
@[simp] theorem State.modClu_policyStaged (t c : Nat) (f : Cluster → Cluster) : (s.modClu t c f).policyStaged = s.policyStaged := rfl
@[simp] theorem State.modClu_esc (t c : Nat) (f : Cluster → Cluster) : (s.modClu t c f).esc = s.esc := rfl
@[simp] theorem State.modClu_cvu (t c : Nat) (f : Cluster → Cluster) : (s.modClu t c f).cvu = s.cvu := rfl
@[simp] theorem State.modClu_reqs (t c : Nat) (f : Cluster → Cluster) : (s.modClu t c f).reqs = s.reqs := rfl
@[simp] theorem State.modClu_needs (t c : Nat) (f : Cluster → Cluster) : (s.modClu t c f).needs = s.needs := rfl
@[simp] theorem State.modClu_sends (t c : Nat) (f : Cluster → Cluster) : (s.modClu t c f).sends = s.sends := rfl
@[simp] theorem State.modClu_out (t c : Nat) (f : Cluster → Cluster) : (s.modClu t c f).out = s.out := rfl

/-! ### State.modTe -/

@[simp] theorem State.modTe_pending (t c e : Nat) (f : TeSt → TeSt) : (s.modTe t c e f).pending = s.pending := rfl
@[simp] theorem State.modTe_free (t c e : Nat) (f : TeSt → TeSt) : (s.modTe t c e f).free = s.free := rfl
@[simp] theorem State.modTe_regs (t c e : Nat) (f : TeSt → TeSt) : (s.modTe t c e f).regs = s.regs := rfl
@[simp] theorem State.modTe_staged (t c e : Nat) (f : TeSt → TeSt) : (s.modTe t c e f).staged = s.staged := rfl
@[simp] theorem State.modTe_locked (t c e : Nat) (f : TeSt → TeSt) : (s.modTe t c e f).locked = s.locked := rfl
@[simp] theorem State.modTe_latch (t c e : Nat) (f : TeSt → TeSt) : (s.modTe t c e f).latch = s.latch := rfl
@[simp] theorem State.modTe_mem (t c e : Nat) (f : TeSt → TeSt) : (s.modTe t c e f).mem = s.mem := rfl
@[simp] theorem State.modTe_mod (t c e : Nat) (f : TeSt → TeSt) : (s.modTe t c e f).mod = s.mod := rfl
@[simp] theorem State.modTe_towers (t c e : Nat) (f : TeSt → TeSt) : (s.modTe t c e f).towers = s.towers := rfl
@[simp] theorem State.modTe_clusters (t c e : Nat) (f : TeSt → TeSt) : (s.modTe t c e f).clusters = s.clusters := rfl
@[simp] theorem State.modTe_bunches (t c e : Nat) (f : TeSt → TeSt) : (s.modTe t c e f).bunches = s.bunches := rfl
@[simp] theorem State.modTe_ports (t c e : Nat) (f : TeSt → TeSt) : (s.modTe t c e f).ports = s.ports := rfl
@[simp] theorem State.modTe_queues (t c e : Nat) (f : TeSt → TeSt) : (s.modTe t c e f).queues = s.queues := rfl
@[simp] theorem State.modTe_tags (t c e : Nat) (f : TeSt → TeSt) : (s.modTe t c e f).tags = s.tags := rfl
@[simp] theorem State.modTe_policy (t c e : Nat) (f : TeSt → TeSt) : (s.modTe t c e f).policy = s.policy := rfl
@[simp] theorem State.modTe_policyStaged (t c e : Nat) (f : TeSt → TeSt) : (s.modTe t c e f).policyStaged = s.policyStaged := rfl
@[simp] theorem State.modTe_esc (t c e : Nat) (f : TeSt → TeSt) : (s.modTe t c e f).esc = s.esc := rfl
@[simp] theorem State.modTe_cvu (t c e : Nat) (f : TeSt → TeSt) : (s.modTe t c e f).cvu = s.cvu := rfl
@[simp] theorem State.modTe_reqs (t c e : Nat) (f : TeSt → TeSt) : (s.modTe t c e f).reqs = s.reqs := rfl
@[simp] theorem State.modTe_needs (t c e : Nat) (f : TeSt → TeSt) : (s.modTe t c e f).needs = s.needs := rfl
@[simp] theorem State.modTe_sends (t c e : Nat) (f : TeSt → TeSt) : (s.modTe t c e f).sends = s.sends := rfl
@[simp] theorem State.modTe_out (t c e : Nat) (f : TeSt → TeSt) : (s.modTe t c e f).out = s.out := rfl

/-! ### State.setBunch -/

@[simp] theorem State.setBunch_pending (k : Nat) (b : Bunch) : (s.setBunch k b).pending = s.pending := rfl
@[simp] theorem State.setBunch_free (k : Nat) (b : Bunch) : (s.setBunch k b).free = s.free := rfl
@[simp] theorem State.setBunch_regs (k : Nat) (b : Bunch) : (s.setBunch k b).regs = s.regs := rfl
@[simp] theorem State.setBunch_staged (k : Nat) (b : Bunch) : (s.setBunch k b).staged = s.staged := rfl
@[simp] theorem State.setBunch_locked (k : Nat) (b : Bunch) : (s.setBunch k b).locked = s.locked := rfl
@[simp] theorem State.setBunch_latch (k : Nat) (b : Bunch) : (s.setBunch k b).latch = s.latch := rfl
@[simp] theorem State.setBunch_mem (k : Nat) (b : Bunch) : (s.setBunch k b).mem = s.mem := rfl
@[simp] theorem State.setBunch_mod (k : Nat) (b : Bunch) : (s.setBunch k b).mod = s.mod := rfl
@[simp] theorem State.setBunch_towers (k : Nat) (b : Bunch) : (s.setBunch k b).towers = s.towers := rfl
@[simp] theorem State.setBunch_clusters (k : Nat) (b : Bunch) : (s.setBunch k b).clusters = s.clusters := rfl
@[simp] theorem State.setBunch_tes (k : Nat) (b : Bunch) : (s.setBunch k b).tes = s.tes := rfl
@[simp] theorem State.setBunch_ports (k : Nat) (b : Bunch) : (s.setBunch k b).ports = s.ports := rfl
@[simp] theorem State.setBunch_queues (k : Nat) (b : Bunch) : (s.setBunch k b).queues = s.queues := rfl
@[simp] theorem State.setBunch_tags (k : Nat) (b : Bunch) : (s.setBunch k b).tags = s.tags := rfl
@[simp] theorem State.setBunch_policy (k : Nat) (b : Bunch) : (s.setBunch k b).policy = s.policy := rfl
@[simp] theorem State.setBunch_policyStaged (k : Nat) (b : Bunch) : (s.setBunch k b).policyStaged = s.policyStaged := rfl
@[simp] theorem State.setBunch_esc (k : Nat) (b : Bunch) : (s.setBunch k b).esc = s.esc := rfl
@[simp] theorem State.setBunch_cvu (k : Nat) (b : Bunch) : (s.setBunch k b).cvu = s.cvu := rfl
@[simp] theorem State.setBunch_reqs (k : Nat) (b : Bunch) : (s.setBunch k b).reqs = s.reqs := rfl
@[simp] theorem State.setBunch_needs (k : Nat) (b : Bunch) : (s.setBunch k b).needs = s.needs := rfl
@[simp] theorem State.setBunch_sends (k : Nat) (b : Bunch) : (s.setBunch k b).sends = s.sends := rfl
@[simp] theorem State.setBunch_out (k : Nat) (b : Bunch) : (s.setBunch k b).out = s.out := rfl

/-! ### State.modBunch -/

@[simp] theorem State.modBunch_pending (k : Nat) (f : Bunch → Bunch) : (s.modBunch k f).pending = s.pending := rfl
@[simp] theorem State.modBunch_free (k : Nat) (f : Bunch → Bunch) : (s.modBunch k f).free = s.free := rfl
@[simp] theorem State.modBunch_regs (k : Nat) (f : Bunch → Bunch) : (s.modBunch k f).regs = s.regs := rfl
@[simp] theorem State.modBunch_staged (k : Nat) (f : Bunch → Bunch) : (s.modBunch k f).staged = s.staged := rfl
@[simp] theorem State.modBunch_locked (k : Nat) (f : Bunch → Bunch) : (s.modBunch k f).locked = s.locked := rfl
@[simp] theorem State.modBunch_latch (k : Nat) (f : Bunch → Bunch) : (s.modBunch k f).latch = s.latch := rfl
@[simp] theorem State.modBunch_mem (k : Nat) (f : Bunch → Bunch) : (s.modBunch k f).mem = s.mem := rfl
@[simp] theorem State.modBunch_mod (k : Nat) (f : Bunch → Bunch) : (s.modBunch k f).mod = s.mod := rfl
@[simp] theorem State.modBunch_towers (k : Nat) (f : Bunch → Bunch) : (s.modBunch k f).towers = s.towers := rfl
@[simp] theorem State.modBunch_clusters (k : Nat) (f : Bunch → Bunch) : (s.modBunch k f).clusters = s.clusters := rfl
@[simp] theorem State.modBunch_tes (k : Nat) (f : Bunch → Bunch) : (s.modBunch k f).tes = s.tes := rfl
@[simp] theorem State.modBunch_ports (k : Nat) (f : Bunch → Bunch) : (s.modBunch k f).ports = s.ports := rfl
@[simp] theorem State.modBunch_queues (k : Nat) (f : Bunch → Bunch) : (s.modBunch k f).queues = s.queues := rfl
@[simp] theorem State.modBunch_tags (k : Nat) (f : Bunch → Bunch) : (s.modBunch k f).tags = s.tags := rfl
@[simp] theorem State.modBunch_policy (k : Nat) (f : Bunch → Bunch) : (s.modBunch k f).policy = s.policy := rfl
@[simp] theorem State.modBunch_policyStaged (k : Nat) (f : Bunch → Bunch) : (s.modBunch k f).policyStaged = s.policyStaged := rfl
@[simp] theorem State.modBunch_esc (k : Nat) (f : Bunch → Bunch) : (s.modBunch k f).esc = s.esc := rfl
@[simp] theorem State.modBunch_cvu (k : Nat) (f : Bunch → Bunch) : (s.modBunch k f).cvu = s.cvu := rfl
@[simp] theorem State.modBunch_reqs (k : Nat) (f : Bunch → Bunch) : (s.modBunch k f).reqs = s.reqs := rfl
@[simp] theorem State.modBunch_needs (k : Nat) (f : Bunch → Bunch) : (s.modBunch k f).needs = s.needs := rfl
@[simp] theorem State.modBunch_sends (k : Nat) (f : Bunch → Bunch) : (s.modBunch k f).sends = s.sends := rfl
@[simp] theorem State.modBunch_out (k : Nat) (f : Bunch → Bunch) : (s.modBunch k f).out = s.out := rfl

/-! ### State.modPort -/

@[simp] theorem State.modPort_pending (t p : Nat) (f : Port → Port) : (s.modPort t p f).pending = s.pending := rfl
@[simp] theorem State.modPort_free (t p : Nat) (f : Port → Port) : (s.modPort t p f).free = s.free := rfl
@[simp] theorem State.modPort_regs (t p : Nat) (f : Port → Port) : (s.modPort t p f).regs = s.regs := rfl
@[simp] theorem State.modPort_staged (t p : Nat) (f : Port → Port) : (s.modPort t p f).staged = s.staged := rfl
@[simp] theorem State.modPort_locked (t p : Nat) (f : Port → Port) : (s.modPort t p f).locked = s.locked := rfl
@[simp] theorem State.modPort_latch (t p : Nat) (f : Port → Port) : (s.modPort t p f).latch = s.latch := rfl
@[simp] theorem State.modPort_mem (t p : Nat) (f : Port → Port) : (s.modPort t p f).mem = s.mem := rfl
@[simp] theorem State.modPort_mod (t p : Nat) (f : Port → Port) : (s.modPort t p f).mod = s.mod := rfl
@[simp] theorem State.modPort_towers (t p : Nat) (f : Port → Port) : (s.modPort t p f).towers = s.towers := rfl
@[simp] theorem State.modPort_clusters (t p : Nat) (f : Port → Port) : (s.modPort t p f).clusters = s.clusters := rfl
@[simp] theorem State.modPort_tes (t p : Nat) (f : Port → Port) : (s.modPort t p f).tes = s.tes := rfl
@[simp] theorem State.modPort_bunches (t p : Nat) (f : Port → Port) : (s.modPort t p f).bunches = s.bunches := rfl
@[simp] theorem State.modPort_queues (t p : Nat) (f : Port → Port) : (s.modPort t p f).queues = s.queues := rfl
@[simp] theorem State.modPort_tags (t p : Nat) (f : Port → Port) : (s.modPort t p f).tags = s.tags := rfl
@[simp] theorem State.modPort_policy (t p : Nat) (f : Port → Port) : (s.modPort t p f).policy = s.policy := rfl
@[simp] theorem State.modPort_policyStaged (t p : Nat) (f : Port → Port) : (s.modPort t p f).policyStaged = s.policyStaged := rfl
@[simp] theorem State.modPort_esc (t p : Nat) (f : Port → Port) : (s.modPort t p f).esc = s.esc := rfl
@[simp] theorem State.modPort_cvu (t p : Nat) (f : Port → Port) : (s.modPort t p f).cvu = s.cvu := rfl
@[simp] theorem State.modPort_reqs (t p : Nat) (f : Port → Port) : (s.modPort t p f).reqs = s.reqs := rfl
@[simp] theorem State.modPort_needs (t p : Nat) (f : Port → Port) : (s.modPort t p f).needs = s.needs := rfl
@[simp] theorem State.modPort_sends (t p : Nat) (f : Port → Port) : (s.modPort t p f).sends = s.sends := rfl
@[simp] theorem State.modPort_out (t p : Nat) (f : Port → Port) : (s.modPort t p f).out = s.out := rfl

/-! ### State.modQueue -/

@[simp] theorem State.modQueue_pending (q : Nat) (f : Queue → Queue) : (s.modQueue q f).pending = s.pending := rfl
@[simp] theorem State.modQueue_free (q : Nat) (f : Queue → Queue) : (s.modQueue q f).free = s.free := rfl
@[simp] theorem State.modQueue_regs (q : Nat) (f : Queue → Queue) : (s.modQueue q f).regs = s.regs := rfl
@[simp] theorem State.modQueue_staged (q : Nat) (f : Queue → Queue) : (s.modQueue q f).staged = s.staged := rfl
@[simp] theorem State.modQueue_locked (q : Nat) (f : Queue → Queue) : (s.modQueue q f).locked = s.locked := rfl
@[simp] theorem State.modQueue_latch (q : Nat) (f : Queue → Queue) : (s.modQueue q f).latch = s.latch := rfl
@[simp] theorem State.modQueue_mem (q : Nat) (f : Queue → Queue) : (s.modQueue q f).mem = s.mem := rfl
@[simp] theorem State.modQueue_mod (q : Nat) (f : Queue → Queue) : (s.modQueue q f).mod = s.mod := rfl
@[simp] theorem State.modQueue_towers (q : Nat) (f : Queue → Queue) : (s.modQueue q f).towers = s.towers := rfl
@[simp] theorem State.modQueue_clusters (q : Nat) (f : Queue → Queue) : (s.modQueue q f).clusters = s.clusters := rfl
@[simp] theorem State.modQueue_tes (q : Nat) (f : Queue → Queue) : (s.modQueue q f).tes = s.tes := rfl
@[simp] theorem State.modQueue_bunches (q : Nat) (f : Queue → Queue) : (s.modQueue q f).bunches = s.bunches := rfl
@[simp] theorem State.modQueue_ports (q : Nat) (f : Queue → Queue) : (s.modQueue q f).ports = s.ports := rfl
@[simp] theorem State.modQueue_tags (q : Nat) (f : Queue → Queue) : (s.modQueue q f).tags = s.tags := rfl
@[simp] theorem State.modQueue_policy (q : Nat) (f : Queue → Queue) : (s.modQueue q f).policy = s.policy := rfl
@[simp] theorem State.modQueue_policyStaged (q : Nat) (f : Queue → Queue) : (s.modQueue q f).policyStaged = s.policyStaged := rfl
@[simp] theorem State.modQueue_esc (q : Nat) (f : Queue → Queue) : (s.modQueue q f).esc = s.esc := rfl
@[simp] theorem State.modQueue_cvu (q : Nat) (f : Queue → Queue) : (s.modQueue q f).cvu = s.cvu := rfl
@[simp] theorem State.modQueue_reqs (q : Nat) (f : Queue → Queue) : (s.modQueue q f).reqs = s.reqs := rfl
@[simp] theorem State.modQueue_needs (q : Nat) (f : Queue → Queue) : (s.modQueue q f).needs = s.needs := rfl
@[simp] theorem State.modQueue_sends (q : Nat) (f : Queue → Queue) : (s.modQueue q f).sends = s.sends := rfl
@[simp] theorem State.modQueue_out (q : Nat) (f : Queue → Queue) : (s.modQueue q f).out = s.out := rfl

/-! ### State.modMod -/

@[simp] theorem State.modMod_pending (f : Module → Module) : (s.modMod f).pending = s.pending := rfl
@[simp] theorem State.modMod_free (f : Module → Module) : (s.modMod f).free = s.free := rfl
@[simp] theorem State.modMod_regs (f : Module → Module) : (s.modMod f).regs = s.regs := rfl
@[simp] theorem State.modMod_staged (f : Module → Module) : (s.modMod f).staged = s.staged := rfl
@[simp] theorem State.modMod_locked (f : Module → Module) : (s.modMod f).locked = s.locked := rfl
@[simp] theorem State.modMod_latch (f : Module → Module) : (s.modMod f).latch = s.latch := rfl
@[simp] theorem State.modMod_mem (f : Module → Module) : (s.modMod f).mem = s.mem := rfl
@[simp] theorem State.modMod_towers (f : Module → Module) : (s.modMod f).towers = s.towers := rfl
@[simp] theorem State.modMod_clusters (f : Module → Module) : (s.modMod f).clusters = s.clusters := rfl
@[simp] theorem State.modMod_tes (f : Module → Module) : (s.modMod f).tes = s.tes := rfl
@[simp] theorem State.modMod_bunches (f : Module → Module) : (s.modMod f).bunches = s.bunches := rfl
@[simp] theorem State.modMod_ports (f : Module → Module) : (s.modMod f).ports = s.ports := rfl
@[simp] theorem State.modMod_queues (f : Module → Module) : (s.modMod f).queues = s.queues := rfl
@[simp] theorem State.modMod_tags (f : Module → Module) : (s.modMod f).tags = s.tags := rfl
@[simp] theorem State.modMod_policy (f : Module → Module) : (s.modMod f).policy = s.policy := rfl
@[simp] theorem State.modMod_policyStaged (f : Module → Module) : (s.modMod f).policyStaged = s.policyStaged := rfl
@[simp] theorem State.modMod_esc (f : Module → Module) : (s.modMod f).esc = s.esc := rfl
@[simp] theorem State.modMod_cvu (f : Module → Module) : (s.modMod f).cvu = s.cvu := rfl
@[simp] theorem State.modMod_reqs (f : Module → Module) : (s.modMod f).reqs = s.reqs := rfl
@[simp] theorem State.modMod_needs (f : Module → Module) : (s.modMod f).needs = s.needs := rfl
@[simp] theorem State.modMod_sends (f : Module → Module) : (s.modMod f).sends = s.sends := rfl
@[simp] theorem State.modMod_out (f : Module → Module) : (s.modMod f).out = s.out := rfl

/-! ### State.modMem -/

@[simp] theorem State.modMem_pending (f : Mem → Mem) : (s.modMem f).pending = s.pending := rfl
@[simp] theorem State.modMem_free (f : Mem → Mem) : (s.modMem f).free = s.free := rfl
@[simp] theorem State.modMem_regs (f : Mem → Mem) : (s.modMem f).regs = s.regs := rfl
@[simp] theorem State.modMem_staged (f : Mem → Mem) : (s.modMem f).staged = s.staged := rfl
@[simp] theorem State.modMem_locked (f : Mem → Mem) : (s.modMem f).locked = s.locked := rfl
@[simp] theorem State.modMem_latch (f : Mem → Mem) : (s.modMem f).latch = s.latch := rfl
@[simp] theorem State.modMem_mod (f : Mem → Mem) : (s.modMem f).mod = s.mod := rfl
@[simp] theorem State.modMem_towers (f : Mem → Mem) : (s.modMem f).towers = s.towers := rfl
@[simp] theorem State.modMem_clusters (f : Mem → Mem) : (s.modMem f).clusters = s.clusters := rfl
@[simp] theorem State.modMem_tes (f : Mem → Mem) : (s.modMem f).tes = s.tes := rfl
@[simp] theorem State.modMem_bunches (f : Mem → Mem) : (s.modMem f).bunches = s.bunches := rfl
@[simp] theorem State.modMem_ports (f : Mem → Mem) : (s.modMem f).ports = s.ports := rfl
@[simp] theorem State.modMem_queues (f : Mem → Mem) : (s.modMem f).queues = s.queues := rfl
@[simp] theorem State.modMem_tags (f : Mem → Mem) : (s.modMem f).tags = s.tags := rfl
@[simp] theorem State.modMem_policy (f : Mem → Mem) : (s.modMem f).policy = s.policy := rfl
@[simp] theorem State.modMem_policyStaged (f : Mem → Mem) : (s.modMem f).policyStaged = s.policyStaged := rfl
@[simp] theorem State.modMem_esc (f : Mem → Mem) : (s.modMem f).esc = s.esc := rfl
@[simp] theorem State.modMem_cvu (f : Mem → Mem) : (s.modMem f).cvu = s.cvu := rfl
@[simp] theorem State.modMem_reqs (f : Mem → Mem) : (s.modMem f).reqs = s.reqs := rfl
@[simp] theorem State.modMem_needs (f : Mem → Mem) : (s.modMem f).needs = s.needs := rfl
@[simp] theorem State.modMem_sends (f : Mem → Mem) : (s.modMem f).sends = s.sends := rfl
@[simp] theorem State.modMem_out (f : Mem → Mem) : (s.modMem f).out = s.out := rfl

/-! ### State.emit -/

@[simp] theorem State.emit_pending (m : OutMsg) : (s.emit m).pending = s.pending := rfl
@[simp] theorem State.emit_free (m : OutMsg) : (s.emit m).free = s.free := rfl
@[simp] theorem State.emit_regs (m : OutMsg) : (s.emit m).regs = s.regs := rfl
@[simp] theorem State.emit_staged (m : OutMsg) : (s.emit m).staged = s.staged := rfl
@[simp] theorem State.emit_locked (m : OutMsg) : (s.emit m).locked = s.locked := rfl
@[simp] theorem State.emit_latch (m : OutMsg) : (s.emit m).latch = s.latch := rfl
@[simp] theorem State.emit_mem (m : OutMsg) : (s.emit m).mem = s.mem := rfl
@[simp] theorem State.emit_mod (m : OutMsg) : (s.emit m).mod = s.mod := rfl
@[simp] theorem State.emit_towers (m : OutMsg) : (s.emit m).towers = s.towers := rfl
@[simp] theorem State.emit_clusters (m : OutMsg) : (s.emit m).clusters = s.clusters := rfl
@[simp] theorem State.emit_tes (m : OutMsg) : (s.emit m).tes = s.tes := rfl
@[simp] theorem State.emit_bunches (m : OutMsg) : (s.emit m).bunches = s.bunches := rfl
@[simp] theorem State.emit_ports (m : OutMsg) : (s.emit m).ports = s.ports := rfl
@[simp] theorem State.emit_queues (m : OutMsg) : (s.emit m).queues = s.queues := rfl
@[simp] theorem State.emit_tags (m : OutMsg) : (s.emit m).tags = s.tags := rfl
@[simp] theorem State.emit_policy (m : OutMsg) : (s.emit m).policy = s.policy := rfl
@[simp] theorem State.emit_policyStaged (m : OutMsg) : (s.emit m).policyStaged = s.policyStaged := rfl
@[simp] theorem State.emit_esc (m : OutMsg) : (s.emit m).esc = s.esc := rfl
@[simp] theorem State.emit_cvu (m : OutMsg) : (s.emit m).cvu = s.cvu := rfl
@[simp] theorem State.emit_reqs (m : OutMsg) : (s.emit m).reqs = s.reqs := rfl
@[simp] theorem State.emit_needs (m : OutMsg) : (s.emit m).needs = s.needs := rfl
@[simp] theorem State.emit_sends (m : OutMsg) : (s.emit m).sends = s.sends := rfl

/-! ### State.drawn -/

@[simp] theorem State.drawn_pending (n : Nat) : (s.drawn n).pending = s.pending := rfl
@[simp] theorem State.drawn_regs (n : Nat) : (s.drawn n).regs = s.regs := rfl
@[simp] theorem State.drawn_staged (n : Nat) : (s.drawn n).staged = s.staged := rfl
@[simp] theorem State.drawn_locked (n : Nat) : (s.drawn n).locked = s.locked := rfl
@[simp] theorem State.drawn_latch (n : Nat) : (s.drawn n).latch = s.latch := rfl
@[simp] theorem State.drawn_mem (n : Nat) : (s.drawn n).mem = s.mem := rfl
@[simp] theorem State.drawn_mod (n : Nat) : (s.drawn n).mod = s.mod := rfl
@[simp] theorem State.drawn_towers (n : Nat) : (s.drawn n).towers = s.towers := rfl
@[simp] theorem State.drawn_clusters (n : Nat) : (s.drawn n).clusters = s.clusters := rfl
@[simp] theorem State.drawn_tes (n : Nat) : (s.drawn n).tes = s.tes := rfl
@[simp] theorem State.drawn_bunches (n : Nat) : (s.drawn n).bunches = s.bunches := rfl
@[simp] theorem State.drawn_ports (n : Nat) : (s.drawn n).ports = s.ports := rfl
@[simp] theorem State.drawn_queues (n : Nat) : (s.drawn n).queues = s.queues := rfl
@[simp] theorem State.drawn_tags (n : Nat) : (s.drawn n).tags = s.tags := rfl
@[simp] theorem State.drawn_policy (n : Nat) : (s.drawn n).policy = s.policy := rfl
@[simp] theorem State.drawn_policyStaged (n : Nat) : (s.drawn n).policyStaged = s.policyStaged := rfl
@[simp] theorem State.drawn_esc (n : Nat) : (s.drawn n).esc = s.esc := rfl
@[simp] theorem State.drawn_cvu (n : Nat) : (s.drawn n).cvu = s.cvu := rfl
@[simp] theorem State.drawn_reqs (n : Nat) : (s.drawn n).reqs = s.reqs := rfl
@[simp] theorem State.drawn_needs (n : Nat) : (s.drawn n).needs = s.needs := rfl
@[simp] theorem State.drawn_sends (n : Nat) : (s.drawn n).sends = s.sends := rfl
@[simp] theorem State.drawn_out (n : Nat) : (s.drawn n).out = s.out := rfl

/-! ### State.setReg -/

@[simp] theorem State.setReg_pending (l : Loc) (v : W64) : (s.setReg l v).pending = s.pending := rfl
@[simp] theorem State.setReg_free (l : Loc) (v : W64) : (s.setReg l v).free = s.free := rfl
@[simp] theorem State.setReg_staged (l : Loc) (v : W64) : (s.setReg l v).staged = s.staged := rfl
@[simp] theorem State.setReg_locked (l : Loc) (v : W64) : (s.setReg l v).locked = s.locked := rfl
@[simp] theorem State.setReg_latch (l : Loc) (v : W64) : (s.setReg l v).latch = s.latch := rfl
@[simp] theorem State.setReg_mem (l : Loc) (v : W64) : (s.setReg l v).mem = s.mem := rfl
@[simp] theorem State.setReg_mod (l : Loc) (v : W64) : (s.setReg l v).mod = s.mod := rfl
@[simp] theorem State.setReg_towers (l : Loc) (v : W64) : (s.setReg l v).towers = s.towers := rfl
@[simp] theorem State.setReg_clusters (l : Loc) (v : W64) : (s.setReg l v).clusters = s.clusters := rfl
@[simp] theorem State.setReg_tes (l : Loc) (v : W64) : (s.setReg l v).tes = s.tes := rfl
@[simp] theorem State.setReg_bunches (l : Loc) (v : W64) : (s.setReg l v).bunches = s.bunches := rfl
@[simp] theorem State.setReg_ports (l : Loc) (v : W64) : (s.setReg l v).ports = s.ports := rfl
@[simp] theorem State.setReg_queues (l : Loc) (v : W64) : (s.setReg l v).queues = s.queues := rfl
@[simp] theorem State.setReg_tags (l : Loc) (v : W64) : (s.setReg l v).tags = s.tags := rfl
@[simp] theorem State.setReg_policy (l : Loc) (v : W64) : (s.setReg l v).policy = s.policy := rfl
@[simp] theorem State.setReg_policyStaged (l : Loc) (v : W64) : (s.setReg l v).policyStaged = s.policyStaged := rfl
@[simp] theorem State.setReg_esc (l : Loc) (v : W64) : (s.setReg l v).esc = s.esc := rfl
@[simp] theorem State.setReg_cvu (l : Loc) (v : W64) : (s.setReg l v).cvu = s.cvu := rfl
@[simp] theorem State.setReg_reqs (l : Loc) (v : W64) : (s.setReg l v).reqs = s.reqs := rfl
@[simp] theorem State.setReg_needs (l : Loc) (v : W64) : (s.setReg l v).needs = s.needs := rfl
@[simp] theorem State.setReg_sends (l : Loc) (v : W64) : (s.setReg l v).sends = s.sends := rfl
@[simp] theorem State.setReg_out (l : Loc) (v : W64) : (s.setReg l v).out = s.out := rfl

/-! ### State.setStg -/

@[simp] theorem State.setStg_pending (l : Loc) (v : W64) : (s.setStg l v).pending = s.pending := rfl
@[simp] theorem State.setStg_free (l : Loc) (v : W64) : (s.setStg l v).free = s.free := rfl
@[simp] theorem State.setStg_regs (l : Loc) (v : W64) : (s.setStg l v).regs = s.regs := rfl
@[simp] theorem State.setStg_locked (l : Loc) (v : W64) : (s.setStg l v).locked = s.locked := rfl
@[simp] theorem State.setStg_latch (l : Loc) (v : W64) : (s.setStg l v).latch = s.latch := rfl
@[simp] theorem State.setStg_mem (l : Loc) (v : W64) : (s.setStg l v).mem = s.mem := rfl
@[simp] theorem State.setStg_mod (l : Loc) (v : W64) : (s.setStg l v).mod = s.mod := rfl
@[simp] theorem State.setStg_towers (l : Loc) (v : W64) : (s.setStg l v).towers = s.towers := rfl
@[simp] theorem State.setStg_clusters (l : Loc) (v : W64) : (s.setStg l v).clusters = s.clusters := rfl
@[simp] theorem State.setStg_tes (l : Loc) (v : W64) : (s.setStg l v).tes = s.tes := rfl
@[simp] theorem State.setStg_bunches (l : Loc) (v : W64) : (s.setStg l v).bunches = s.bunches := rfl
@[simp] theorem State.setStg_ports (l : Loc) (v : W64) : (s.setStg l v).ports = s.ports := rfl
@[simp] theorem State.setStg_queues (l : Loc) (v : W64) : (s.setStg l v).queues = s.queues := rfl
@[simp] theorem State.setStg_tags (l : Loc) (v : W64) : (s.setStg l v).tags = s.tags := rfl
@[simp] theorem State.setStg_policy (l : Loc) (v : W64) : (s.setStg l v).policy = s.policy := rfl
@[simp] theorem State.setStg_policyStaged (l : Loc) (v : W64) : (s.setStg l v).policyStaged = s.policyStaged := rfl
@[simp] theorem State.setStg_esc (l : Loc) (v : W64) : (s.setStg l v).esc = s.esc := rfl
@[simp] theorem State.setStg_cvu (l : Loc) (v : W64) : (s.setStg l v).cvu = s.cvu := rfl
@[simp] theorem State.setStg_reqs (l : Loc) (v : W64) : (s.setStg l v).reqs = s.reqs := rfl
@[simp] theorem State.setStg_needs (l : Loc) (v : W64) : (s.setStg l v).needs = s.needs := rfl
@[simp] theorem State.setStg_sends (l : Loc) (v : W64) : (s.setStg l v).sends = s.sends := rfl
@[simp] theorem State.setStg_out (l : Loc) (v : W64) : (s.setStg l v).out = s.out := rfl

/-! ### State.setLck -/

@[simp] theorem State.setLck_pending (l : Loc) (v : W64) : (s.setLck l v).pending = s.pending := rfl
@[simp] theorem State.setLck_free (l : Loc) (v : W64) : (s.setLck l v).free = s.free := rfl
@[simp] theorem State.setLck_regs (l : Loc) (v : W64) : (s.setLck l v).regs = s.regs := rfl
@[simp] theorem State.setLck_staged (l : Loc) (v : W64) : (s.setLck l v).staged = s.staged := rfl
@[simp] theorem State.setLck_latch (l : Loc) (v : W64) : (s.setLck l v).latch = s.latch := rfl
@[simp] theorem State.setLck_mem (l : Loc) (v : W64) : (s.setLck l v).mem = s.mem := rfl
@[simp] theorem State.setLck_mod (l : Loc) (v : W64) : (s.setLck l v).mod = s.mod := rfl
@[simp] theorem State.setLck_towers (l : Loc) (v : W64) : (s.setLck l v).towers = s.towers := rfl
@[simp] theorem State.setLck_clusters (l : Loc) (v : W64) : (s.setLck l v).clusters = s.clusters := rfl
@[simp] theorem State.setLck_tes (l : Loc) (v : W64) : (s.setLck l v).tes = s.tes := rfl
@[simp] theorem State.setLck_bunches (l : Loc) (v : W64) : (s.setLck l v).bunches = s.bunches := rfl
@[simp] theorem State.setLck_ports (l : Loc) (v : W64) : (s.setLck l v).ports = s.ports := rfl
@[simp] theorem State.setLck_queues (l : Loc) (v : W64) : (s.setLck l v).queues = s.queues := rfl
@[simp] theorem State.setLck_tags (l : Loc) (v : W64) : (s.setLck l v).tags = s.tags := rfl
@[simp] theorem State.setLck_policy (l : Loc) (v : W64) : (s.setLck l v).policy = s.policy := rfl
@[simp] theorem State.setLck_policyStaged (l : Loc) (v : W64) : (s.setLck l v).policyStaged = s.policyStaged := rfl
@[simp] theorem State.setLck_esc (l : Loc) (v : W64) : (s.setLck l v).esc = s.esc := rfl
@[simp] theorem State.setLck_cvu (l : Loc) (v : W64) : (s.setLck l v).cvu = s.cvu := rfl
@[simp] theorem State.setLck_reqs (l : Loc) (v : W64) : (s.setLck l v).reqs = s.reqs := rfl
@[simp] theorem State.setLck_needs (l : Loc) (v : W64) : (s.setLck l v).needs = s.needs := rfl
@[simp] theorem State.setLck_sends (l : Loc) (v : W64) : (s.setLck l v).sends = s.sends := rfl
@[simp] theorem State.setLck_out (l : Loc) (v : W64) : (s.setLck l v).out = s.out := rfl

/-! ### State.fset -/

@[simp] theorem State.fset_pending (f : Fld) (v t u i j : Nat) : (s.fset f v t u i j).pending = s.pending := rfl
@[simp] theorem State.fset_free (f : Fld) (v t u i j : Nat) : (s.fset f v t u i j).free = s.free := rfl
@[simp] theorem State.fset_staged (f : Fld) (v t u i j : Nat) : (s.fset f v t u i j).staged = s.staged := rfl
@[simp] theorem State.fset_locked (f : Fld) (v t u i j : Nat) : (s.fset f v t u i j).locked = s.locked := rfl
@[simp] theorem State.fset_latch (f : Fld) (v t u i j : Nat) : (s.fset f v t u i j).latch = s.latch := rfl
@[simp] theorem State.fset_mem (f : Fld) (v t u i j : Nat) : (s.fset f v t u i j).mem = s.mem := rfl
@[simp] theorem State.fset_mod (f : Fld) (v t u i j : Nat) : (s.fset f v t u i j).mod = s.mod := rfl
@[simp] theorem State.fset_towers (f : Fld) (v t u i j : Nat) : (s.fset f v t u i j).towers = s.towers := rfl
@[simp] theorem State.fset_clusters (f : Fld) (v t u i j : Nat) : (s.fset f v t u i j).clusters = s.clusters := rfl
@[simp] theorem State.fset_tes (f : Fld) (v t u i j : Nat) : (s.fset f v t u i j).tes = s.tes := rfl
@[simp] theorem State.fset_bunches (f : Fld) (v t u i j : Nat) : (s.fset f v t u i j).bunches = s.bunches := rfl
@[simp] theorem State.fset_ports (f : Fld) (v t u i j : Nat) : (s.fset f v t u i j).ports = s.ports := rfl
@[simp] theorem State.fset_queues (f : Fld) (v t u i j : Nat) : (s.fset f v t u i j).queues = s.queues := rfl
@[simp] theorem State.fset_tags (f : Fld) (v t u i j : Nat) : (s.fset f v t u i j).tags = s.tags := rfl
@[simp] theorem State.fset_policy (f : Fld) (v t u i j : Nat) : (s.fset f v t u i j).policy = s.policy := rfl
@[simp] theorem State.fset_policyStaged (f : Fld) (v t u i j : Nat) : (s.fset f v t u i j).policyStaged = s.policyStaged := rfl
@[simp] theorem State.fset_esc (f : Fld) (v t u i j : Nat) : (s.fset f v t u i j).esc = s.esc := rfl
@[simp] theorem State.fset_cvu (f : Fld) (v t u i j : Nat) : (s.fset f v t u i j).cvu = s.cvu := rfl
@[simp] theorem State.fset_reqs (f : Fld) (v t u i j : Nat) : (s.fset f v t u i j).reqs = s.reqs := rfl
@[simp] theorem State.fset_needs (f : Fld) (v t u i j : Nat) : (s.fset f v t u i j).needs = s.needs := rfl
@[simp] theorem State.fset_sends (f : Fld) (v t u i j : Nat) : (s.fset f v t u i j).sends = s.sends := rfl
@[simp] theorem State.fset_out (f : Fld) (v t u i j : Nat) : (s.fset f v t u i j).out = s.out := rfl

/-! ### State.bump -/

@[simp] theorem State.bump_pending (f : Fld) (n t u i j : Nat) : (s.bump f n t u i j).pending = s.pending := rfl
@[simp] theorem State.bump_free (f : Fld) (n t u i j : Nat) : (s.bump f n t u i j).free = s.free := rfl
@[simp] theorem State.bump_staged (f : Fld) (n t u i j : Nat) : (s.bump f n t u i j).staged = s.staged := rfl
@[simp] theorem State.bump_locked (f : Fld) (n t u i j : Nat) : (s.bump f n t u i j).locked = s.locked := rfl
@[simp] theorem State.bump_latch (f : Fld) (n t u i j : Nat) : (s.bump f n t u i j).latch = s.latch := rfl
@[simp] theorem State.bump_mem (f : Fld) (n t u i j : Nat) : (s.bump f n t u i j).mem = s.mem := rfl
@[simp] theorem State.bump_mod (f : Fld) (n t u i j : Nat) : (s.bump f n t u i j).mod = s.mod := rfl
@[simp] theorem State.bump_towers (f : Fld) (n t u i j : Nat) : (s.bump f n t u i j).towers = s.towers := rfl
@[simp] theorem State.bump_clusters (f : Fld) (n t u i j : Nat) : (s.bump f n t u i j).clusters = s.clusters := rfl
@[simp] theorem State.bump_tes (f : Fld) (n t u i j : Nat) : (s.bump f n t u i j).tes = s.tes := rfl
@[simp] theorem State.bump_bunches (f : Fld) (n t u i j : Nat) : (s.bump f n t u i j).bunches = s.bunches := rfl
@[simp] theorem State.bump_ports (f : Fld) (n t u i j : Nat) : (s.bump f n t u i j).ports = s.ports := rfl
@[simp] theorem State.bump_queues (f : Fld) (n t u i j : Nat) : (s.bump f n t u i j).queues = s.queues := rfl
@[simp] theorem State.bump_tags (f : Fld) (n t u i j : Nat) : (s.bump f n t u i j).tags = s.tags := rfl
@[simp] theorem State.bump_policy (f : Fld) (n t u i j : Nat) : (s.bump f n t u i j).policy = s.policy := rfl
@[simp] theorem State.bump_policyStaged (f : Fld) (n t u i j : Nat) : (s.bump f n t u i j).policyStaged = s.policyStaged := rfl
@[simp] theorem State.bump_esc (f : Fld) (n t u i j : Nat) : (s.bump f n t u i j).esc = s.esc := rfl
@[simp] theorem State.bump_cvu (f : Fld) (n t u i j : Nat) : (s.bump f n t u i j).cvu = s.cvu := rfl
@[simp] theorem State.bump_reqs (f : Fld) (n t u i j : Nat) : (s.bump f n t u i j).reqs = s.reqs := rfl
@[simp] theorem State.bump_needs (f : Fld) (n t u i j : Nat) : (s.bump f n t u i j).needs = s.needs := rfl
@[simp] theorem State.bump_sends (f : Fld) (n t u i j : Nat) : (s.bump f n t u i j).sends = s.sends := rfl
@[simp] theorem State.bump_out (f : Fld) (n t u i j : Nat) : (s.bump f n t u i j).out = s.out := rfl

/-! ### What the updates write -/

@[simp] theorem State.modMod_mod (f : Module → Module) : (s.modMod f).mod = f s.mod := rfl
@[simp] theorem State.modMem_mem (f : Mem → Mem) : (s.modMem f).mem = f s.mem := rfl
@[simp] theorem State.emit_out (m : OutMsg) : (s.emit m).out = m :: s.out := rfl
@[simp] theorem State.drawn_free (n : Nat) : (s.drawn n).free = s.free + n := rfl

@[simp] theorem State.tower_modTower (t : Nat) (f : Tower → Tower) :
    (s.modTower t f).tower t = f (s.tower t) := SMap.get_put_self _ _ _ _
@[simp] theorem State.tower_modTower_other {t u : Nat} (h : u ≠ t) (f : Tower → Tower) : (s.modTower t f).tower u = s.tower u :=
  SMap.get_put_other _ _ h
@[simp] theorem State.clu_modClu (t c : Nat) (f : Cluster → Cluster) :
    (s.modClu t c f).clu t c = f (s.clu t c) := SMap.get_put_self _ _ _ _
@[simp] theorem State.te_modTe (t c e : Nat) (f : TeSt → TeSt) :
    (s.modTe t c e f).te t c e = f (s.te t c e) := SMap.get_put_self _ _ _ _
@[simp] theorem State.bunch_setBunch (k : Nat) (b : Bunch) : (s.setBunch k b).bunch k = b :=
  SMap.get_put_self _ _ _ _
@[simp] theorem State.bunch_setBunch_other {k j : Nat} (h : j ≠ k) (b : Bunch) : (s.setBunch k b).bunch j = s.bunch j :=
  SMap.get_put_other _ _ h
@[simp] theorem State.bunch_modBunch (k : Nat) (f : Bunch → Bunch) :
    (s.modBunch k f).bunch k = f (s.bunch k) := SMap.get_put_self _ _ _ _
@[simp] theorem State.port_modPort (t p : Nat) (f : Port → Port) :
    (s.modPort t p f).port t p = f (s.port t p) := SMap.get_put_self _ _ _ _
@[simp] theorem State.queue_modQueue (q : Nat) (f : Queue → Queue) :
    (s.modQueue q f).queue q = f (s.queue q) := SMap.get_put_self _ _ _ _
@[simp] theorem State.queue_modQueue_other {q r : Nat} (h : r ≠ q) (f : Queue → Queue) : (s.modQueue q f).queue r = s.queue r :=
  SMap.get_put_other _ _ h
@[simp] theorem State.reg_setReg (l : Loc) (v : W64) : (s.setReg l v).reg l = v := SMap.get_put_self _ _ _ _
@[simp] theorem State.reg_setReg_other {l m : Loc} (h : m.key ≠ l.key) (v : W64) : (s.setReg l v).reg m = s.reg m :=
  SMap.get_put_other _ _ h

end Sys2Proof.Machine
end

