-- ==== Sys2Proof/Laws/Memory.lean ====
section
/-! SUPPORT. Every memory operation keeps the memories in canonical form (Memory.wf), and so does the memory of State.reset. -/

namespace Sys2Proof.Machine

variable (s : State)

theorem Memory.wf_reset : Memory.wf State.reset.mem = true := rfl

/-- Canonical memories, store by store. -/
theorem Memory.wf_iff (m : Mem) : Memory.wf m = true ↔
    SMap.wf (fun _ => zeroUnit) m.hbm = true ∧ SMap.wf (fun _ => []) m.wq = true ∧ SMap.wf (fun _ => 0#13) m.cells = true ∧
    SMap.wf (fun _ => 0#3) m.valid = true ∧ SMap.wf (fun _ => 0) m.remap = true ∧ SMap.wf (fun _ => 0#13) m.shelf = true ∧
    SMap.wf (fun _ => none) m.pantry = true ∧ SMap.wf (fun _ => 0#8) m.host = true := by
  simp [Memory.wf, and_assoc]

/-- A write of a shelf byte. -/
theorem State.shelfPut_wf (t c off : Nat) (v : BitVec 9) (h : Memory.wf s.mem = true) : Memory.wf (s.shelfPut t c off v).mem = true := by
  rw [Memory.wf_iff] at h ⊢
  obtain ⟨h1, h2, h3, h4, h5, h6, h7, h8⟩ := h
  unfold State.shelfPut
  dsimp only [State.modMem]
  split <;> exact ⟨h1, h2, h3, h4, h5, SMap.wf_put_const h6 _ _, h7, h8⟩

theorem State.shelfPuts_wf (t c : Nat) (bs : List (Nat × BitVec 9)) (h : Memory.wf s.mem = true) :
    Memory.wf (s.shelfPuts t c bs).mem = true := by
  unfold State.shelfPuts
  induction bs generalizing s with
  | nil => exact h
  | cons b bs ih => exact ih _ (s.shelfPut_wf t c b.1 b.2 h)

theorem State.shelfWrite_wf (t c off : Nat) (bs : List (BitVec 9)) (h : Memory.wf s.mem = true) :
    Memory.wf (s.shelfWrite t c off bs).mem = true := s.shelfPuts_wf t c _ h

/-- The health manager's count of corrected errors is no memory. -/
@[simp] theorem State.ce_mem (n : Nat) : (s.ce n).mem = s.mem := by
  unfold State.ce
  first | rfl | (split <;> rfl)

/-- A read of the shelf, which writes corrected code words back. -/
theorem State.shelfRead_wf (t c off n : Nat) (h : Memory.wf s.mem = true) : Memory.wf (s.shelfRead t c off n).2.mem = true := by
  have h' := h
  rw [Memory.wf_iff] at h'
  obtain ⟨h1, h2, h3, h4, h5, h6, h7, h8⟩ := h'
  unfold State.shelfRead
  dsimp only
  split <;> split <;> (try simp only [State.bump_mem, State.ce_mem, State.modMem_mem]) <;> first | exact h | skip
  all_goals exact (Memory.wf_iff _).2 ⟨h1, h2, h3, h4, h5, SMap.wf_foldl_put _ _ _ _ h6, h7, h8⟩

/-- A write of a cellar row. -/
theorem State.rowWrite_wf (t die bay row : Nat) (bs : List (Nat × BitVec 9)) (h : Memory.wf s.mem = true) :
    Memory.wf (s.rowWrite t die bay row bs).mem = true := by
  unfold State.rowWrite
  split
  · exact h
  · rw [Memory.wf_iff] at h ⊢
    obtain ⟨h1, h2, h3, h4, h5, h6, h7, h8⟩ := h
    dsimp only [State.modMem]
    split <;> split <;>
      first
      | exact ⟨h1, h2, SMap.wf_foldl_put _ _ _ _ h3, h4, h5, h6, h7, h8⟩
      | exact ⟨h1, h2, SMap.wf_foldl_put _ _ _ _ h3, SMap.wf_put_const h4 _ _, h5, h6, h7, h8⟩

theorem State.rowInvalid_wf (t die bay row : Nat) (h : Memory.wf s.mem = true) : Memory.wf (s.rowInvalid t die bay row).mem = true := by
  rw [Memory.wf_iff] at h ⊢
  obtain ⟨h1, h2, h3, h4, h5, h6, h7, h8⟩ := h
  unfold State.rowInvalid
  exact ⟨h1, h2, h3, SMap.wf_put_const h4 (rowKey t die bay row) 0#3, h5, h6, h7, h8⟩

/-- A whole HBM unit stored. -/
theorem State.unitStore_wf (t un : Nat) (d : BitVec 256) (poison : Bool) (h : Memory.wf s.mem = true) :
    Memory.wf (s.unitStore t un d poison).mem = true := by
  rw [Memory.wf_iff] at h ⊢
  obtain ⟨h1, h2, h3, h4, h5, h6, h7, h8⟩ := h
  unfold State.unitStore
  exact ⟨SMap.wf_put_const h1 _ _, h2, h3, h4, h5, h6, h7, h8⟩

/-- A pantry way written or emptied. -/
theorem State.setWay_wf (t half set w : Nat) (l : Option PLine) (h : Memory.wf s.mem = true) :
    Memory.wf (s.setWay t half set w l).mem = true := by
  rw [Memory.wf_iff] at h ⊢
  obtain ⟨h1, h2, h3, h4, h5, h6, h7, h8⟩ := h
  unfold State.setWay
  exact ⟨h1, h2, h3, h4, h5, h6, SMap.wf_put_const h7 _ _, h8⟩

end Sys2Proof.Machine
end

