-- ==== Sys2Proof/Laws/Packets.lean ====
section
/-! SUPPORT. Everything that running a command packet's work can do. -/

namespace Sys2Proof.Machine

open Sys2Proof.Claims

/-- A packet of another opcode: nothing happens. -/
theorem State.runPkt_other (s : State) {q op : Nat} {p : Packet} (work : Pkt → State → Did) (h : hOpcode p ≠ op) :
    s.runPkt q op p work = s := by
  simp [State.runPkt, h]

/-- The running packet that a command's words name is the one whose work is done. -/
theorem State.takePkt_due {s : State} {q op : Nat} {k : Pkt} (h : Due s q op k) : s.takePkt q k.words = (some k, s) := by
  simp only [State.takePkt, h.found]

/-- The work of a due packet is done on the machine as it is, and settled. -/
theorem State.runPkt_due {s : State} {q op : Nat} {k : Pkt} (work : Pkt → State → Did) (h : Due s q op k) :
    s.runPkt q op k.words work = s.settleWork q k (work k s) := by
  have e1 : (s.reqs.any fun r => decide (r.owner = cmdOwner q k.id) && r.held.isSome && decide (r.stage = .done)) = false := by
    rw [List.any_eq_false]
    intro r hr
    simp [h.quiet r hr]
  have e2 : (s.reqs.filter fun r => !(decide (r.owner = cmdOwner q k.id) && r.held.isSome)) = s.reqs := by
    rw [List.filter_eq_self]
    intro r hr
    simp [h.quiet r hr]
  simp only [State.runPkt, h.opcode, if_true, State.takePkt_due h, e1, e2, Bool.false_eq_true, if_false, ite_self]

/-- Work that is done, with nothing over a link and nothing to wait for, completes its packet and gives back its grants. -/
theorem State.settleWork_done {s0 : State} {q : Nat} {k : Pkt} {d : Did} (hh : d.st ≠ stHeld) (hw : d.st ≠ stWait) (hn : d.s.needs = [])
    (hs : d.s.sends = []) (hq : ∀ r ∈ d.s.reqs, r.owner ≠ cmdOwner q k.id) (he : d.waits = []) :
    s0.settleWork q k d = (d.s.complete k.id d.st d.detail d.clamp).releaseCmd k.id := by
  obtain ⟨s, st, de, cl, ws⟩ := d
  dsimp only at hh hw hn hs hq he ⊢
  subst he
  have e1 (p : Req → Bool) : (s.reqs.filter fun r => !(decide (r.owner = cmdOwner q k.id) && p r)) = s.reqs := by
    rw [List.filter_eq_self]
    intro r hr
    simp [hq r hr]
  have e2 : (s.reqs.any fun r => decide (r.owner = cmdOwner q k.id)) = false := by
    rw [List.any_eq_false]
    intro r hr
    simp [hq r hr]
  have e3 : ({ s with reqs := s.reqs, needs := [], sends := [] } : State) = s := by
    obtain ⟨⟩ := s
    simp_all
  simp only [State.settleWork, hh, hw, if_false, hn, ne_eq, not_true, e1, State.issueRemote, hs, List.foldl_nil, e3, e2, List.append_nil,
    Bool.false_eq_true, List.isEmpty_nil, if_true]

end Sys2Proof.Machine
end

