-- ==== Sys2Proof/Laws/PerInstr.lean ====
section
/-! SUPPORT. Statements about every command as syntax: the table gives no row any bits, so no word spells it. -/

namespace Sys2Proof.Laws.Unspelled

open Sys2Proof

/-- No word of any length spells the command. -/
def Statement (i : Instr) : Prop := ∀ nbits w, decodeTableWord nbits w ≠ some i

/-- The decoder reads no word as any command. -/
theorem of_any (i : Instr) : Statement i := by
  intro n w h
  cases h

theorem coldReset (heldNs : Nat) (straps : Straps) : Statement (.coldReset heldNs straps) := of_any _
theorem sbPwrEnFall : Statement (.sbPwrEnFall) := of_any _
theorem sbPwrEnRise : Statement (.sbPwrEnRise) := of_any _
theorem inputQualified : Statement (.inputQualified) := of_any _
theorem inputOvervoltage (mv us : Nat) : Statement (.inputOvervoltage mv us) := of_any _
theorem pciePerst (high : Bool) : Statement (.pciePerst high) := of_any _
theorem pllHoldover (t : Fin 4) : Statement (.pllHoldover t) := of_any _
theorem pllHoldoverExit (t : Fin 4) : Statement (.pllHoldoverExit t) := of_any _
theorem stampTick (t : Fin 4) : Statement (.stampTick t) := of_any _
theorem stampTowerSteer (t : Fin 4) : Statement (.stampTowerSteer t) := of_any _
theorem diagonalHoldTimeout (id : Nat) : Statement (.diagonalHoldTimeout id) := of_any _
theorem jobStart (r : CluRef) (bin : Fin 16) : Statement (.jobStart r bin) := of_any _
theorem reshape (r : CluRef) : Statement (.reshape r) := of_any _
theorem chunkDrain (r : CluRef) (bin : Fin 16) : Statement (.chunkDrain r bin) := of_any _
theorem jobComplete (r : CluRef) (bin : Fin 16) : Statement (.jobComplete r bin) := of_any _
theorem fillerWindowExpire (r : CluRef) (bin : Fin 16) : Statement (.fillerWindowExpire r bin) := of_any _
theorem rampDownStep (r : CluRef) (bin : Fin 16) : Statement (.rampDownStep r bin) := of_any _
theorem rampUpStep (r : CluRef) : Statement (.rampUpStep r) := of_any _
theorem guardEvaluate (t : Fin 4) (tag : Fin 4096) : Statement (.guardEvaluate t tag) := of_any _
theorem launch (q : Fin 1024) (p : Packet) : Statement (.launch q p) := of_any _
theorem bunchStart (b : BunchRef) : Statement (.bunchStart b) := of_any _
theorem launchEnd (id : Nat) : Statement (.launchEnd id) := of_any _
theorem launchFaultStop (id : Nat) : Statement (.launchFaultStop id) := of_any _
theorem teamSuspend (r : CluRef) (shelfStart shelfBytes : Nat) : Statement (.teamSuspend r shelfStart shelfBytes) := of_any _
theorem teamResume (r : CluRef) (id : Nat) : Statement (.teamResume r id) := of_any _
theorem waitRelease (b : BunchRef) : Statement (.waitRelease b) := of_any _
theorem tallyRepeatComplete (r : CluRef) (n : Fin 128) : Statement (.tallyRepeatComplete r n) := of_any _
theorem barrierTimeout (r : CluRef) (n : Fin 16) : Statement (.barrierTimeout r n) := of_any _
theorem shelfCacheWritebackDrop (r : CluRef) (line : Nat) : Statement (.shelfCacheWritebackDrop r line) := of_any _
theorem mov (b : BunchRef) (w : W64) : Statement (.mov b w) := of_any _
theorem add (b : BunchRef) (w : W64) : Statement (.add b w) := of_any _
theorem sub (b : BunchRef) (w : W64) : Statement (.sub b w) := of_any _
theorem mul (b : BunchRef) (w : W64) : Statement (.mul b w) := of_any _
theorem fma (b : BunchRef) (w : W64) : Statement (.fma b w) := of_any _
theorem min (b : BunchRef) (w : W64) : Statement (.min b w) := of_any _
theorem max (b : BunchRef) (w : W64) : Statement (.max b w) := of_any _
theorem andB (b : BunchRef) (w : W64) : Statement (.andB b w) := of_any _
theorem orB (b : BunchRef) (w : W64) : Statement (.orB b w) := of_any _
theorem xorB (b : BunchRef) (w : W64) : Statement (.xorB b w) := of_any _
theorem notB (b : BunchRef) (w : W64) : Statement (.notB b w) := of_any _
theorem shl (b : BunchRef) (w : W64) : Statement (.shl b w) := of_any _
theorem shr (b : BunchRef) (w : W64) : Statement (.shr b w) := of_any _
theorem popc (b : BunchRef) (w : W64) : Statement (.popc b w) := of_any _
theorem clz (b : BunchRef) (w : W64) : Statement (.clz b w) := of_any _
theorem brev (b : BunchRef) (w : W64) : Statement (.brev b w) := of_any _
theorem sel (b : BunchRef) (w : W64) : Statement (.sel b w) := of_any _
theorem setp (b : BunchRef) (w : W64) : Statement (.setp b w) := of_any _
theorem shfl (b : BunchRef) (w : W64) : Statement (.shfl b w) := of_any _
theorem frnd (b : BunchRef) (w : W64) : Statement (.frnd b w) := of_any _
theorem seed (b : BunchRef) (w : W64) : Statement (.seed b w) := of_any _
theorem prmt (b : BunchRef) (w : W64) : Statement (.prmt b w) := of_any _
theorem mop (b : BunchRef) (w : W64) : Statement (.mop b w) := of_any _
theorem cvt (b : BunchRef) (w : W64) : Statement (.cvt b w) := of_any _
theorem ex2 (b : BunchRef) (w : W64) : Statement (.ex2 b w) := of_any _
theorem lg2 (b : BunchRef) (w : W64) : Statement (.lg2 b w) := of_any _
theorem rcp (b : BunchRef) (w : W64) : Statement (.rcp b w) := of_any _
theorem rsq (b : BunchRef) (w : W64) : Statement (.rsq b w) := of_any _
theorem sqrt (b : BunchRef) (w : W64) : Statement (.sqrt b w) := of_any _
theorem sinpi (b : BunchRef) (w : W64) : Statement (.sinpi b w) := of_any _
theorem cospi (b : BunchRef) (w : W64) : Statement (.cospi b w) := of_any _
theorem tanh (b : BunchRef) (w : W64) : Statement (.tanh b w) := of_any _
theorem sigm (b : BunchRef) (w : W64) : Statement (.sigm b w) := of_any _
theorem gelu (b : BunchRef) (w : W64) : Statement (.gelu b w) := of_any _
theorem silu (b : BunchRef) (w : W64) : Statement (.silu b w) := of_any _
theorem lds (b : BunchRef) (w : W64) : Statement (.lds b w) := of_any _
theorem sts (b : BunchRef) (w : W64) : Statement (.sts b w) := of_any _
theorem ldg (b : BunchRef) (w : W64) : Statement (.ldg b w) := of_any _
theorem stg (b : BunchRef) (w : W64) : Statement (.stg b w) := of_any _
theorem atoms (b : BunchRef) (w : W64) : Statement (.atoms b w) := of_any _
theorem atom (b : BunchRef) (w : W64) : Statement (.atom b w) := of_any _
theorem globalAccessReturn (id : Nat) : Statement (.globalAccessReturn id) := of_any _
theorem nop (b : BunchRef) (w : W64) : Statement (.nop b w) := of_any _
theorem bra (b : BunchRef) (w : W64) : Statement (.bra b w) := of_any _
theorem braAny (b : BunchRef) (w : W64) : Statement (.braAny b w) := of_any _
theorem braAll (b : BunchRef) (w : W64) : Statement (.braAll b w) := of_any _
theorem braNone (b : BunchRef) (w : W64) : Statement (.braNone b w) := of_any _
theorem braUZ (b : BunchRef) (w : W64) : Statement (.braUZ b w) := of_any _
theorem braUNz (b : BunchRef) (w : W64) : Statement (.braUNz b w) := of_any _
theorem call (b : BunchRef) (w : W64) : Statement (.call b w) := of_any _
theorem ret (b : BunchRef) (w : W64) : Statement (.ret b w) := of_any _
theorem pushm (b : BunchRef) (w : W64) : Statement (.pushm b w) := of_any _
theorem andm (b : BunchRef) (w : W64) : Statement (.andm b w) := of_any _
theorem popm (b : BunchRef) (w : W64) : Statement (.popm b w) := of_any _
theorem exit (b : BunchRef) (w : W64) : Statement (.exit b w) := of_any _
theorem setT (b : BunchRef) (w : W64) : Statement (.setT b w) := of_any _
theorem arrive (b : BunchRef) (w : W64) : Statement (.arrive b w) := of_any _
theorem waitPh (b : BunchRef) (w : W64) : Statement (.waitPh b w) := of_any _
theorem waitGe (b : BunchRef) (w : W64) : Statement (.waitGe b w) := of_any _
theorem bar (b : BunchRef) (w : W64) : Statement (.bar b w) := of_any _
theorem mxd (b : BunchRef) (w : W64) : Statement (.mxd b w) := of_any _
theorem hxf (b : BunchRef) (w : W64) : Statement (.hxf b w) := of_any _
theorem qcv (b : BunchRef) (w : W64) : Statement (.qcv b w) := of_any _
theorem nrm (b : BunchRef) (w : W64) : Statement (.nrm b w) := of_any _
theorem fence (b : BunchRef) (w : W64) : Statement (.fence b w) := of_any _
theorem tfence (b : BunchRef) (w : W64) : Statement (.tfence b w) := of_any _
theorem qcvJobStart (r : CluRef) (e : Fin 4) : Statement (.qcvJobStart r e) := of_any _
theorem qcvJobComplete (r : CluRef) (e : Fin 4) : Statement (.qcvJobComplete r e) := of_any _
theorem nrmJobStart (r : CluRef) : Statement (.nrmJobStart r) := of_any _
theorem nrmJobComplete (r : CluRef) : Statement (.nrmJobComplete r) := of_any _
theorem tableLoad (q : Fin 1024) (p : Packet) : Statement (.tableLoad q p) := of_any _
theorem tableBankSwitch (r : CluRef) : Statement (.tableBankSwitch r) := of_any _
theorem hatchJobStart (r : CluRef) : Statement (.hatchJobStart r) := of_any _
theorem hatchJobComplete (r : CluRef) (k : Fin 4) : Statement (.hatchJobComplete r k) := of_any _
theorem scrubSlot (t : Fin 4) (die : Fin 2) : Statement (.scrubSlot t die) := of_any _
theorem cellarHoldTimeout (id : Nat) : Statement (.cellarHoldTimeout id) := of_any _
theorem clearBay (q : Fin 1024) (p : Packet) : Statement (.clearBay q p) := of_any _
theorem cellarSplitCommit (t : Fin 4) : Statement (.cellarSplitCommit t) := of_any _
theorem pantryLookup (id : Nat) : Statement (.pantryLookup id) := of_any _
theorem pantryFillComplete (t : Fin 4) (half : Fin 2) (line : Nat) : Statement (.pantryFillComplete t half line) := of_any _
theorem pin (q : Fin 1024) (p : Packet) : Statement (.pin q p) := of_any _
theorem unpin (q : Fin 1024) (p : Packet) : Statement (.unpin q p) := of_any _
theorem discard (q : Fin 1024) (p : Packet) : Statement (.discard q p) := of_any _
theorem larderPressure (t : Fin 4) : Statement (.larderPressure t) := of_any _
theorem towerHoldTimeout (id : Nat) : Statement (.towerHoldTimeout id) := of_any _
theorem pantryPolicyCommit (t : Fin 4) : Statement (.pantryPolicyCommit t) := of_any _
theorem hbmAccess (t : Fin 4) (a : HbmOp) : Statement (.hbmAccess t a) := of_any _
theorem hbmRefresh (t : Fin 4) (stack : Fin 8) (pc : Fin 64) (bank : Nat) : Statement (.hbmRefresh t stack pc bank) := of_any _
theorem writeQueueDrain (t : Fin 4) (stack : Fin 8) (pc : Fin 64) : Statement (.writeQueueDrain t stack pc) := of_any _
theorem patrolRead (t : Fin 4) (stack : Fin 8) (pc : Fin 64) : Statement (.patrolRead t stack pc) := of_any _
theorem hbmTempRead (t : Fin 4) (temps : List Nat) : Statement (.hbmTempRead t temps) := of_any _
theorem regulationWindow (t : Fin 4) : Statement (.regulationWindow t) := of_any _
theorem flitReceive (l : PortRef) (flit : List Byte) (fecBad : Bool) : Statement (.flitReceive l flit fecBad) := of_any _
theorem flitTransmit (l : PortRef) : Statement (.flitTransmit l) := of_any _
theorem nak (l : PortRef) (seq : BitVec 8) : Statement (.nak l seq) := of_any _
theorem nakRepeat (l : PortRef) : Statement (.nakRepeat l) := of_any _
theorem portRetrain (l : PortRef) : Statement (.portRetrain l) := of_any _
theorem portDown (l : PortRef) : Statement (.portDown l) := of_any _
theorem portQualify (l : PortRef) (badLanes : BitVec 8) (uncorr : Bool) : Statement (.portQualify l badLanes uncorr) := of_any _
theorem laneMonitorWindow (l : PortRef) (badLanes : BitVec 8) (uncorr berExp : Nat) : Statement (.laneMonitorWindow l badLanes uncorr berExp) := of_any _
theorem rd (l : PortRef) (p : LinkPkt) : Statement (.rd l p) := of_any _
theorem wr (l : PortRef) (p : LinkPkt) : Statement (.wr l p) := of_any _
theorem wrm (l : PortRef) (p : LinkPkt) : Statement (.wrm l p) := of_any _
theorem amo (l : PortRef) (p : LinkPkt) : Statement (.amo l p) := of_any _
theorem rdr (l : PortRef) (p : LinkPkt) : Statement (.rdr l p) := of_any _
theorem ack (l : PortRef) (p : LinkPkt) : Statement (.ack l p) := of_any _
theorem amr (l : PortRef) (p : LinkPkt) : Statement (.amr l p) := of_any _
theorem cmp (l : PortRef) (p : LinkPkt) : Statement (.cmp l p) := of_any _
theorem mnr (l : PortRef) (p : LinkPkt) : Statement (.mnr l p) := of_any _
theorem cmd (l : PortRef) (p : LinkPkt) : Statement (.cmd l p) := of_any _
theorem dbf (l : PortRef) (p : LinkPkt) : Statement (.dbf l p) := of_any _
theorem tsig (l : PortRef) (p : LinkPkt) : Statement (.tsig l p) := of_any _
theorem cfl (l : PortRef) (p : LinkPkt) : Statement (.cfl l p) := of_any _
theorem hrd (l : PortRef) (p : LinkPkt) : Statement (.hrd l p) := of_any _
theorem hwr (l : PortRef) (p : LinkPkt) : Statement (.hwr l p) := of_any _
theorem hirq (l : PortRef) (p : LinkPkt) : Statement (.hirq l p) := of_any _
theorem mnt (l : PortRef) (p : LinkPkt) : Statement (.mnt l p) := of_any _
theorem requestTimeout (id : Nat) : Statement (.requestTimeout id) := of_any _
theorem portInfo (l : PortRef) (recv : Option PortInfoBody) : Statement (.portInfo l recv) := of_any _
theorem syncReq (l : PortRef) (recv : Option SyncStamp) : Statement (.syncReq l recv) := of_any _
theorem syncRsp (l : PortRef) (t1 t2 t3 t4 : SyncStamp) : Statement (.syncRsp l t1 t2 t3 t4) := of_any _
theorem linkConfigCommit : Statement (.linkConfigCommit) := of_any _
theorem bar0Doorbell (slot : Fin 64) (q : Fin 1024) (tail : W32) : Statement (.bar0Doorbell slot q tail) := of_any _
theorem bar2Access (slot : Fin 64) (off : Nat) (a : Bar2Op) : Statement (.bar2Access slot off a) := of_any _
theorem doorbell (q : Fin 1024) (tail : W32) : Statement (.doorbell q tail) := of_any _
theorem cheadWrite (q : Fin 1024) (v : W32) : Statement (.cheadWrite q v) := of_any _
theorem packetFetch (q : Fin 1024) : Statement (.packetFetch q) := of_any _
theorem packetStart (q : Fin 1024) : Statement (.packetStart q) := of_any _
theorem completionWrite (q : Fin 1024) : Statement (.completionWrite q) := of_any _
theorem packetDeadline (q : Fin 1024) (id : Nat) : Statement (.packetDeadline q id) := of_any _
theorem dispatchTick : Statement (.dispatchTick) := of_any _
theorem class7Accept (q : Fin 1024) : Statement (.class7Accept q) := of_any _
theorem class7Start (q : Fin 1024) : Statement (.class7Start q) := of_any _
theorem preempt (r : CluRef) : Statement (.preempt r) := of_any _
theorem nopCommand (q : Fin 1024) (p : Packet) : Statement (.nopCommand q p) := of_any _
theorem fenceCommand (q : Fin 1024) (p : Packet) : Statement (.fenceCommand q p) := of_any _
theorem copy (q : Fin 1024) (p : Packet) : Statement (.copy q p) := of_any _
theorem fill (q : Fin 1024) (p : Packet) : Statement (.fill q p) := of_any _
theorem matrix (q : Fin 1024) (p : Packet) : Statement (.matrix q p) := of_any _
theorem tallySet (q : Fin 1024) (p : Packet) : Statement (.tallySet q p) := of_any _
theorem tallyWait (q : Fin 1024) (p : Packet) : Statement (.tallyWait q p) := of_any _
theorem tallySignal (q : Fin 1024) (p : Packet) : Statement (.tallySignal q p) := of_any _
theorem configCmd (q : Fin 1024) (p : Packet) : Statement (.configCmd q p) := of_any _
theorem query (q : Fin 1024) (p : Packet) : Statement (.query q p) := of_any _
theorem formatPolicy (q : Fin 1024) (p : Packet) : Statement (.formatPolicy q p) := of_any _
theorem guardPolicyCommit : Statement (.guardPolicyCommit) := of_any _
theorem arrayPowerCommit (r : CluRef) : Statement (.arrayPowerCommit r) := of_any _
theorem powerBudget (q : Fin 1024) (p : Packet) : Statement (.powerBudget q p) := of_any _
theorem powerQuery (q : Fin 1024) (p : Packet) : Statement (.powerQuery q p) := of_any _
theorem domainStateOn (q : Fin 1024) (p : Packet) : Statement (.domainStateOn q p) := of_any _
theorem domainStateOff (q : Fin 1024) (p : Packet) : Statement (.domainStateOff q p) := of_any _
theorem domainStateCap (q : Fin 1024) (p : Packet) : Statement (.domainStateCap q p) := of_any _
theorem clusterReset (q : Fin 1024) (p : Packet) : Statement (.clusterReset q p) := of_any _
theorem atticReset (q : Fin 1024) (p : Packet) : Statement (.atticReset q p) := of_any _
theorem cellarUReset (q : Fin 1024) (p : Packet) : Statement (.cellarUReset q p) := of_any _
theorem cellarLReset (q : Fin 1024) (p : Packet) : Statement (.cellarLReset q p) := of_any _
theorem towerReset (q : Fin 1024) (p : Packet) : Statement (.towerReset q p) := of_any _
theorem moduleWarm (q : Fin 1024) (p : Packet) : Statement (.moduleWarm q p) := of_any _
theorem towerResetTimeout (t : Fin 4) : Statement (.towerResetTimeout t) := of_any _
theorem snapshot (q : Fin 1024) (p : Packet) : Statement (.snapshot q p) := of_any _
theorem restore (q : Fin 1024) (p : Packet) : Statement (.restore q p) := of_any _
theorem cvuSet (q : Fin 1024) (p : Packet) : Statement (.cvuSet q p) := of_any _
theorem cvuGet (q : Fin 1024) (p : Packet) : Statement (.cvuGet q p) := of_any _
theorem scrubCtl (q : Fin 1024) (p : Packet) : Statement (.scrubCtl q p) := of_any _
theorem inject (q : Fin 1024) (p : Packet) : Statement (.inject q p) := of_any _
theorem telemetry (q : Fin 1024) (p : Packet) : Statement (.telemetry q p) := of_any _
theorem logRead (q : Fin 1024) (p : Packet) : Statement (.logRead q p) := of_any _
theorem linkCtl (q : Fin 1024) (p : Packet) : Statement (.linkCtl q p) := of_any _
theorem remote (q : Fin 1024) (p : Packet) : Statement (.remote q p) := of_any _
theorem grantRequest (t : Fin 4) (g : GrantReq) : Statement (.grantRequest t g) := of_any _
theorem grantFromQueue (t : Fin 4) : Statement (.grantFromQueue t) := of_any _
theorem budgetWindowEnd (t : Fin 4) (m : WindowMeas) : Statement (.budgetWindowEnd t m) := of_any _
theorem budgetGuard (t : Fin 4) (energyUj : Nat) : Statement (.budgetGuard t energyUj) := of_any _
theorem powerPolicyCommit (t : Fin 4) : Statement (.powerPolicyCommit t) := of_any _
theorem wakeWave (t : Fin 4) : Statement (.wakeWave t) := of_any _
theorem wakeWaitExpire (r : CluRef) : Statement (.wakeWaitExpire r) := of_any _
theorem phaseLost (t : Fin 4) (domain : Nat) : Statement (.phaseLost t domain) := of_any _
theorem currentLimit (r : CluRef) : Statement (.currentLimit r) := of_any _
theorem supplySag (mv : Nat) : Statement (.supplySag mv) := of_any _
theorem sagExit : Statement (.sagExit) := of_any _
theorem orderedStop : Statement (.orderedStop) := of_any _
theorem thermalSense (t : Fin 4) (m : ThermalMeas) : Statement (.thermalSense t m) := of_any _
theorem throttleStep (t : Fin 4) : Statement (.throttleStep t) := of_any _
theorem thermalHalving (t : Fin 4) (die : Fin 4) : Statement (.thermalHalving t die) := of_any _
theorem thermalHalvingEnd (t : Fin 4) (die : Fin 4) : Statement (.thermalHalvingEnd t die) := of_any _
theorem thermalTrip (t : Fin 4) (die : Fin 4) : Statement (.thermalTrip t die) := of_any _
theorem thermalSensorSuspect (t : Fin 4) (region : Fin 16) : Statement (.thermalSensorSuspect t region) := of_any _
theorem firmwareFetch (src : Fin 3) (pkg : List Byte) : Statement (.firmwareFetch src pkg) := of_any _
theorem fwSourceFailed (src : Fin 3) : Statement (.fwSourceFailed src) := of_any _
theorem stagingLengthWrite (len : Nat) : Statement (.stagingLengthWrite len) := of_any _
theorem pllLockTimeout (t : Fin 4) : Statement (.pllLockTimeout t) := of_any _
theorem trainingComplete (failed : List (Nat × Nat × Nat)) : Statement (.trainingComplete failed) := of_any _
theorem memoryTest (f : TestFindings) : Statement (.memoryTest f) := of_any _
theorem softRepair : Statement (.softRepair) := of_any _
theorem clusterSelfTest (t : Fin 4) (row : Fin 8) (col : Fin 17) (pass : Bool) : Statement (.clusterSelfTest t row col pass) := of_any _
theorem ready : Statement (.ready) := of_any _
theorem ceTrendWindow : Statement (.ceTrendWindow) := of_any _
theorem firmwareUpdate (pkg : List Byte) : Statement (.firmwareUpdate pkg) := of_any _
theorem getVersion (msg : List Byte) : Statement (.getVersion msg) := of_any _
theorem getCapabilities (msg : List Byte) : Statement (.getCapabilities msg) := of_any _
theorem negotiateAlgorithms (msg : List Byte) : Statement (.negotiateAlgorithms msg) := of_any _
theorem getDigests (msg : List Byte) : Statement (.getDigests msg) := of_any _
theorem getCertificate (slot : Nat) (off len : Nat) : Statement (.getCertificate slot off len) := of_any _
theorem challenge (slot : Nat) (nonce : List Byte) : Statement (.challenge slot nonce) := of_any _
theorem getMeasurements (index : BitVec 8) (sign : Bool) (nonce : List Byte) : Statement (.getMeasurements index sign nonce) := of_any _
theorem dynamicAddressAssign (addr : BitVec 7) : Statement (.dynamicAddressAssign addr) := of_any _
theorem mctpControl (msg : List Byte) : Statement (.mctpControl msg) := of_any _
theorem pldmBaseDiscovery (msg : List Byte) : Statement (.pldmBaseDiscovery msg) := of_any _
theorem pldmSensorRead (sensor : Nat) : Statement (.pldmSensorRead sensor) := of_any _
theorem pollForPlatformEventMessage : Statement (.pollForPlatformEventMessage) := of_any _
theorem vendorCommandMessage (msg : List Byte) : Statement (.vendorCommandMessage msg) := of_any _
theorem vendorMemoryRead (msg : List Byte) : Statement (.vendorMemoryRead msg) := of_any _
theorem vendorMemoryWrite (msg : List Byte) : Statement (.vendorMemoryWrite msg) := of_any _
theorem mgtLogAckWrite (v : W32) : Statement (.mgtLogAckWrite v) := of_any _
theorem tallyRegisterWrite (r : CluRef) (n : Fin 128) (a : TallyWrite) : Statement (.tallyRegisterWrite r n a) := of_any _
theorem celFlipmaskWrite (t : Fin 4) (die : Fin 2) (bay : Fin 136) (v : W64) : Statement (.celFlipmaskWrite t die bay v) := of_any _
theorem shfFlipmaskWrite (r : CluRef) (v : W64) : Statement (.shfFlipmaskWrite r v) := of_any _
theorem panDeadLogRead (t : Fin 4) : Statement (.panDeadLogRead t) := of_any _
theorem pwrVminRead (t : Fin 4) (domain : Nat) : Statement (.pwrVminRead t domain) := of_any _
theorem readClearRegisterRead (rq : Nat) (addr size : Nat) : Statement (.readClearRegisterRead rq addr size) := of_any _
theorem arrCommitWrite (r : CluRef) (v : W32) : Statement (.arrCommitWrite r v) := of_any _
theorem celCommitWrite (t : Fin 4) (v : W32) : Statement (.celCommitWrite t v) := of_any _
theorem panCommitWrite (t : Fin 4) (v : W32) : Statement (.panCommitWrite t v) := of_any _
theorem hbmCommitWrite (t : Fin 4) (v : W32) : Statement (.hbmCommitWrite t v) := of_any _
theorem lnkCommitWrite (t : Fin 4) (v : W32) : Statement (.lnkCommitWrite t v) := of_any _
theorem cmdCommitWrite (t : Fin 4) (v : W32) : Statement (.cmdCommitWrite t v) := of_any _
theorem pwrCommitWrite (t : Fin 4) (v : W32) : Statement (.pwrCommitWrite t v) := of_any _
theorem cvuCommitWrite (u : CvuRef) (v : W32) : Statement (.cvuCommitWrite u v) := of_any _
theorem registerWrite (rq : Nat) (addr size : Nat) (v : W64) : Statement (.registerWrite rq addr size v) := of_any _
theorem resetEnd (scope : Nat) (t : Fin 4) (c : Fin 128) : Statement (.resetEnd scope t c) := of_any _
theorem pllLock (t : Fin 4) : Statement (.pllLock t) := of_any _
theorem linkTrainingComplete (l : PortRef) : Statement (.linkTrainingComplete l) := of_any _
theorem pcieLinkUp (rate width : Nat) : Statement (.pcieLinkUp rate width) := of_any _
theorem pcieLinkDown : Statement (.pcieLinkDown) := of_any _
theorem domainWakeComplete (r : CluRef) : Statement (.domainWakeComplete r) := of_any _
theorem islandFailover : Statement (.islandFailover) := of_any _
theorem inputLoss : Statement (.inputLoss) := of_any _
theorem lowHalfRead (rq : Nat) (addr : Nat) : Statement (.lowHalfRead rq addr) := of_any _

end Sys2Proof.Laws.Unspelled
end

