-- ==== Sys2Proof/Laws/Registers.lean ====
section
/-! SUPPORT. What reads and writes of the register file give: a field written reads as written, and every other register stays. -/

namespace Sys2Proof.Machine

variable (s : State)

/-- A mask of bits [hi:lo]. -/
theorem fieldMask_getLsbD (hi lo i : Nat) (hi64 : hi < 64) (hl : lo ≤ hi) :
    (BitVec.ofNat 64 ((2 ^ (hi + 1 - lo) - 1) * 2 ^ lo)).getLsbD i = decide (lo ≤ i ∧ i ≤ hi) := by
  rw [BitVec.getLsbD_ofNat, Nat.testBit_mul_two_pow, Nat.testBit_two_pow_sub_one]
  by_cases h : lo ≤ i <;> by_cases h' : i ≤ hi <;> simp [h, h'] <;> omega

/-- Bits of a word after a field is written: inside the field the value's, outside as before. -/
theorem setFld_getLsbD (w : W64) (hi lo v i : Nat) (hi64 : hi < 64) (hl : lo ≤ hi) :
    (setFld w hi lo v).getLsbD i = if lo ≤ i ∧ i ≤ hi then v.testBit (i - lo) else w.getLsbD i := by
  by_cases hi' : i < 64
  · simp only [setFld, BitVec.getLsbD_or, BitVec.getLsbD_and, BitVec.getLsbD_not, fieldMask_getLsbD hi lo i hi64 hl, BitVec.getLsbD_ofNat,
      Nat.testBit_mul_two_pow, Nat.testBit_mod_two_pow]
    by_cases h : lo ≤ i <;> by_cases h' : i ≤ hi
    · have : i - lo < hi + 1 - lo := by omega
      simp [h, h', hi', this]
    · have : ¬ (i - lo < hi + 1 - lo) := by omega
      simp [h, h', hi', this]
    · simp [h, hi']
    · simp [h, hi']
  · have h1 : ¬ (lo ≤ i ∧ i ≤ hi) := by omega
    rw [if_neg h1, BitVec.getLsbD_of_ge _ _ (by omega), BitVec.getLsbD_of_ge _ _ (by omega)]

/-- A field reads as the bits of its word. -/
theorem fld_testBit (w : W64) (hi lo i : Nat) (hl : lo ≤ hi) : (fld w hi lo).testBit i = (decide (i ≤ hi - lo) && w.getLsbD (lo + i)) := by
  simp only [fld, bitsOf, Nat.testBit_mod_two_pow, Nat.testBit_div_two_pow]
  have : (i < hi + 1 - lo) ↔ (i ≤ hi - lo) := by omega
  simp only [this, BitVec.getLsbD]
  rw [Nat.add_comm]

/-- A field written reads as the value's low bits. -/
theorem fld_setFld (w : W64) (hi lo v : Nat) (hi64 : hi < 64) (hl : lo ≤ hi) : fld (setFld w hi lo v) hi lo = v % 2 ^ (hi + 1 - lo) := by
  apply Nat.eq_of_testBit_eq
  intro i
  rw [fld_testBit _ _ _ _ hl, setFld_getLsbD _ _ _ _ _ hi64 hl, Nat.testBit_mod_two_pow]
  by_cases h : i ≤ hi - lo
  · have h1 : lo ≤ lo + i ∧ lo + i ≤ hi := by omega
    have h2 : i < hi + 1 - lo := by omega
    simp [h, h1, h2]
  · have h2 : ¬ i < hi + 1 - lo := by omega
    simp [h, h2]

/-- Another field of the word stays. -/
theorem fld_setFld_other (w : W64) (hi lo v a b : Nat) (hi64 : hi < 64) (hl : lo ≤ hi) (hb : b ≤ a) (h : a < lo ∨ hi < b) :
    fld (setFld w hi lo v) a b = fld w a b := by
  apply Nat.eq_of_testBit_eq
  intro i
  rw [fld_testBit _ _ _ _ hb, fld_testBit _ _ _ _ hb, setFld_getLsbD _ _ _ _ _ hi64 hl]
  by_cases h' : i ≤ a - b
  · have : ¬ (lo ≤ b + i ∧ b + i ≤ hi) := by omega
    rw [if_neg this]
  · simp [h']

/-- A register field written reads as written. -/
theorem State.fget_fset (f : Fld) (v t u i j : Nat) (hi64 : f.hi < 64) (hl : f.lo ≤ f.hi) :
    (s.fset f v t u i j).fget f t u i j = v % 2 ^ (f.hi + 1 - f.lo) := by
  simp only [State.fget, State.fset, State.reg_setReg]
  exact fld_setFld _ _ _ _ hi64 hl

/-- A field written leaves every register of another key. -/
theorem State.reg_fset_other (f : Fld) (v t u i j : Nat) {m : Loc} (h : m.key ≠ (⟨f.reg, t, u, i, j⟩ : Loc).key) :
    (s.fset f v t u i j).reg m = s.reg m := State.reg_setReg_other _ h _

/-- A counter advanced leaves every register of another key. -/
theorem State.reg_bump_other (f : Fld) (n t u i j : Nat) {m : Loc} (h : m.key ≠ (⟨f.reg, t, u, i, j⟩ : Loc).key) :
    (s.bump f n t u i j).reg m = s.reg m := State.reg_setReg_other _ h _

/-- Staged copies and the copies of commit requests. -/
@[simp] theorem State.stg_setStg (l : Loc) (v : W64) : (s.setStg l v).stg l = v := SMap.get_put_self _ _ _ _
@[simp] theorem State.stg_setStg_other {l m : Loc} (h : m.key ≠ l.key) (v : W64) : (s.setStg l v).stg m = s.stg m :=
  SMap.get_put_other _ _ h
@[simp] theorem State.lck_setLck (l : Loc) (v : W64) : (s.setLck l v).lck l = v := SMap.get_put_self _ _ _ _
@[simp] theorem State.lck_setLck_other {l m : Loc} (h : m.key ≠ l.key) (v : W64) : (s.setLck l v).lck m = s.lck m :=
  SMap.get_put_other _ _ h
@[simp] theorem State.stg_setReg (l m : Loc) (v : W64) : (s.setReg l v).stg m = s.stg m := rfl
@[simp] theorem State.lck_setReg (l m : Loc) (v : W64) : (s.setReg l v).lck m = s.lck m := rfl
@[simp] theorem State.reg_setStg (l m : Loc) (v : W64) : (s.setStg l v).reg m = s.reg m := rfl
@[simp] theorem State.reg_setLck (l m : Loc) (v : W64) : (s.setLck l v).reg m = s.reg m := rfl

/-- What a commit request's copy of a register becomes active as: its WS bits (R11). -/
theorem State.reg_activate (l : Loc) : (s.activate l).reg l = (s.reg l &&& ~~~l.r.wsBits) ||| (s.lck l &&& l.r.wsBits) := State.reg_setReg _ _ _
theorem State.reg_activate_other {l m : Loc} (h : m.key ≠ l.key) : (s.activate l).reg m = s.reg m := State.reg_setReg_other _ h _

end Sys2Proof.Machine
end

