-- ==== Sys2Proof/Laws/Thread.lean ====
section
/-! SUPPORT. Everything that issuing one thread instruction can do. -/

namespace Sys2Proof.Machine

open Sys2Proof.Claims

/-- An instruction that issues does what its effect gives: it stalls, retires its bunch, faults, or goes on at a new pc and is
counted. -/
theorem issue_of_issues {own : List Nat} {legal : Th → Bool} (run : Th → State → Ran) {s : State} {h : Th} (hi : Issues s h own legal)
    (listed : opListed (wOpc h.w) = true) :
    issue own legal run h.b h.w s =
      match run h s with
      | .stall => s
      | .gone s1 => s1.bump teIssueCntCount 1 h.b.t h.b.c h.b.e
      | .fault s1 i => s1.bunchFault h.b i
      | .ok s1 pc => (s1.modBunch (bkey h.b) fun y => { y with pc := pc }).bump teIssueCntCount 1 h.b.t h.b.c h.b.e := by
  obtain ⟨b, x, tm, w⟩ := h
  obtain ⟨hx, ht, hc, hf, ho, hl⟩ := hi
  dsimp only at hx ht hc hf ho hl listed
  subst hx
  simp only [issue, hc, ht, hf, ho, hl, listed, Bool.not_true, if_false, Bool.false_eq_true]
  all_goals (cases run _ s <;> rfl)

/-- A bunch that cannot issue executes nothing; its fetch may be held. -/
theorem issue_of_cannot {own : List Nat} {legal : Th → Bool} {run : Th → State → Ran} {s : State} {b : BunchRef} {w : W64}
    (hc : s.canIssue b = false) : issue own legal run b w s = s.holdFetch b := by
  simp [issue, hc]

/-- A bunch whose fetch is not held is left as it is. -/
theorem State.holdFetch_of_not {s : State} {b : BunchRef} (h : s.fetchHeld b = false) : s.holdFetch b = s := by
  simp [State.holdFetch, h]

/-- A bunch whose fetch is held cannot issue. -/
theorem State.cannot_of_fetchHeld {s : State} {b : BunchRef} (h : s.fetchHeld b = true) : s.canIssue b = false := by
  unfold State.fetchHeld State.canIssue at *
  split at h <;> simp_all

/-- An effect that only writes the bunch's registers leaves the machine as `issued` says. -/
theorem issue_bunch {own : List Nat} {legal : Th → Bool} (run : Th → State → Ran) {s : State} {h : Th} (hi : Issues s h own legal)
    (listed : opListed (wOpc h.w) = true) {y : Bunch} (hr : run h s = h.bunch s y) :
    issue own legal run h.b h.w s = issued s h y (h.x.pc + 8) := by
  rw [issue_of_issues run hi listed, hr]
  have e : (s.setBunch (bkey h.b) y).modBunch (bkey h.b) (fun z => { z with pc := h.x.pc + 8 }) = s.setBunch (bkey h.b) { y with pc := h.x.pc + 8 } := by
    rw [State.modBunch, State.bunch_setBunch]
    simp only [State.setBunch, SMap.put_put]
  simp only [Th.bunch, Th.next, issued, e]

end Sys2Proof.Machine
end

