-- ==== Sys2Proof/WellFormed.lean ====
section
/-! DEFINITION. Which commands are well formed: the operands that no type bounds lie inside the fields that carry them. A
meaning does not assume it: an operand outside its field names nothing, and the command then changes nothing. -/

namespace Sys2Proof

/-- A packet is one to sixteen whole 64-byte entries, as many as its length field says (R358, Table 12-1). -/
def packetOk (p : Packet) : Bool :=
  p.length == 8 * ((p.getD 0 0#64).toNat / 2 ^ 16 % 16 + 1)

/-- A link packet holds 256 of data, 32 of mask and one of poison marks (Table 11-4, R331). -/
def linkOk (p : LinkPkt) : Bool := decide (p.slots.length ≤ 289)

/-- Sizes of a register access (R8). -/
def regSize (n : Nat) : Bool := n == 1 || n == 2 || n == 4 || n == 8

/-- A well-formed command. -/
def Instr.wf : Instr → Bool
  | .coldReset ns _ => decide (10000 ≤ ns)
  | .inputOvervoltage mv us => decide (13800 < mv ∧ 100 < us)
  | .launch _ p => packetOk p
  | .teamSuspend _ a n => decide (a % 16 = 0 ∧ n % 16 = 0 ∧ a + n ≤ 2 ^ 20)
  | .shelfCacheWritebackDrop _ l => decide (l < 2 ^ 57)
  | .tableLoad _ p => packetOk p
  | .clearBay _ p => packetOk p
  | .pin _ p => packetOk p
  | .unpin _ p => packetOk p
  | .discard _ p => packetOk p
  | .hbmRefresh _ _ _ b => decide (b < 32)
  | .hbmTempRead _ ts => ts.length == 8
  | .flitReceive _ f _ => f.length == 256
  | .laneMonitorWindow _ _ _ b => decide (b < 32)
  | .rd _ p => linkOk p
  | .wr _ p => linkOk p
  | .wrm _ p => linkOk p
  | .amo _ p => linkOk p
  | .rdr _ p => linkOk p
  | .ack _ p => linkOk p
  | .amr _ p => linkOk p
  | .cmp _ p => linkOk p
  | .mnr _ p => linkOk p
  | .cmd _ p => linkOk p
  | .dbf _ p => linkOk p
  | .tsig _ p => linkOk p
  | .cfl _ p => linkOk p
  | .hrd _ p => linkOk p
  | .hwr _ p => linkOk p
  | .hirq _ p => linkOk p
  | .mnt _ p => linkOk p
  | .bar2Access _ o a => decide (o < 2 ^ 42) && (match a with | .read n => decide (0 < n ∧ n ≤ 4096) | .write b => decide (0 < b.length ∧ b.length ≤ 4096))
  | .nopCommand _ p => packetOk p
  | .fenceCommand _ p => packetOk p
  | .copy _ p => packetOk p
  | .fill _ p => packetOk p
  | .matrix _ p => packetOk p
  | .tallySet _ p => packetOk p
  | .tallyWait _ p => packetOk p
  | .tallySignal _ p => packetOk p
  | .configCmd _ p => packetOk p
  | .query _ p => packetOk p
  | .formatPolicy _ p => packetOk p
  | .powerBudget _ p => packetOk p
  | .powerQuery _ p => packetOk p
  | .domainStateOn _ p => packetOk p
  | .domainStateOff _ p => packetOk p
  | .domainStateCap _ p => packetOk p
  | .clusterReset _ p => packetOk p
  | .atticReset _ p => packetOk p
  | .cellarUReset _ p => packetOk p
  | .cellarLReset _ p => packetOk p
  | .towerReset _ p => packetOk p
  | .moduleWarm _ p => packetOk p
  | .snapshot _ p => packetOk p
  | .restore _ p => packetOk p
  | .cvuSet _ p => packetOk p
  | .cvuGet _ p => packetOk p
  | .scrubCtl _ p => packetOk p
  | .inject _ p => packetOk p
  | .telemetry _ p => packetOk p
  | .logRead _ p => packetOk p
  | .linkCtl _ p => packetOk p
  | .remote _ p => packetOk p
  | .phaseLost _ d => decide (d < 1024)
  | .thermalSense _ m => m.regions.length == 16
  | .stagingLengthWrite n => decide (n < 2 ^ 32)
  | .pwrVminRead _ d => decide (d < 1024)
  | .readClearRegisterRead _ a n => regSize n && a % n == 0
  | .registerWrite _ a n v => regSize n && a % n == 0 && decide (v.toNat < 2 ^ (8 * n))
  | .resetEnd k _ _ => decide (k < 6)
  | .pcieLinkUp r w => decide (0 < r ∧ r < 8 ∧ 0 < w ∧ w ≤ 16)
  | .lowHalfRead _ a => a % 8 == 0
  | .sbPwrEnFall | .sbPwrEnRise | .inputQualified | .pciePerst _ | .pllHoldover _ | .pllHoldoverExit _
  | .stampTick _ | .stampTowerSteer _ | .diagonalHoldTimeout _ | .jobStart _ _ | .reshape _ | .chunkDrain _ _
  | .jobComplete _ _ | .fillerWindowExpire _ _ | .rampDownStep _ _ | .rampUpStep _ | .guardEvaluate _ _ | .bunchStart _
  | .launchEnd _ | .launchFaultStop _ | .teamResume _ _ | .waitRelease _ | .tallyRepeatComplete _ _ | .barrierTimeout _ _
  | .mov _ _ | .add _ _ | .sub _ _ | .mul _ _ | .fma _ _ | .min _ _
  | .max _ _ | .andB _ _ | .orB _ _ | .xorB _ _ | .notB _ _ | .shl _ _
  | .shr _ _ | .popc _ _ | .clz _ _ | .brev _ _ | .sel _ _ | .setp _ _
  | .shfl _ _ | .frnd _ _ | .seed _ _ | .prmt _ _ | .mop _ _ | .cvt _ _
  | .ex2 _ _ | .lg2 _ _ | .rcp _ _ | .rsq _ _ | .sqrt _ _ | .sinpi _ _
  | .cospi _ _ | .tanh _ _ | .sigm _ _ | .gelu _ _ | .silu _ _ | .lds _ _
  | .sts _ _ | .ldg _ _ | .stg _ _ | .atoms _ _ | .atom _ _ | .globalAccessReturn _
  | .nop _ _ | .bra _ _ | .braAny _ _ | .braAll _ _ | .braNone _ _ | .braUZ _ _
  | .braUNz _ _ | .call _ _ | .ret _ _ | .pushm _ _ | .andm _ _ | .popm _ _
  | .exit _ _ | .setT _ _ | .arrive _ _ | .waitPh _ _ | .waitGe _ _ | .bar _ _
  | .mxd _ _ | .hxf _ _ | .qcv _ _ | .nrm _ _ | .fence _ _ | .tfence _ _
  | .qcvJobStart _ _ | .qcvJobComplete _ _ | .nrmJobStart _ | .nrmJobComplete _ | .tableBankSwitch _ | .hatchJobStart _
  | .hatchJobComplete _ _ | .scrubSlot _ _ | .cellarHoldTimeout _ | .cellarSplitCommit _ | .pantryLookup _ | .pantryFillComplete _ _ _
  | .larderPressure _ | .towerHoldTimeout _ | .pantryPolicyCommit _ | .hbmAccess _ _ | .writeQueueDrain _ _ _ | .patrolRead _ _ _
  | .regulationWindow _ | .flitTransmit _ | .nak _ _ | .nakRepeat _ | .portRetrain _ | .portDown _
  | .portQualify _ _ _ | .requestTimeout _ | .portInfo _ _ | .syncReq _ _ | .syncRsp _ _ _ _ _ | .linkConfigCommit
  | .bar0Doorbell _ _ _ | .doorbell _ _ | .cheadWrite _ _ | .packetFetch _ | .packetStart _ | .completionWrite _
  | .packetDeadline _ _ | .dispatchTick | .class7Accept _ | .class7Start _ | .preempt _ | .guardPolicyCommit
  | .arrayPowerCommit _ | .towerResetTimeout _ | .grantRequest _ _ | .grantFromQueue _ | .budgetWindowEnd _ _ | .budgetGuard _ _
  | .powerPolicyCommit _ | .wakeWave _ | .wakeWaitExpire _ | .currentLimit _ | .supplySag _ | .sagExit
  | .orderedStop | .throttleStep _ | .thermalHalving _ _ | .thermalHalvingEnd _ _ | .thermalTrip _ _ | .thermalSensorSuspect _ _
  | .firmwareFetch _ _ | .fwSourceFailed _ | .pllLockTimeout _ | .trainingComplete _ | .memoryTest _ | .softRepair
  | .clusterSelfTest _ _ _ _ | .ready | .ceTrendWindow | .firmwareUpdate _ | .getVersion _ | .getCapabilities _
  | .negotiateAlgorithms _ | .getDigests _ | .getCertificate _ _ _ | .challenge _ _ | .getMeasurements _ _ _ | .dynamicAddressAssign _
  | .mctpControl _ | .pldmBaseDiscovery _ | .pldmSensorRead _ | .pollForPlatformEventMessage | .vendorCommandMessage _ | .vendorMemoryRead _
  | .vendorMemoryWrite _ | .mgtLogAckWrite _ | .tallyRegisterWrite _ _ _ | .celFlipmaskWrite _ _ _ _ | .shfFlipmaskWrite _ _ | .panDeadLogRead _
  | .arrCommitWrite _ _ | .celCommitWrite _ _ | .panCommitWrite _ _ | .hbmCommitWrite _ _ | .lnkCommitWrite _ _ | .cmdCommitWrite _ _
  | .pwrCommitWrite _ _ | .cvuCommitWrite _ _ | .pllLock _ | .linkTrainingComplete _ | .pcieLinkDown | .domainWakeComplete _
  | .islandFailover | .inputLoss => true

end Sys2Proof
end

