-- ==== Sys2Proof/Tests/Slice0.lean ====
section
/-! SUPPORT. Tests: every check of well-formedness refuses an ill-formed command, and results that the specification's own worked
examples and tables give. -/

set_option Elab.async false

namespace Sys2Proof.Tests

open Sys2Proof Sys2Proof.Machine Sys2Proof.Claims

/-! ## Well-formedness -/

def noLink : LinkPkt := ⟨0#64, 0#64, []⟩
def longLink : LinkPkt := ⟨0#64, 0#64, List.replicate 290 0#128⟩
/-- Commands of every packet row with a packet p. -/
def packetRows (p : Packet) : List Instr :=
  [.launch 0 p, .tableLoad 0 p, .clearBay 0 p, .pin 0 p, .unpin 0 p, .discard 0 p, .nopCommand 0 p, .fenceCommand 0 p,
   .copy 0 p, .fill 0 p, .matrix 0 p, .tallySet 0 p, .tallyWait 0 p, .tallySignal 0 p, .configCmd 0 p, .query 0 p,
   .formatPolicy 0 p, .powerBudget 0 p, .powerQuery 0 p, .domainStateOn 0 p, .domainStateOff 0 p, .domainStateCap 0 p,
   .clusterReset 0 p, .atticReset 0 p, .cellarUReset 0 p, .cellarLReset 0 p, .towerReset 0 p, .moduleWarm 0 p, .snapshot 0 p,
   .restore 0 p, .cvuSet 0 p, .cvuGet 0 p, .scrubCtl 0 p, .inject 0 p, .telemetry 0 p, .logRead 0 p, .linkCtl 0 p, .remote 0 p]
/-- Packets of every link row. -/
def linkRows (p : LinkPkt) : List Instr :=
  [.rd ⟨0, 0⟩ p, .wr ⟨0, 0⟩ p, .wrm ⟨0, 0⟩ p, .amo ⟨0, 0⟩ p, .rdr ⟨0, 0⟩ p, .ack ⟨0, 0⟩ p, .amr ⟨0, 0⟩ p, .cmp ⟨0, 0⟩ p,
   .mnr ⟨0, 0⟩ p, .cmd ⟨0, 0⟩ p, .dbf ⟨0, 0⟩ p, .tsig ⟨0, 0⟩ p, .cfl ⟨0, 0⟩ p, .hrd ⟨0, 0⟩ p, .hwr ⟨0, 0⟩ p, .hirq ⟨0, 0⟩ p,
   .mnt ⟨0, 0⟩ p]

theorem test_wf_packets : (packetRows []).all (fun i => !i.wf) = true ∧ (packetRows [0x0001000000010000#64]).all (fun i => !i.wf) = true ∧
    (packetRows (0x10000#64 :: List.replicate 7 0#64)).all (fun i => !i.wf) = true ∧
    (packetRows (List.replicate 8 0#64)).all Instr.wf = true := by decide +kernel
theorem test_wf_links : (linkRows longLink).all (fun i => !i.wf) = true ∧ (linkRows noLink).all Instr.wf = true := by decide +kernel
/-- An operand just outside its field, for every other check. -/
theorem test_wf_operands : ([.coldReset 9999 default, .inputOvervoltage 13800 101, .inputOvervoltage 13801 100,
    .teamSuspend ⟨0, 0⟩ 8 16, .teamSuspend ⟨0, 0⟩ 0 8, .teamSuspend ⟨0, 0⟩ 16 (2 ^ 20), .shelfCacheWritebackDrop ⟨0, 0⟩ (2 ^ 57),
    .hbmRefresh 0 0 0 32, .hbmTempRead 0 (List.replicate 7 40), .flitReceive ⟨0, 0⟩ (List.replicate 255 0#8) false,
    .laneMonitorWindow ⟨0, 0⟩ 0#8 0 32, .bar2Access 0 (2 ^ 42) (.read 4), .bar2Access 0 0 (.read 0), .bar2Access 0 0 (.read 4097),
    .bar2Access 0 0 (.write []), .bar2Access 0 0 (.write (List.replicate 4097 0#8)), .phaseLost 0 1024,
    .thermalSense 0 ⟨0, 0, 0, 0, []⟩, .stagingLengthWrite (2 ^ 32), .pwrVminRead 0 1024, .readClearRegisterRead 0 0 3,
    .readClearRegisterRead 0 4 8, .registerWrite 0 0 3 0#64, .registerWrite 0 2 4 0#64, .registerWrite 0 0 4 0x100000000#64,
    .resetEnd 6 0 0, .pcieLinkUp 0 16, .pcieLinkUp 8 16, .pcieLinkUp 6 0, .pcieLinkUp 6 17, .lowHalfRead 0 4] : List Instr).all
    (fun i => !i.wf) = true := by decide +kernel

/-! ## Formats, codes and placements: the specification's examples -/

/-- Table 02-6. -/
theorem test_trits : (List.range 5).map (fun i => codeVal 9 (tritOf 0xA7 i)) = [1, 0, -1, -1, 1] ∧
    (List.range 5).map (fun i => codeVal 9 (tritOf 0xC8 i)) = [1, -1, 0, 0, 1] := by decide +kernel

/-- The Q4 block of chapter 2's example, in hundredths. -/
def blockValues : List FVal :=
  ([31, -12, 560, 5, -27, 40, -9, 18, 22, -35, 11, -2, 7, -310, 29, 14] : List Int).map fun n => .fin (decide (n < 0)) ((n : ℚ) / 100)
def blockWrite (sprout : Bool) : QAcc := quantRow ⟨7, false, sprout, false, 4, 1, 64, 0, 0, 1000, 64, false⟩ (QAcc.init []) 0 blockValues

theorem test_q4_block : (blockWrite true).elems.map Prod.snd = [0xE5#8, 0x18#8, 0x7B#8, 0x3E#8, 0xA4#8, 0x02#8, 0x81#8, 0x25#8] ∧
    (blockWrite true).scales = [(0, 0x17#8)] ∧ (blockWrite true).stream = [0x4B#8, 0xC4#8] ∧ (blockWrite true).cnt.sprouts = 2 ∧
    (blockWrite true).cnt.clips = 0 := by decide +kernel
/-- Chapter 4's example: the energy, and the noise with and without sprouts, to the digits it prints. -/
theorem test_q4_noise : (blockWrite true).cnt.energy = 416484 / 10000 ∧
    |(blockWrite true).cnt.noise - 230796 / 10000000| < 1 / 10000000 ∧ |(blockWrite false).cnt.noise - 7086 / 10000| < 1 / 10000 := by
  decide +kernel

/-- The table of R78's example, and its four packed symbols. -/
theorem test_pk1_table : (let ls := pkLengths 6 [0x32#8, 0x43#8, 0x65#8, 0x87#8, 0x87#8, 0x67#8, 0x45#8, 0x33#8]
    pkTblValid ls = true ∧ pkDecodeSyms (pkCodes ls) [0x4F#8, 0xBE#8, 0x02#8] 4 0 = some [0x5, 0xE, 0x8, 0x1]) := by decide +kernel

/-- Chapter 8's example of the byte code. -/
theorem test_byte_code : byteCode 0xA7#8 = 0x04A7#13 ∧ byteRead 0x0487#13 = ⟨0xA7#8, true, false⟩ ∧ (byteRead 0x0486#13).bad = true := by
  decide +kernel

/-- Chapter 9's example: address 0x0080_1234_5680 lies in T1's east half, set 364,609, and its place in the lower die. -/
theorem test_pantry_place : State.reset.panSet 1 0x2468AD = (1, 364609) ∧ State.reset.waySite 1 1 364609 0 = (1, 95, 7 * 2048 + 203, 0) := by
  decide +kernel
/-- Chapter 10's example: the same address lies in stack 0, pseudo-channel 52, granule 0x91A. -/
theorem test_hbm_place : hbmPlace 0x12345680 = ⟨0, 52, 0x91A, 4⟩ := by decide +kernel

/-- Words 0 and 1 of a descriptor of an M × K × N job of a shape. -/
def foldDesc (shape m k n : Nat) : List W64 :=
  BitVec.ofNat 64 (shape * 2 ^ 12 + 0x77) :: BitVec.ofNat 64 (m - 1 + (n - 1) * 2 ^ 16 + (k - 1) * 2 ^ 32) :: List.replicate 6 0#64
/-- Table 03-3. -/
theorem test_chunks : chunkCount (foldDesc 0 256 2048 512) = 4 ∧ chunkCount (foldDesc 0 16 512 1024) = 8 ∧
    chunkCount (foldDesc 3 16 512 1024) = 1 ∧
    (List.range 3).map (chunkAt (foldDesc 0 600 256 128)) = [(0, 128, 0, 256), (0, 128, 256, 256), (0, 128, 512, 88)] := by decide +kernel

/-- Chapter 7's descriptor example. -/
theorem test_nrm_descriptor : (let d := [0x0100000000131000#64, 0x3DB504F3000F0BB7#64, 0#64, 0#64, 0x0BA8#64, 0#64, 0#64, 0#64]
    nOp d = 1 ∧ nCausal d = true ∧ nTally d = 9 ∧ nRows d = 16 ∧ nN d = 3000 ∧ nBase d = 2984) := by decide +kernel
/-- Chapter 6's descriptor example. -/
theorem test_qcv_descriptor : (let d := [0x0100410083800070#64]
    qTag d = 0x41 ∧ qRole d = 0 ∧ qSprout d false = true ∧ qTally d = 7 ∧ qDst d = 7 ∧ qSrc d = 0) := by decide +kernel

/-- The results of Table 15-2 over the ASCII bytes 123456789. -/
def nineDigits : List Byte := (List.range 9).map fun i => BitVec.ofNat 8 (0x31 + i)
theorem test_check_values : (List.range 4).map (fun k => crcResult (crcCompat k) (crcRun (crcCompat k) (2 ^ (crcCompat k).w - 1) nineDigits)) =
    [0xCBF43926, 0xE3069283, 0x995DC9BBDF1939FA, 0x29B1] := by decide +kernel

/-- Chapter 12's example: the size of a SNAPSHOT image of 84 extents and two tallies. -/
theorem test_image_size : (⟨0, List.replicate 84 ⟨0#64, 10368000, false, false⟩, [(0, 0, 1), (0, 0, 2)]⟩ : SeqCtx).size = 870912832 := by
  decide +kernel

/-! ## One step -/

/-- A bunch of two active threads (0 and 2) in a team of one cluster. -/
def tm0 : Team := { (default : Team) with launch := 1, team := 2, threads := 128, alloc := 255, spillDepth := 2, tallyCount := 8, codeLen := 4096 }
def x0 : Bunch := { (default : Bunch) with run := .ready, launch := 1, m0 := 5#64, live := 5#64 }
def s0 (tm : Team) (x : Bunch) : State :=
  { State.reset with clusters := [(0, { Cluster.init with dom := .on, team := some tm })], bunches := [(0, x)] }
def th0 (tm : Team) (x : Bunch) (w : W64) : Th := ⟨⟨0, 0, 0, 0⟩, x, tm, w⟩
/-- The bunch after one step of a command at the front of the queue. -/
def after (i : Instr) (s : State) : Option Bunch :=
  match step { s with pending := [i] } with | .next u => some (u.bunch 0) | _ => none
/-- Register k of thread l after it. -/
def regAfter (i : Instr) (s : State) (k l : Nat) : Option W32 := (after i s).map fun y => y.word k 0 l
/-- The bunch with register k of thread 0 holding v. -/
def holding (k : Nat) (v : W32) : Bunch := x0.setWord k 0 0 v

theorem test_reset_idles : step State.reset = .next State.reset := rfl
/-- The words of Table 06-13: multiplication and addition of an immediate, and the reciprocal square root of 1. -/
theorem test_mul_imm : regAfter (.mul ⟨0, 0, 0, 0⟩ 0x38E38E39000A0623#64) (s0 tm0 (holding 5 0x3F800000#32)) 6 0 = some 0x38E38E39#32 := by
  decide +kernel
theorem test_add_imm : regAfter (.add ⟨0, 0, 0, 0⟩ 0x3727C5AC000C0621#64) (s0 tm0 (holding 6 0x80000000#32)) 6 0 = some 0x3727C5AC#32 := by
  decide +kernel
theorem test_rsq_one : regAfter (.rsq ⟨0, 0, 0, 0⟩ 0x000007FBFC0C0763#64) (s0 tm0 (holding 6 0x3F800000#32)) 7 0 = some 0x3F800000#32 := by
  decide +kernel
/-- WAIT.GE 6, u20 + 1 waits on tally 6 for a count of u20 + 1. -/
theorem test_wait_ge : (after (.waitGe ⟨0, 0, 0, 0⟩ 0x00000001FE5030C3#64) (s0 tm0 x0)).map (fun y => y.run) = some (.waitGe 6 1#32) := by
  decide +kernel

end Sys2Proof.Tests
end

