-- ==== Sys2Proof/Tests/WitnessThread.lean ====
section
/-! SUPPORT. For the statements about thread instructions and teams: states and operands that meet the hypotheses of each clause. -/

set_option Elab.async false

namespace Sys2Proof.Tests

open Sys2Proof Sys2Proof.Machine Sys2Proof.Claims

/-- The conditions of `Issues` on data, to be evaluated. -/
def issuesB (s : State) (h : Th) (own : List Nat) (legal : Th → Bool) : Bool :=
  decide (h.x = s.bunch (bkey h.b)) && decide ((s.clu h.b.t h.b.c).team = some h.tm) && s.canIssue h.b && decide (s.fetchFault h = none) &&
  own.contains (wOpc h.w) && legal h

theorem issues_of {s : State} {h : Th} {own : List Nat} {legal : Th → Bool} (e : issuesB s h own legal = true) : Issues s h own legal := by
  simp only [issuesB, Bool.and_eq_true, decide_eq_true_eq] at e
  exact ⟨e.1.1.1.1.1, e.1.1.1.1.2, e.1.1.1.2, e.1.1.2, e.1.2, e.2⟩

/-- The base state with another bunch or team, and a word issued in it. -/
abbrev S (x : Bunch) : State := s0 tm0 x
abbrev H (x : Bunch) (w : W64) : Th := th0 tm0 x w

/-- One legal word for each entry of `threadOps`, in its order. -/
def threadWords : List W64 :=
  [0x000007FBFC040100#64, 0x000007F80C040101#64, 0x000007F80C040102#64, 0x000007F80C040103#64, 0x000000200C040104#64,
   0x000007F80C040105#64, 0x000007F80C040106#64, 0x300007F80C040108#64, 0x300007F80C040109#64, 0x300007F80C04010A#64,
   0x300007FBFC04010B#64, 0x100007F80C04010C#64, 0x100007F80C04010D#64, 0x300007FBFC04010E#64, 0x300007FBFC04010F#64,
   0x300007FBFC040110#64, 0x304007F80C040111#64, 0x040007F80C040112#64, 0x320007F80C040113#64, 0x000007FBFC040114#64,
   0x300007FBFC04FF15#64, 0x300000200C040116#64, 0x300007F80C040117#64, 0x100007FBFC040140#64, 0x000004000C040180#64,
   0x000004000C040181#64, 0x00000403FC040182#64, 0x00000403FC040183#64, 0x000004000C040184#64, 0x0000040010040185#64,
   0x00000000000000A0#64, 0x00000040000000A1#64, 0x00000040000001A2#64, 0x00000040000001A3#64, 0x00000040000001A4#64,
   0x00000040000001A5#64, 0x00000040000001A6#64, 0x00000040000001A7#64, 0x00000000000001A8#64, 0x00000040000001A9#64,
   0x00000000000001AA#64, 0x00000000000000AB#64, 0x00000000000000AC#64, 0x000000070A1019C0#64, 0x00000001FE1018C1#64,
   0x00000000FFFC19C2#64, 0x00000001FE1018C3#64, 0x00000001FE1000C5#64, 0x00000001FE1000C6#64, 0x00000001FE1000C7#64,
   0x00000001FE1000C8#64, 0x00000000FFFC04C9#64, 0x00000000FFFC00CA#64, 0x000007FBFC040160#64, 0x000007FBFC040161#64,
   0x000007FBFC040162#64, 0x000007FBFC040163#64, 0x000007FBFC040164#64, 0x000007FBFC040165#64, 0x000007FBFC040166#64,
   0x000007FBFC040167#64, 0x000007FBFC040168#64, 0x000007FBFC040169#64, 0x000007FBFC04016A#64]
/-- Further legal words by the index of their instruction: immediates, pairs, uniforms, tz, every sub value's form. -/
def formWords : List (Nat × W64) :=
  [(1, 0x7FFFFFFF20040121#64), (1, 0x400007F818080201#64), (1, 0x500007FCEA793E01#64), (2, 0x8000000041FEFF22#64),
   (3, 0x100107F80C040103#64), (3, 0xFFFFFFFF40040123#64), (4, 0x4000004018080204#64), (5, 0x500007F818080205#64),
   (6, 0x0000000520040126#64), (0, 0x500007FBFC080200#64), (0, 0x0000000761FE0120#64), (7, 0x000000FF60040128#64),
   (8, 0x500007F818080209#64), (11, 0x500007F81808020C#64), (12, 0x000000FF2004012D#64), (16, 0x304007FC0E050111#64),
   (16, 0x500007F818080211#64), (17, 0x0000000534040732#64), (17, 0x0C0007F80C040112#64), (18, 0x0000003F60040133#64),
   (18, 0x360007F80C040113#64), (19, 0x060007FBFC040114#64), (20, 0x320007FBFC04FF15#64), (22, 0x380007FBFC040117#64),
   (22, 0x3A0007FBFC050117#64), (22, 0x3C0007FBFC050217#64), (22, 0x3E0007FBFE040117#64)]

/-- Every thread instruction issues: IntegerInstructionsCompute, FloatingPointRoundsOnce, LanesAndMasks, ConversionsAndSeeds,
SpecialFunctionsFollowTheirTables, ControlFlowAndMaskStack, ShelfAccesses, GlobalAccessesGoAndReturn, BarriersAndFences. -/
theorem witness_issues : ∀ e ∈ (threadOps ⟨0, 0, 0, 0⟩ 0#64).zip threadWords, Issues (S x0) (H x0 e.2) e.1.2.1 e.1.2.2 := by
  have h : ((threadOps ⟨0, 0, 0, 0⟩ 0#64).zip threadWords).all (fun e => issuesB (S x0) (H x0 e.2) e.1.2.1 e.1.2.2) = true := by
    decide +kernel
  intro e he
  exact issues_of (List.all_eq_true.mp h e he)
/-- The other forms issue too, and their types are types. -/
theorem witness_forms : formWords.all (fun e => match (threadOps ⟨0, 0, 0, 0⟩ 0#64)[e.1]? with
    | some o => issuesB (S x0) (H x0 e.2) o.2.1 o.2.2 && (tyOf (wType e.2)).isSome | none => false) = true := by decide +kernel

/-- FloatingPointRoundsOnce and NanResultsAreCanonical: the largest finite value, and a NaN code, of every format. -/
theorem witness_formats : (List.range 5).all (fun c => match fmtOf c with
    | some f => decide (|f.maxFin| ≤ f.maxFin) && !decide (f.maxFin < 0) && decide (f.decode f.canon = .nan) && decide (f.canon < 2 ^ f.width)
    | none => false) = true := by decide +kernel

/-- SpecialFunctionsFollowTheirTables: an instruction of the list with its formats, and the arguments of the special and exact
results at both ends. -/
theorem witness_special : (Instr.ex2 ⟨0, 0, 0, 0⟩ 0x000007FBFC040160#64, 0x60, SfuFn.ex2) ∈ sfuOps ⟨0, 0, 0, 0⟩ 0x000007FBFC040160#64 ∧
    Issues (S x0) (H x0 0x000007FBFC040160#64) [0x60] sfuLegal ∧ fmtOf (fld 0x000007FBFC040160#64 61 60) = some fmtF32 ∧
    ((300 : Int) ≠ 0 ∧ |(-300 : Int)| ≤ 300) ∧ ((-1 : ℚ) < 0) := by
  refine ⟨.head _, issues_of (by decide +kernel), by decide +kernel, by decide +kernel, by decide +kernel⟩

/-! ## Control flow and the mask stack -/

def entry (n : Nat) : MaskEnt := ⟨BitVec.ofNat 64 n, 64#32⟩
/-- A bunch with n held entries and k spilled ones. -/
def deep (n k : Nat) : Bunch := { x0 with stack := (List.range n).map entry, spilled := k }

/-- ControlFlowAndMaskStack: RET to an offset that is a multiple of 8 and to one that is not; PUSHM, ANDM and POPM on each state of
the stack; EXIT with threads left, with and without entries, and with none left. -/
theorem witness_ret : Issues (S x0) (H x0 0xA8#64) [0xA8] (cLegal okUni false) ∧ (x0.uni 0).toNat % 8 = 0 ∧
    (let x := { x0 with u := [(0, 4#32)] };
     Issues (S x) (H x 0xA8#64) [0xA8] (cLegal okUni false) ∧ (x.uni 0).toNat % 8 ≠ 0) :=
  ⟨issues_of (by decide +kernel), by decide +kernel, issues_of (by decide +kernel), by decide +kernel⟩
theorem witness_pushm : (∀ n k : Nat, (n, k) ∈ [(0, 0), (15, 0), (16, 0), (16, 1), (16, 2)] →
      Issues (S (deep n k)) (H (deep n k) 0x00000040000001A9#64) [0xA9] (cLegal okMask true)) ∧
    (deep 15 0).stack.length < 16 ∧ 16 ≤ (deep 16 1).stack.length ∧ (deep 16 1).spilled < tm0.spillDepth ∧ tm0.spillDepth ≤ (deep 16 2).spilled := by
  refine ⟨?_, by decide +kernel, by decide +kernel, by decide +kernel, by decide +kernel⟩
  intro n k h
  simp only [List.mem_cons, Prod.mk.injEq, List.mem_nil_iff, or_false] at h
  rcases h with ⟨rfl, rfl⟩ | ⟨rfl, rfl⟩ | ⟨rfl, rfl⟩ | ⟨rfl, rfl⟩ | ⟨rfl, rfl⟩ <;> exact issues_of (by decide +kernel)
theorem witness_popm : Issues (S (deep 1 0)) (H (deep 1 0) 0xAB#64) [0xAB] (cLegal kNone false) ∧
    Issues (S (deep 16 1)) (H (deep 16 1) 0xAB#64) [0xAB] (cLegal kNone false) ∧ Issues (S x0) (H x0 0xAB#64) [0xAB] (cLegal kNone false) ∧
    Issues (S (deep 1 0)) (H (deep 1 0) 0x1AA#64) [0xAA] (cLegal okMask false) ∧ (deep 1 0).spilled = 0 ∧ 0 < (deep 16 1).spilled ∧ x0.stack = [] :=
  ⟨issues_of (by decide +kernel), issues_of (by decide +kernel), issues_of (by decide +kernel), issues_of (by decide +kernel), rfl,
    by decide +kernel, rfl⟩
theorem witness_exit : (let x := { deep 1 0 with live := 7#64 };
      Issues (S x) (H x 0xAC#64) [0xAC] (cLegal kNone false) ∧ x.live &&& ~~~x.m0 ≠ 0#64 ∧ x.stack ≠ []) ∧
    (let x := { x0 with live := 7#64 };
      Issues (S x) (H x 0xAC#64) [0xAC] (cLegal kNone false) ∧ x.live &&& ~~~x.m0 ≠ 0#64 ∧ x.stack = []) ∧
    Issues (S x0) (H x0 0xAC#64) [0xAC] (cLegal kNone false) ∧ x0.live &&& ~~~x0.m0 = 0#64 ∧
    tm0.retired.length + 1 ≠ tm0.team ∧
    (let tm := { tm0 with retired := [1] };
      Issues (s0 tm x0) (th0 tm x0 0xAC#64) [0xAC] (cLegal kNone false) ∧ tm.retired.length + 1 = tm.team) :=
  ⟨⟨issues_of (by decide +kernel), by decide +kernel, by decide +kernel⟩, ⟨issues_of (by decide +kernel), by decide +kernel, rfl⟩,
    issues_of (by decide +kernel), by decide +kernel, by decide +kernel, issues_of (by decide +kernel), by decide +kernel⟩

/-! ## Accesses -/

/-- The state with shelf cells of cluster (0, 0) from offset 0 on. -/
def cells (bs : List (BitVec 13)) (s : State) : State := { s with mem := { s.mem with shelf := bs.zipIdx.map fun e => (e.2, e.1) } }
/-- Words of a descriptor as shelf cells. -/
def words (ws : List W64) : List (BitVec 13) := ws.flatMap fun w => (leBytes 8 w.toNat).map byteCode
/-- A bunch whose threads 0 and 2 hold v in register 2. -/
def pointing (v : W32) : Bunch := (x0.setWord 2 0 0 v).setWord 2 0 2 v

def ldsWord : W64 := 0x00000403FC040180#64
def stsWord : W64 := 0x00000403FC040181#64
def amsWord : W64 := 0x000004000C040184#64
/-- ShelfAccesses: inside at the last word of the shelf, beyond it by one byte, and onto an uncorrectable byte. -/
theorem witness_lds : (let h := H (pointing 0xFFFFC#32) ldsWord;
      Issues (S h.x) h [0x80] (ldLegal false) ∧ (∀ l ∈ runLanes h.x (wD h.w), shelfAddr h true l + accessBytes h ≤ (S h.x).direct 0 0) ∧
      ∀ l ∈ runLanes h.x (wD h.w), ∀ i, i < accessBytes h → isBad (shelfByte (S h.x) 0 0 (shelfAddr h true l + i)) = false) ∧
    (let h := H (pointing 0xFFFFD#32) ldsWord;
      Issues (S h.x) h [0x80] (ldLegal false) ∧ ¬ ∀ l ∈ runLanes h.x (wD h.w), shelfAddr h true l + accessBytes h ≤ (S h.x).direct 0 0) ∧
    (let h := H x0 ldsWord;
      let s := cells [0#13, 0x1FFF#13 ^^^ 0x0300#13, 0#13, poisonCode 7#8] (S x0);
      Issues s h [0x80] (ldLegal false) ∧ (∀ l ∈ runLanes h.x (wD h.w), shelfAddr h true l + accessBytes h ≤ s.direct 0 0) ∧
      ∃ l ∈ runLanes h.x (wD h.w), ∃ i ∈ List.range (accessBytes h), isBad (shelfByte s 0 0 (shelfAddr h true l + i)) = true) := by
  refine ⟨⟨issues_of (by decide +kernel), by decide +kernel, by decide +kernel⟩, ⟨issues_of (by decide +kernel), by decide +kernel⟩,
    issues_of (by decide +kernel), by decide +kernel, by decide +kernel⟩
theorem witness_sts : (let h := H (pointing 0xFFFFC#32) stsWord;
      Issues (S h.x) h [0x81] (stLegal false) ∧ ∀ l ∈ activeLanes h.x, shelfAddr h true l + accessBytes h ≤ (S h.x).direct 0 0) ∧
    (let h := H (pointing 0xFFFFD#32) stsWord;
      Issues (S h.x) h [0x81] (stLegal false) ∧ ¬ ∀ l ∈ activeLanes h.x, shelfAddr h true l + accessBytes h ≤ (S h.x).direct 0 0) :=
  ⟨⟨issues_of (by decide +kernel), by decide +kernel⟩, issues_of (by decide +kernel), by decide +kernel⟩
theorem witness_atoms : (let h := H (pointing 0xFFFFC#32) amsWord;
      Issues (S h.x) h [0x84] (amLegal false) ∧ (∀ l ∈ runLanes h.x (wD h.w), shelfAddr h false l + accessBytes h ≤ (S h.x).direct 0 0) ∧
      (∀ l ∈ runLanes h.x (wD h.w), ∀ i, i < accessBytes h → isBad (shelfByte (S h.x) 0 0 (shelfAddr h false l + i)) = false) ∧
      ¬ ∃ off, flipArmed (S h.x) 0 0 off) := by
  refine ⟨issues_of (by decide +kernel), by decide +kernel, by decide +kernel, ?_⟩
  rintro ⟨off, h, -⟩
  exact absurd h (by decide +kernel)

/-- Two threads that point at the two ends of the same line, and one that points into its own shelf. -/
def globalAt (a : W64) : Bunch := (((x0.setWord 2 0 0 (a.truncate 32)).setWord 3 0 0 ((a >>> 32).truncate 32)).setWord 2 0 2 (a.truncate 32)).setWord 3 0 2
  ((a >>> 32).truncate 32)
def ldgWord : W64 := 0x00000403FC040182#64
def stgWord : W64 := 0x00000403FC040183#64
def atmWord : W64 := 0x0000040010040185#64
def nearAt (s : State) (a : Nat) : Bool := match s.home 0 (BitVec.ofNat 64 a) with | .remote _ _ => false | .held => false | _ => true
theorem near_of {s : State} {a : Nat} (e : nearAt s a = true) :
    (∀ m x, s.home 0 (BitVec.ofNat 64 a) ≠ .remote m x) ∧ s.home 0 (BitVec.ofNat 64 a) ≠ .held := by
  unfold nearAt at e
  constructor <;> intros <;> intro h <;> rw [h] at e <;> cases e
/-- GlobalAccessesGoAndReturn: an LDG whose bytes are at hand, in its own shelf; one that misses, in the tower's HBM. -/
theorem witness_ldg : (let h := H (globalAt 0x110000000000#64) ldgWord;
      Issues (S h.x) h [0x82] (ldLegal true) ∧ missing h (S h.x) (runLanes h.x (wD h.w)) = [] ∧ (S h.x).reqs = [] ∧
      ∀ l ∈ runLanes h.x (wD h.w), ∀ i, i < 4 → atHand (S h.x) h (0x110000000000 + i) = some 0#9) ∧
    (let h := H (globalAt 124#64) ldgWord;
      Issues (S h.x) h [0x82] (ldLegal true) ∧ missing h (S h.x) (runLanes h.x (wD h.w)) ≠ [] ∧
      (missing h (S h.x) (runLanes h.x (wD h.w))).all (fun p => nearAt (S h.x) p.1) = true) :=
  ⟨⟨issues_of (by decide +kernel), by decide +kernel, rfl, by decide +kernel⟩, issues_of (by decide +kernel), by decide +kernel, by decide +kernel⟩
/-- A store over two lines, and an atomic. -/
theorem witness_stg : (let h := H (globalAt 126#64) stgWord;
      Issues (S h.x) h [0x83] (stLegal true) ∧ h.tm.cacheKib = 0 ∧ pieces 3 126 (accessBytes h) = [(126, 2), (128, 2)] ∧
      (pieces 3 126 (accessBytes h)).all (fun p => nearAt (S h.x) p.1 && decide ((S h.x).ownShelf h.b p.1 = none)) = true) ∧
    (let h := H (globalAt 128#64) atmWord;
      Issues (S h.x) h [0x85] (amLegal true) ∧ runLanes h.x (wD h.w) ≠ [] ∧ nearAt (S h.x) 128 = true ∧
      (S h.x).onePlace 0 128 (accessBytes h) = true ∧ (pieces 2 128 (accessBytes h)).all (fun p => decide ((S h.x).cached 0 0 (p.1 / 128) = none)) = true) :=
  ⟨⟨issues_of (by decide +kernel), rfl, by decide +kernel, by decide +kernel⟩, issues_of (by decide +kernel), by decide +kernel, by decide +kernel,
    by decide +kernel, by decide +kernel⟩
/-- The accesses of a waiting LDG or ATOM of one thread, the last of them back with its data. -/
def waitsFor (w : W64) (a : W64) : Bunch := { (globalAt a) with m0 := 1#64, run := .waitAccess, inst := some w }
def lastBack (op : ReqOp) : Req := ⟨7, 124#64, op, 4, .bunch 0, 0, .done, none, 0, [1#9, 2#9, 3#9, 4#9], 0⟩
theorem witness_return : (let x := waitsFor ldgWord 124#64;
      let s := { S x with reqs := [lastBack (.load 4)] };
      let h := H x ldgWord;
      h.x = s.bunch (bkey h.b) ∧ (s.clu 0 0).team = some h.tm ∧ h.x.inst = some h.w ∧ (lastBack (.load 4)).op.blocks = true ∧
      wOpc h.w = 0x82 ∧ ldLegal true h = true ∧ h.tm.cacheKib = 0 ∧ runLanes h.x (wD h.w) = [0] ∧
      (List.range 4).all (fun i => (s.ownShelf h.b (124 + i)).isNone && decide (cameBack s.reqs (124 + i) = some (BitVec.ofNat 9 (i + 1)))) = true) ∧
    (let x := waitsFor atmWord 124#64;
      let h := H x atmWord;
      wOpc h.w = 0x85 ∧ amLegal true h = true ∧ (runLanes h.x (wD h.w)).length = 1 ∧ (lastBack (.atomic 0 0 4 0#64 0#64)).op.blocks = true) := by
  decide +kernel
end Sys2Proof.Tests
end

