-- ==== Sys2Proof/Tests/WitnessTeams.lean ====
section
/-! SUPPORT. For the statements about tallies, barriers, fences, engine instructions, faults, launches and teams: states that meet
the hypotheses of each clause. -/

set_option Elab.async false

namespace Sys2Proof.Tests

open Sys2Proof Sys2Proof.Machine Sys2Proof.Claims

/-! ## Tallies -/

theorem windowed_iff (h : Th) (n : Nat) : windowed h n ↔ h.tm.tallyBase ≤ n ∧ n < h.tm.tallyBase + h.tm.tallyCount ∧ n ≤ 127 := Iff.rfl

def setOp : (Th → Bool) := sLegal true true true (atMost 1) any_ any_
def arriveOp : (Th → Bool) := sLegal true false true zero_ any_ any_
def phOp : (Th → Bool) := sLegal false false false (atMost 1) any_ zero_
def geOp : (Th → Bool) := sLegal true false true zero_ any_ any_
/-- TalliesCountAndRelease and ArmedTalliesComplete: each instruction on the window's last tally (7) and on the next (8), and a
WAIT.PH and a WAIT.GE of each outcome. -/
theorem witness_tally_words : [(0xC0, setOp, 0x000000070A1039C0#64, 7), (0xC0, setOp, 0x000000070A1041C0#64, 8), (0xC1, arriveOp, 0x00000001FE1038C1#64, 7)
    , (0xC1, arriveOp, 0x00000001FE1040C1#64, 8), (0xC2, phOp, 0x00000000FFFC38C2#64, 7), (0xC2, phOp, 0x00000000FFFC39C2#64, 7)
    , (0xC2, phOp, 0x00000000FFFC41C2#64, 8), (0xC3, geOp, 0x00000000FFFC38C3#64, 7), (0xC3, geOp, 0x00000001FFFC38C3#64, 7)
    , (0xC3, geOp, 0x00000001FE1040C3#64, 8)].all (fun e => issuesB (S x0) (H x0 e.2.2.1) [e.1] e.2.1 && fld e.2.2.1 17 11 == e.2.2.2 &&
      (decide (e.2.2.2 < tm0.tallyBase + tm0.tallyCount) == decide (e.2.2.2 = 7))) = true := by decide +kernel
/-- A cluster with a tally at a state. -/
def withTally (n : Nat) (y : Tally) (s : State) : State := s.modClu 0 0 fun x => { x with tallies := SMap.put default x.tallies n y }
def waitsPh : Bunch := { x0 with run := .waitPh 3 false }
def waitsGe (v : W32) : Bunch := { x0 with run := .waitGe 3 v }
theorem witness_waits : (tm0.stopped = false ∧ ((S waitsPh).clu 0 0).team = some tm0) ∧ ((S waitsPh).tally 0 0 3).phase = false ∧
    ((S waitsPh).tally 0 0 3).phase ≠ true ∧ (0#32).toNat ≤ ((S (waitsGe 0#32)).tally 0 0 3).count.toNat ∧
    ¬ (1#32).toNat ≤ ((S (waitsGe 1#32)).tally 0 0 3).count.toNat ∧
    ((withTally 3 ⟨5#32, 5#32, false, true, false, false⟩ (S x0)).tally 0 0 3).auto = true := by decide +kernel
theorem witness_mmio : State.reset.mmioOpen 0 0 = true ∧ State.reset.mmioOpen 3 (127 * 0x100000) = true ∧ State.reset.mmioOpen 0 0x10000000 = true := by
  decide +kernel

/-! ## Barriers and fences -/

def barOp : (Th → Bool) := sLegal false false false (atMost 1) (atMost 15) zero_
def inBar (n : Nat) (ids : List Nat) (s : State) : State :=
  s.modClu 0 0 fun x => { x with bars := SMap.put [] x.bars n ids, barSince := SMap.put 0 x.barSince n 1 }
/-- BarriersAndFences: BAR with a mask unlike the live mask; one that waits; the last arrival, of bunch 0 after bunch 1, of a
partial BAR. -/
theorem witness_bar : (let x := { x0 with live := 7#64 };
      Issues (S x) (H x 0x00000000FFFC18C4#64) [0xC4] barOp ∧ x.m0 ≠ x.live ∧ bit 0x00000000FFFC18C4#64 8 = false ∧
      SMap.get [] ((S x).clu 0 0).bars 3 = []) ∧
    (Issues (S x0) (H x0 0x00000000FFFC18C4#64) [0xC4] barOp ∧ x0.m0 = x0.live ∧ 0 + 1 ≠ tm0.team - tm0.retired.length) ∧
    (let s := inBar 15 [1] (S { x0 with live := 7#64 });
      Issues s (H { x0 with live := 7#64 } 0x00000000FFFC79C4#64) [0xC4] barOp ∧ bit 0x00000000FFFC79C4#64 8 = true ∧
      SMap.get [] (s.clu 0 0).bars 15 = [1] ∧ 1 + 1 = tm0.team - tm0.retired.length ∧ ([1] ++ [x0.idx]).Nodup ∧ slotOf 0 0 x0.idx = 0 ∧
      SMap.get [] (s.clu 0 0).bars 3 = []) :=
  ⟨⟨issues_of (by decide +kernel), by decide +kernel, by decide +kernel, by decide +kernel⟩,
    ⟨issues_of (by decide +kernel), by decide +kernel, by decide +kernel⟩,
    issues_of (by decide +kernel), by decide +kernel, by decide +kernel, by decide +kernel, by decide +kernel, by decide +kernel, by decide +kernel⟩
theorem witness_bar_timeout : (let tm := { tm0 with barTimeout := 1 };
    let s := (inBar 15 [0, 1] (s0 tm x0)).modTower 0 fun w => { w with stamp := 171#64 };
    (s.clu 0 0).team = some tm ∧ tm.stopped = false ∧ SMap.get [] (s.clu 0 0).bars 15 = [0, 1] ∧
    tm.barTimeout * 1024 ≤ 6 * (s.stamp 0 + 1 - SMap.get 0 (s.clu 0 0).barSince 15)) := by decide +kernel
/-- A FENCE with nothing in flight, and one with an access of its bunch in flight. -/
theorem witness_fence : [0x00000000FFFC00C9#64, 0x00000000FFFC04C9#64].all (fun w =>
      issuesB (S x0) (H x0 w) [0xC9] (sLegal false false false (atMost 4) zero_ zero_)) = true ∧ ((S x0).clu 0 0).cache = [] ∧
      fld 0x00000000FFFC00C9#64 10 8 ≠ 4 ∧ fld 0x00000000FFFC04C9#64 10 8 = 4 ∧
    (let s := { S x0 with reqs := [lastBack (.store [])] };
      issuesB s (H x0 0x00000000FFFC00C9#64) [0xC9] (sLegal false false false (atMost 4) zero_ zero_) = true ∧
      ∃ r ∈ s.reqs, r.owner = .bunch (bkey ⟨0, 0, 0, 0⟩)) := by decide +kernel

/-! ## Engines -/

/-- Descriptors at shelf offset 0: a BF16 job of 1 × 16 × 1, a QCV of four F32 elements to Q8, an HXF of one row of 64 bytes from
the cluster's own bay, an NRM of a row of four F32 elements; each names tally 3. -/
def mxdDesc : List W64 := [0x0300000300000011#64, 0x0000000F00000000#64, 0x400000010#64, 0x400000020#64, 0x100030#64, 0#64, 0#64, 0#64]
def qcvDesc : List W64 := [0x0100000001800050#64, 0x3F80000000000003#64, 0x400000010#64, 0x400000020#64, 0#64, 0#64, 0#64, 0#64]
def hxfDesc : List W64 := [0x0100800001800000#64, 0x3F#64, 0x100000000000#64, 0x100010#64, 0x40#64, 0#64, 0#64, 0#64]
def nrmDesc : List W64 := [0x0100000000061000#64, 0x3F80000000000003#64, 0x400000010#64, 0x30#64, 0#64, 0#64, 0#64, 0#64]
def checksB (s : State) (h : Th) (ok : List W64 → Bool) (tally : List W64 → Nat) (inside : List W64 → Nat → Bool) : Bool :=
  decide ((h.x.uni (fld h.w 24 18)).toNat % 64 = 0) && decide ((h.x.uni (fld h.w 24 18)).toNat + 64 * fld h.w 63 32 ≤ s.direct h.b.t h.b.c) &&
  (List.range (64 * fld h.w 63 32)).all (fun i => !isBad (shelfByte s h.b.t h.b.c ((h.x.uni (fld h.w 24 18)).toNat + i))) &&
  (descList s h).all (fun d => ok d.2 && decide (h.tm.tallyBase ≤ tally d.2 ∧ tally d.2 < h.tm.tallyBase + h.tm.tallyCount ∧ tally d.2 ≤ 127) &&
    inside d.2 (s.direct h.b.t h.b.c))
theorem checks_of {s : State} {h : Th} {ok : List W64 → Bool} {tally : List W64 → Nat} {inside : List W64 → Nat → Bool}
    (e : checksB s h ok tally inside = true) : EngineChecks s h ok tally inside := by
  simp only [checksB, Bool.and_eq_true, decide_eq_true_eq, List.all_eq_true, List.mem_range, Bool.not_eq_true'] at e
  obtain ⟨⟨⟨ha, hb⟩, hd⟩, hl⟩ := e
  exact ⟨ha, hb, hd, fun d m => (hl d m).1.1, fun d m => (hl d m).1.2, fun d m => (hl d m).2⟩

def mxdState : State := cells (words mxdDesc) (S x0)
/-- EngineInstructionsEnqueueJobs: a mask unlike the live mask; each list of one descriptor that passes every check, with the
queues empty and full. -/
theorem witness_mxd : (let x := { x0 with live := 7#64 }; Issues (S x) (H x 0x00000001FE1000C5#64) [0xC5] eLegal ∧ x.m0 ≠ x.live) ∧
    Issues mxdState (H x0 0x00000001FE1000C5#64) [0xC5] eLegal ∧ x0.m0 = x0.live ∧
    EngineChecks mxdState (H x0 0x00000001FE1000C5#64) (fun d => descOk d (mxdState.jobEsc 0 d)) dTally
      (fun d lim => descInside d (mxdState.jobEsc 0 d) lim) ∧
    (mxdState.clu 0 0).arr.queue.length + (mxdState.clu 0 0).arr.runs + 1 ≤ 32 :=
  ⟨⟨issues_of (by decide +kernel), by decide +kernel⟩, issues_of (by decide +kernel), rfl, checks_of (by decide +kernel), by decide +kernel⟩
def full : State :=
  (mxdState.modArr 0 0 fun a => { a with queue := List.replicate 32 ⟨mxdDesc, 0, 1, false⟩ }).modClu 0 0 fun x =>
    { x with hatchQ := List.replicate 32 ⟨hxfDesc, 0, 1, 0⟩, nrmQ := List.replicate 16 ⟨nrmDesc, 0, 1, 0⟩ }
theorem witness_mxd_full : Issues full (H x0 0x00000001FE1000C5#64) [0xC5] eLegal ∧
    EngineChecks full (H x0 0x00000001FE1000C5#64) (fun d => descOk d (full.jobEsc 0 d)) dTally (fun d lim => descInside d (full.jobEsc 0 d) lim) ∧
    32 < (full.clu 0 0).arr.queue.length + (full.clu 0 0).arr.runs + 1 :=
  ⟨issues_of (by decide +kernel), checks_of (by decide +kernel), by decide +kernel⟩
theorem witness_hxf : (let s := cells (words hxfDesc) (S x0); Issues s (H x0 0x00000001FE1000C6#64) [0xC6] eLegal ∧
      EngineChecks s (H x0 0x00000001FE1000C6#64) (fun d => s.hxfOk 0 d) xTally hxfInside ∧
      (s.clu 0 0).hatchQ.length + (s.clu 0 0).hatchRun.length + 1 ≤ 32) ∧
    (let s := cells (words hxfDesc) full; Issues s (H x0 0x00000001FE1000C6#64) [0xC6] eLegal ∧
      EngineChecks s (H x0 0x00000001FE1000C6#64) (fun d => s.hxfOk 0 d) xTally hxfInside ∧
      32 < (s.clu 0 0).hatchQ.length + (s.clu 0 0).hatchRun.length + 1) :=
  ⟨⟨issues_of (by decide +kernel), checks_of (by decide +kernel), by decide +kernel⟩,
    issues_of (by decide +kernel), checks_of (by decide +kernel), by decide +kernel⟩
theorem witness_qcv : (let s := cells (words qcvDesc) (S x0); Issues s (H x0 0x00000001FE1000C7#64) [0xC7] eLegal ∧
      EngineChecks s (H x0 0x00000001FE1000C7#64) (fun d => qcvOk d (s.qEsc 0 d)) qTally (fun d lim => qcvInside d (s.qEsc 0 d) lim) ∧
      (s.te 0 0 0).qcv.length + (if (s.te 0 0 0).qcvRun.isSome then 1 else 0) + 1 ≤ 16) ∧
    (let s := (cells (words qcvDesc) (S x0)).modTe 0 0 0 fun y => { y with qcv := List.replicate 15 ⟨qcvDesc, 0, 1, 0⟩, qcvRun := some ⟨qcvDesc, 0, 1, 0⟩ };
      Issues s (H x0 0x00000001FE1000C7#64) [0xC7] eLegal ∧
      EngineChecks s (H x0 0x00000001FE1000C7#64) (fun d => qcvOk d (s.qEsc 0 d)) qTally (fun d lim => qcvInside d (s.qEsc 0 d) lim) ∧
      16 < (s.te 0 0 0).qcv.length + (if (s.te 0 0 0).qcvRun.isSome then 1 else 0) + 1) :=
  ⟨⟨issues_of (by decide +kernel), checks_of (by decide +kernel), by decide +kernel⟩,
    issues_of (by decide +kernel), checks_of (by decide +kernel), by decide +kernel⟩
theorem witness_nrm : (let s := cells (words nrmDesc) (S x0); Issues s (H x0 0x00000001FE1000C8#64) [0xC8] eLegal ∧
      EngineChecks s (H x0 0x00000001FE1000C8#64) nrmOk nTally nrmInside ∧ (s.clu 0 0).nrmQ.length + (if (s.clu 0 0).nrmRun.isSome then 1 else 0) + 1 ≤ 16) ∧
    (let s := cells (words nrmDesc) full; Issues s (H x0 0x00000001FE1000C8#64) [0xC8] eLegal ∧
      EngineChecks s (H x0 0x00000001FE1000C8#64) nrmOk nTally nrmInside ∧ 16 < (s.clu 0 0).nrmQ.length + (if (s.clu 0 0).nrmRun.isSome then 1 else 0) + 1) :=
  ⟨⟨issues_of (by decide +kernel), checks_of (by decide +kernel), by decide +kernel⟩,
    issues_of (by decide +kernel), checks_of (by decide +kernel), by decide +kernel⟩

/-! ## Faults -/

/-- IllegalWordsAndBunchFaults: a bunch that cannot issue; a pc at the end of the code; code that is poisoned; an illegal field;
an opcode of no instruction; a TE without and with a recorded fault. -/
def badCode : State := { S x0 with mem := { (S x0).mem with hbm := [(0, ⟨0#256, hbmCheck 0#256, true⟩)] } }
/-- A bunch whose code lies in the HBM of tower 1, which is in TOWER reset; `since` is when its fetch was first held. -/
def heldCode (since now : Nat) : State :=
  (((s0 { tm0 with codeBase := 2 ^ 39 } x0).modTower 1 fun w => { w with inTower := true }).modTower 0 fun w =>
    { w with stamp := BitVec.ofNat 64 now }).modClu 0 0 fun x => { x with fetchAt := SMap.put 0 x.fetchAt 0 since }
theorem witness_held_fetch : (∀ e ∈ [(0, 5), (3, 2000001), (3, 2000002)], (heldCode e.1 e.2).fetchHeld ⟨0, 0, 0, 0⟩ = true ∧
      ((heldCode e.1 e.2).clu 0 0).team = some { tm0 with codeBase := 2 ^ 39 } ∧ (heldCode e.1 e.2).bunch 0 = x0 ∧
      SMap.get 0 ((heldCode e.1 e.2).clu 0 0).fetchAt 0 = e.1 ∧ (heldCode e.1 e.2).stamp 0 = e.2) ∧
    (S { x0 with run := .faulted }).fetchHeld ⟨0, 0, 0, 0⟩ = false := by decide +kernel
theorem witness_illegal : (Instr.mov ⟨0, 0, 0, 0⟩ 0#64, [0x00, 0x20], movLegal) ∈ threadOps ⟨0, 0, 0, 0⟩ 0#64 ∧
    (S { x0 with run := .faulted }).canIssue ⟨0, 0, 0, 0⟩ = false ∧
    (let x := { x0 with pc := 4096#32 }; (S x).canIssue ⟨0, 0, 0, 0⟩ = true ∧ tm0.codeLen ≤ x.pc.toNat) ∧
    (badCode.canIssue ⟨0, 0, 0, 0⟩ = true ∧ x0.pc.toNat < tm0.codeLen ∧ badCode.codeBad 0 (BitVec.ofNat 64 (tm0.codeBase + x0.pc.toNat)) = true) ∧
    ((S x0).canIssue ⟨0, 0, 0, 0⟩ = true ∧ (S x0).fetchFault (H x0 0#64) = none ∧ [0x00, 0x20].contains (wOpc 0x700007FBFC040100#64) = true ∧
      movLegal (H x0 0x700007FBFC040100#64) = false) ∧ fld 0x07#64 7 0 = 0x07 ∧
    bit ((S x0).reg ⟨.teFault, 0, 0, 0, 0⟩) 63 = false ∧ bit (((S x0).bunchFault ⟨0, 0, 0, 0⟩ ⟨.tallyRange, 63, 0⟩).reg ⟨.teFault, 0, 0, 0, 0⟩) 63 = true := by
  refine ⟨?_, by decide +kernel, by decide +kernel, by decide +kernel, by decide +kernel, by decide +kernel, by decide +kernel, by decide +kernel⟩
  exact List.mem_append_left _ (.head _)

/-! ## Launches and teams -/

def pk (op : Nat) : Pkt := { (default : Pkt) with id := 1, words := BitVec.ofNat 64 op :: List.replicate 7 0#64, begun := true }
def la : Launch := { (default : Launch) with id := 1, clusters := [0, 511] }
def launched (l : Launch) : State :=
  { State.reset with mod := { State.reset.mod with launches := [l] }, queues := [(0, { (default : Queue) with running := [pk 0x20] })] }
/-- BunchesStartAndLaunchesEnd: a placed bunch; a launch at its end without and with a fault. -/
theorem witness_launch : (let s := S { x0 with run := .placed };
      (s.clu 0 0).team = some tm0 ∧ tm0.stopped = false ∧ (s.bunch 0).run = .placed ∧ tm0.args.length ≤ 16) ∧
    (let s := launched la;
      s.launch? 1 = some la ∧ s.running? 1 = some (0, pk 0x20) ∧ (pk 0x20).status = okStatus (pk 0x20).clamp ∧ (pk 0x20).detail = 0 ∧
      (∀ c ∈ la.clusters, c < 512) ∧ s.jobsLeft 1 = false ∧ s.backsLeft 1 = false ∧ s.issuedLeft la = false ∧ la.fault = none ∧ s.teamsLeft 1 = false) ∧
    (let l := { la with fault := some (5, 7) };
      let s := launched l;
      s.launch? 1 = some l ∧ s.running? 1 = some (0, pk 0x20) ∧ s.jobsLeft 1 = false ∧ s.backsLeft 1 = false ∧ s.issuedLeft l = false ∧
      s.clusters = []) := by decide +kernel
/-- SuspendedTeamsAndFailedWriteBacks: a team with a bunch at a wait and the whole shelf saved; write-backs of an unmapped home, of a
lost one, and of one held for 10 ms. -/
def back (a : W64) (h : Option Nat) : Req := ⟨7, a, .store [], 4, .writeBack 0 0 1, 0, .issued, h, 0, [], 0⟩
theorem witness_suspend : (let s := S waitsPh;
      (s.clu 0 0).team = some tm0 ∧ (List.range 64).all (fun k => decide ((s.bunch (bunchKey 0 0 (k / 16) (k % 16))).run ≠ .waitAccess)) = true ∧
      0 + 2 ^ 20 ≤ 2 ^ 20 ∧ (s.clu 0 0).cache = [] ∧ (s.clu 0 0).saved = [] ∧ (s.clu 0 0).absent = false ∧ (s.clu 0 0).dom = .on) ∧
    (let s := { S x0 with reqs := [back 0x020000000000#64 none] };
      s.reqs.filter (fun x => x.addr.toNat / 128 = 0x400000000) = [back 0x020000000000#64 none] ∧
      s.home 0 0x020000000000#64 = .unmapped ∧ (List.range 64).all (fun k => decide ((s.bunch (bunchKey 0 0 (k / 16) (k % 16))).inst = none)) = true) ∧
    (let s := (S x0).modTower 1 fun w => { w with fence := 1 }; s.home 0 0x008000000000#64 = .lost) ∧
    (let s := ((S x0).modTower 1 fun w => { w with inTower := true }).modTower 0 fun w => { w with stamp := 2000005#64 };
      s.home 0 0x008000000000#64 = .held ∧ (back 0x008000000000#64 (some 5)).held = some 5 ∧ 5 + 2000000 ≤ s.stamp 0) := by decide +kernel

end Sys2Proof.Tests
end

