-- ==== Sys2Proof/Tests/WitnessEngines.lean ====
section
/-! SUPPORT. For the statements about the array, the engines, LAUNCH and the guard: states that meet the hypotheses of each clause,
in which the command acts. -/

set_option Elab.async false

namespace Sys2Proof.Tests

open Sys2Proof Sys2Proof.Machine Sys2Proof.Claims

/-- A command changes the state. -/
def acts (i : Instr) (s : State) : Bool := match exec i s with | .next u => decide (u ≠ s) | _ => false

/-! ## The array -/

def job0 : Job := ⟨mxdDesc, 0, 1, false⟩
def grantOf (req dom cur : Nat) : Grant := ⟨{ (default : GrantReq) with requester := BitVec.ofNat 12 req, domain := BitVec.ofNat 10 dom, current := BitVec.ofNat 16 cur }, cur⟩
/-- Cluster (0, 0) awake with an array, holding a grant for bin 0. -/
def arrayState (a : Arr) : State :=
  ((S x0).modArr 0 0 fun _ => a).modTower 0 fun w => { w with on := true, grants := [grantOf (binReq 0 0) ((S x0).phys 0 0) 65535] }
def idle (m : ArrMode) (k : Nat) : Bin := { (default : Bin) with mode := m, step := k }
def runsJob (n : Nat) : Bin := { (default : Bin) with run := some ⟨job0, n, false⟩, mode := .run }
def arr0 (b : Bin) (duty : Nat) : Arr := { Cluster.init.arr with queue := [job0], bins := [(0, b)], duty := duty }
/-- JobsStartAndArraysRamp: a job on a gated bin, on one in its ramp-down and on one that runs filler, and with a commit pending. -/
theorem witness_job_start : [(idle .gated 0, 0), (idle .rampDown 15, 1), (idle .filler 0, 16)].all (fun e =>
      let s := arrayState (arr0 e.1 e.2);
      !(s.clu 0 0).absent && decide ((s.clu 0 0).dom = .on) && (s.bin 0 0 0).run.isNone && decide (job0.conf = ((s.clu 0 0).arr.shape, (s.clu 0 0).arr.binsLog2)) &&
      decide (dBin job0.words = 0) && (match s.held 0 (binReq 0 0) with
        | some g => decide (g.req.domain.toNat = s.phys 0 0) && decide (s.jobCurrent job0 ≤ g.req.current.toNat) | none => false) &&
      !s.flag arrCommitPending 0 0 && acts (.jobStart ⟨0, 0⟩ 0) s) = true ∧
    ((arrayState (arr0 (idle .gated 0) 0)).setReg ⟨.arrCommit, 0, 0, 0, 0⟩ 2#64).flag arrCommitPending 0 0 = true := by decide +kernel
theorem witness_reshape : (let a := { arr0 (idle .gated 0) 0 with binsLog2 := 1 };
      job0.conf ≠ (a.shape, a.binsLog2) ∧ (∀ b ∈ a.bins, b.2.run = none) ∧ acts (.reshape ⟨0, 0⟩) (arrayState a) = true) ∧
    (let a := { arr0 (runsJob 0) 0 with binsLog2 := 1 }; ∃ b ∈ a.bins, b.2.run ≠ none) := by decide +kernel
theorem witness_ramps : (idle .filler 0).run = none ∧ acts (.fillerWindowExpire ⟨0, 0⟩ 0) (arrayState (arr0 (idle .filler 0) 4)) = true ∧
    acts (.rampDownStep ⟨0, 0⟩ 0) (arrayState (arr0 (idle .rampDown 15) 4)) = true ∧
    acts (.rampDownStep ⟨0, 0⟩ 0) (arrayState (arr0 (idle .rampDown 16) 4)) = true ∧
    (let s := arrayState (arr0 (runsJob 0) 0); (∃ e ∈ (s.clu 0 0).arr.bins, e.2.run ≠ none) ∧ (s.clu 0 0).arr.duty < min 16 (s.ceiling 0 0) ∧
      acts (.rampUpStep ⟨0, 0⟩) s = true) := by decide +kernel
/-- ChunksDrainAndJobsArrive: a chunk of a job of BF16 ones, and the job's completion, with and without a filler window. -/
def drainState (n : Nat) : State := cells (words mxdDesc ++ List.replicate 960 0#13 ++ List.replicate 32 (byteCode 0x80#8)) (arrayState (arr0 (runsJob n) 4))
theorem witness_chunk : (let s := drainState 0;
      (s.bin 0 0 0).run = some ⟨job0, 0, false⟩ ∧ 0 < chunkCount mxdDesc ∧ descOk mxdDesc false = true ∧ descInside mxdDesc false (2 ^ 20) = true ∧
      fmtOf (dCfmt mxdDesc) = some fmtF32 ∧ bit (s.reg ⟨.shfFlipmask, 0, 0, 0, 0⟩) 63 = false ∧ dStoch mxdDesc = false) ∧
    (let s := drainState 1; chunkCount mxdDesc ≤ 1 ∧ s.fget arrPowerFillerWindow 0 0 ≠ 0 ∧ acts (.jobComplete ⟨0, 0⟩ 0) s = true) ∧
    ((drainState 1).setReg ⟨.arrPower, 0, 0, 0, 0⟩ 0#64).fget arrPowerFillerWindow 0 0 = 0 := by decide +kernel
/-- Two Q8 codes times Q8 codes, and zero codes. -/
def q8 (n : Int) : Elem := ⟨.grid, .fin (decide (n < 0)) n, .fin false 1, 1, false, 0, false⟩
theorem witness_blocks : ([(q8 127, q8 (-127)), (q8 0, q8 5)].all fun p => decide (p.1.kind = .grid) && decide (p.2.kind = .grid) &&
      decide (p.1.b = (q8 127).b) && decide (p.2.b = (q8 127).b)) = true ∧ ((q8 0).x.mul (q8 5).x).toQ = 0 ∧
      [(q8 127, q8 (-127))].length + (List.replicate 15 (q8 0, q8 5)).length = 16 := by decide +kernel

/-! ## Converters, normalisation, hatch, tables -/

/-- Q8ElementsAreTwosComplement and StoredCodesAndConverters: scales above zero; values of both sign and at the clip; trits. -/
theorem witness_codes : (0 : ℚ) < 1 / 4 ∧ (true = decide ((-127 : ℚ) < 0)) ∧ |(-127 : ℚ) / 1| ≤ 127 ∧ (128 : ℚ) ≤ |(128 : ℚ) / 1| ∧
    ([2, 0, 1, 1, 2].length = 5 ∧ ∀ d ∈ [2, 0, 1, 1, 2], d < 3) := by norm_num
def qcvD (dst src : Nat) : List W64 := (0x0100000001800000#64 + BitVec.ofNat 64 (16 * dst + src)) :: qcvDesc.tail
def qcvState (d : List W64) : State :=
  (cells (words d) (S x0)).modTe 0 0 0 fun y => { y with qcv := [⟨d, 0, 1, 0⟩] }
theorem witness_qcv_job : [qcvD 0 5, qcvD 5 0, qcvD 7 1].all (fun d => let s := qcvState d;
      qcvOk d false && qcvInside d false (2 ^ 20) && !s.qEsc 0 d && decide ((s.te 0 0 0).qcvRun = none) && decide ((s.clu 0 0).dom = .on) &&
      acts (.qcvJobStart ⟨0, 0⟩ 0) s) = true ∧ qDeq (qcvD 0 5) = true ∧ qStoch (qcvD 0 5) = false ∧ fmtOf (qDst (qcvD 0 5)) = some fmtF32 ∧
    qQuant (qcvD 5 0) = true ∧
    (let d := 0x0100000081800071#64 :: qcvDesc.tail;
     let s := (S x0).modTe 0 0 0 fun y => { y with qcvRun := some ⟨d, 0, 1, 0⟩ };
      qQuant d = true ∧ qSprout d false = true ∧ acts (.qcvJobComplete ⟨0, 0⟩ 0) s = true) := by decide +kernel
/-- NormalisationJobs: rows without elements, with a NaN, with infinities, of numbers; a job and its completion. -/
theorem witness_nrm_job : [none, none].filterMap id = ([] : List FVal) ∧ FVal.nan ∈ [some FVal.nan, none].filterMap id ∧
    (FVal.nan ∉ [some (FVal.inf false), some (.inf true)].filterMap id ∧ FVal.inf false ∈ [some (FVal.inf false), some (.inf true)].filterMap id) ∧
    f32 0x3F800000#32 = .fin false 1 ∧ nrmOk nrmDesc = true ∧ nrmInside nrmDesc (2 ^ 20) = true ∧
    (let s := (S x0).modClu 0 0 fun x => { x with nrmQ := [⟨nrmDesc, 0, 1, 0⟩] };
      (s.clu 0 0).nrmRun = none ∧ (s.clu 0 0).dom = .on ∧ acts (.nrmJobStart ⟨0, 0⟩) s = true) ∧
    acts (.nrmJobComplete ⟨0, 0⟩) ((S x0).modClu 0 0 fun x => { x with nrmRun := some ⟨nrmDesc, 0, 1, 0⟩ }) = true := by decide +kernel
/-- HatchJobsAndSeedTables: an own-bay FETCH, and a job whose data have moved. -/
theorem witness_hatch_job : (let s := (cells (words hxfDesc) (S x0)).modClu 0 0 fun x => { x with hatchQ := [⟨hxfDesc, 0, 1, 0⟩] };
      s.hxfOk 0 hxfDesc = true ∧ hxfInside hxfDesc (2 ^ 20) = true ∧ (s.clu 0 0).hatchSlot = some 0 ∧ (s.clu 0 0).dom = .on ∧
      s.hatchLeave 0 0 hxfDesc = true ∧ s.needs = [] ∧ s.sends = [] ∧ xMode hxfDesc = 0 ∧ xPut hxfDesc = false ∧ xRows hxfDesc = 1 ∧
      (List.range (xBytes hxfDesc)).all (fun c => decide (s.home 0 (BitVec.ofNat 64 (xRemote hxfDesc + c)) = .bay 0 0 0 c)) = true ∧ s.reqs = [] ∧
      acts (.hatchJobStart ⟨0, 0⟩) s = true) ∧
    acts (.hatchJobComplete ⟨0, 0⟩ 0) ((S x0).modClu 0 0 fun x => { x with hatchRun := [(0, ⟨⟨hxfDesc, 0, 1, 0⟩, true, [], false⟩)] }) = true := by
  decide +kernel
/-- One table image for EX2, and one that repeats its function. -/
def tableImage (fn n : Nat) : List Byte := leBytes 4 0x4C425453 ++ [1#8, BitVec.ofNat 8 fn] ++ leBytes 2 n ++ List.replicate (tableBytes - 8) 0#8
def loading (busy : Bool) : State :=
  let s := (S x0).modClu 0 0 fun x => { x with loads := [⟨0, 9, tableImage 0x60 256⟩] }
  if busy then s.setBunch 0 { x0 with bank := 1 } else s
theorem witness_tables : badTable (tableImage 0x60 256) 1 = none ∧ badTable (tableImage 0x60 256 ++ tableImage 0x60 256) 2 ≠ none ∧
    badTable (tableImage 0x61 255) 1 = some 0 ∧ ((loading false).clu 0 0).active ≤ 1 ∧ (loading false).running? 9 = none ∧
    tableFn (imageTable (tableImage 0x60 256) 0) ∈ tableOps ∧ (∃ b ∈ (loading true).resident 0 0, b.bank = 1) ∧
    (∀ b ∈ (loading false).resident 0 0, b.bank ≠ 1) ∧ acts (.tableBankSwitch ⟨0, 0⟩) (loading false) = true := by decide +kernel

/-! ## Packets that are due -/

def dueB (s : State) (q op : Nat) (k : Pkt) : Bool :=
  decide (hOpcode k.words = op) && decide ((s.queue q).running.find? (fun x => decide (x.words = k.words) && s.workable q x) = some k) &&
  decide (s.running? k.id = some (q, k)) && s.reqs.all (fun r => decide (r.owner ≠ cmdOwner q k.id)) && decide (s.needs = []) && decide (s.sends = []) &&
  decide (k.status = 0)
theorem due_of {s : State} {q op : Nat} {k : Pkt} (e : dueB s q op k = true) : Due s q op k := by
  simp only [dueB, Bool.and_eq_true, decide_eq_true_eq, List.all_eq_true] at e
  exact ⟨e.1.1.1.1.1.1, e.1.1.1.1.1.2, e.1.1.1.1.2, e.1.1.1.2, ⟨e.1.1.2, e.1.2⟩, e.2⟩
/-- A packet of opcode op: its first word, then words by number. -/
def pkt (op : Nat) (ws : List (Nat × W64)) : Packet :=
  let n := if ws.any fun e => 8 ≤ e.1 then 2 else 1
  (List.range (8 * n)).map fun i => (if i = 0 then BitVec.ofNat 64 (op + (n - 1) * 2 ^ 16) else 0#64) + ((ws.filter fun e => e.1 = i).map Prod.snd).sum
def running (p : Packet) : Pkt := { (default : Pkt) with id := 1, words := p }
/-- A state in which a packet of queue 0 has just started. -/
def starts (p : Packet) (s : State) : State := { s with queues := [(0, { (default : Queue) with running := [running p] })], mod := { s.mod with ready := true } }
/-- The packet's work is due and its command acts. -/
def runsB (i : Instr) (op : Nat) (p : Packet) (s : State) : Bool := dueB (starts p s) 0 op (running p) && acts i (starts p s)

/-- A table image in host memory: its header's bytes; the coefficients read as zero. -/
def hostImage (img : List Byte) (s : State) : State :=
  { s with mem := { s.mem with host := (img.zipIdx.filter fun e => decide (e.1 ≠ 0#8)).map fun e => (e.2, e.1) },
           mod := { s.mod with bridge := some 0, linkUp := true, perstN := true } }
/-- A host address; one table; tower 0; cluster 0. -/
def tblPacket (a : W64) : Packet := pkt 0x22 [(1, a), (2, 0x101#64), (3, 1#64)]
theorem witness_table_load : dueB (starts (tblPacket 0x4000000000000000#64) (S x0)) 0 0x22 (running (tblPacket 0x4000000000000000#64)) = true ∧
    (loadCount (tblPacket 0#64)).1 = 1 ∧ isHost (wordAt (tblPacket 0x4000000000000000#64) 1) = true ∧
    (let s := starts (tblPacket 0x4000000000000000#64) (hostImage ((tableImage 0x60 256).take 8) (S x0));
      (s.checkTable 0 (tblPacket 0x4000000000000000#64)).1 = 0 ∧ s.hostWay = .direct) ∧
    ((S x0).checkTable 0 (tblPacket 0x4000000000000001#64)).1 ≠ 0 := by decide +kernel
theorem witness_table_image : (let s := hostImage ((tableImage 0x60 256).take 8) (S x0); badTable ((s.hostBytes 0x4000000000000000 tableBytes).map dataOf) 1 = none) ∧
    badTable (((S x0).hostBytes 0x4000000000000000 tableBytes).map dataOf) 1 = some 0 := by decide +kernel

/-! ## LAUNCH and the guard -/

/-- Code of 64 bytes at HBM address a for a team of n bunches and 64 n threads on the cluster 0 of the towers of a mask. -/
def launchPacket (a mask n : Nat) : Packet :=
  pkt 0x20 [(1, BitVec.ofNat 64 a), (2, BitVec.ofNat 64 (64 + mask * 2 ^ 32 + 16 * 2 ^ 40 + n * 2 ^ 48)), (3, BitVec.ofNat 64 (64 * n + 1 * 2 ^ 32 + 16 * 2 ^ 48)), (5, 1#64)]
def launchState (p : Packet) : State := starts p ((S x0).modClu 0 0 fun x => { x with team := none })
theorem witness_launch_packet : (let p := launchPacket 0 1 2; let s := launchState p;
      dueB s 0 0x20 (running p) = true ∧ (s.checkLaunch 0 p).1 = 0 ∧ launchClusters p = [(0, 0)] ∧ (s.tower 0).inTower = false ∧
      clampMask (launchRaw p) (launchFields p) = 0) ∧
    (let p := launchPacket 0 0 2; dueB (launchState p) 0 0x20 (running p) = true ∧ ((launchState p).checkLaunch 0 p).1 = 0 ∧ launchClusters p = []) ∧
    (let p := launchPacket 1 1 2; dueB (launchState p) 0 0x20 (running p) = true ∧ ((launchState p).checkLaunch 0 p).1 ≠ 0) := by decide +kernel
/-- An invocation of ten elements with c clips, of energy e. -/
def invoked (e : ℚ) (c : Nat) : GuardAcc := { owner := 9, tag := 5, elems := 10, energy := e, noise := 0, clips := c, sprouts := 0, nans := 0, sElems := 0, sEnergy := 0, sNoise := 0, sClips := 0, sSprouts := 0, writes := [], use := 0 }
def guarded (mode run : Nat) (nat : Option Nat) (a : GuardAcc) : State :=
  { (State.reset.modTag 0 5 fun y => { y with pendingEval := [a], badRun := run, native := nat }) with
    policy := SMap.put GuardPolicy.init [] 5 { GuardPolicy.init with mode := mode, window := 2 } }
/-- GUARD_EVALUATE: no energy, a good invocation, a bad one, and one that completes the window, in modes 0, 1 and 2. -/
theorem witness_guard : [(0, 0, none), (1, 0, none), (1, 1, none), (2, 1, some 6), (2, 1, some 5)].all (fun e =>
      let s := guarded e.1 e.2.1 e.2.2 (invoked 1 10); decide ((s.tag 0 5).pendingEval = [invoked 1 10]) && decide ((s.pol 5).mode = e.1) &&
      !s.escalated 5 && decide (s.escOf 5 = .native) && s.mod.launches.isEmpty) = true ∧
    isBadRun ((guarded 1 0 none (invoked 1 10)).pol 5) (invoked 1 10) = some true ∧
    isBadRun ((guarded 1 0 none (invoked 0 10)).pol 5) (invoked 0 10) = none ∧ ((guarded 1 0 none (invoked 1 10)).pol 5).window = 2 := by decide +kernel

end Sys2Proof.Tests
end

