-- ==== Sys2Proof/Tests/WitnessMemory.lean ====
section
/-! SUPPORT. For the statements about the codes, the cellar, the pantry, the larder and HBM: states that meet the hypotheses of each
clause. -/

set_option Elab.async false

namespace Sys2Proof.Tests

open Sys2Proof Sys2Proof.Machine Sys2Proof.Claims

/-! ## Cellar -/

def withMem (f : Mem → Mem) (s : State) : State := { s with mem := f s.mem }
/-- Bay 135, row 0 of a die in the repair queue, with its valid bits. -/
def repairing (v : BitVec 3) : State :=
  (withMem (fun m => { m with valid := SMap.put 0#3 [] (rowKey 3 1 135 0) v }) State.reset).modTower 3 fun w => { w with repairQ := [(1, [(135, 0)])] }
theorem witness_scrub : [0#3, 7#3].all (fun v => let s := repairing v; !s.dieReset 3 1 && decide ((s.tower 3).fence = 0) && !(s.tower 3).inTower &&
      decide (SMap.get [] (s.tower 3).repairQ 1 = [(135, 0)]) && decide (s.validBits 3 1 135 0 = v) &&
      decide (s.rowOf 3 1 135 (s.physRow 3 1 135 0) = some 0)) = true := by decide +kernel
/-- SCRUB_CTL of the patrol of stack 7, of die 1, and of a stack that does not exist; INJECT into both memories, and beyond bay 135. -/
def scrub (g n op : Nat) : Packet := pkt 0x72 [(1, BitVec.ofNat 64 (g + 3 * 2 ^ 8 + n * 2 ^ 16 + op * 2 ^ 24))]
def inject (g u bay : Nat) : Packet := pkt 0x73 [(1, BitVec.ofNat 64 (g + 3 * 2 ^ 8 + u * 2 ^ 16 + bay * 2 ^ 32)), (2, 0x8000000000001001#64)]
def due (p : Packet) (s : State) : Bool := dueB (starts p s) 0 (hOpcode p) (running p)
theorem witness_scrub_ctl : [scrub 2 7 0, scrub 2 7 1, scrub 2 7 2, scrub 1 0 0, scrub 0 0 2].all (fun p =>
      due p State.reset && decide (hOpcode p = 0x72) && decide ((State.reset.checkScrub p).1 = 0)) = true ∧
    due (scrub 2 8 0) State.reset = true ∧ (State.reset.checkScrub (scrub 2 8 0)).1 ≠ 0 := by decide +kernel
theorem witness_inject : [inject 0 1 135, inject 1 127 0].all (fun p =>
      due p State.reset && decide (hOpcode p = 0x73) && decide ((State.reset.checkInject p).1 = 0)) = true ∧
    due (inject 0 0 136) State.reset = true ∧ (State.reset.checkInject (inject 0 0 136)).1 ≠ 0 := by decide +kernel

/-- A read of one byte at an address, held since stamp 1, of a command or a hatch. -/
def heldReq (a : W64) (o : ReqOwner) : Req := ⟨0, a, .load 1, 4, o, 0, .issued, some 1, 0, [], 0⟩
/-- Its home's die is in reset; its tower is; the path to it is: the last stamp before the limit, and the limit. -/
def held (f : State → State) (a : W64) (o : ReqOwner) (now : Nat) : State :=
  { (f State.reset).modTower 0 (fun w => { w with stamp := BitVec.ofNat 64 now }) with reqs := [heldReq a o] }
def downDie (s : State) : State := s.modTower 1 fun w => { w with inCelU := true }
def downTower (s : State) : State := s.modTower 1 fun w => { w with inTower := true }
theorem witness_holds : [(1, downDie, 0x100200000000#64), (2, downTower, 0x100200000000#64)].all (fun e =>
      [ReqOwner.command 0 1 none, .hatch 0 0 0 none, .bunch 0].all fun o =>
        let s := held e.2.1 e.2.2 o 2000001; let r := heldReq e.2.2 o;
        decide (s.reqs.find? (fun q => decide (q.id = r.id)) = some r) && decide (r.id < s.mod.nextId) && decide (s.holdKind r = e.1) &&
        decide (1 + 2000000 ≤ s.stamp r.tower) && decide ((held e.2.1 e.2.2 o 2000000).stamp r.tower < 1 + 2000000)) = true := by decide +kernel

/-- CLEAR_BAY of both dies of the bays of clusters 0 and 127, rows 0 to 8191; and of a row more than the die has. -/
def clearPkt (n : Nat) : Packet :=
  pkt 0x13 [(1, 0x303#64), (2, BitVec.ofNat 64 (n * 2 ^ 32)), (3, 1#64), (4, 0x8000000000000000#64)]
theorem witness_clear : due (clearPkt 8192) State.reset = true ∧ (State.reset.checkClear (clearPkt 8192)).1 = 0 ∧ clearDies (clearPkt 8192) = [0, 1] ∧
    (clearCount (clearPkt 0)).2 = 8 ∧ (∀ d ∈ clearDies (clearPkt 8192), State.reset.dieReset 3 d = false) ∧
    due (clearPkt 8193) State.reset = true ∧ (State.reset.checkClear (clearPkt 8193)).1 ≠ 0 := by decide +kernel
/-- Commits pending in tower 3, with the split kept and with a new one. -/
def committing (r : RegName) : State := State.reset.setReg ⟨r, 3, 0, 0, 0⟩ 2#64
def newSplit : State := { committing .celCommit with locked := SMap.put 0 [] (Loc.key ⟨.celSplit, 3, 0, 0, 0⟩) 12#64 }
theorem witness_commits : (committing .celCommit).commitPending .celCommit 3 0 = true ∧ (committing .panCommit).commitPending .panCommit 3 0 = true ∧
    (committing .hbmCommit).commitPending .hbmCommit 3 0 = true ∧ State.reset.commitPending .hbmCommit 3 0 = false ∧
    newSplit.commitPending .celCommit 3 0 = true ∧ newSplit.splitBusy 3 = false ∧ (newSplit.tower 3).inTower = false := by decide +kernel

/-! ## Pantry and larder -/

/-- Line 0 of tower 0 in way 3 of its set, and a read of n bytes of it. -/
def line0 (p : Bool) : PLine := ⟨0, none, .clean, 0#128, p, 1, 0⟩
def inPantry (p : Bool) : State :=
  withMem (fun m => { m with pantry := SMap.put none [] (wayKey 0 0 0 3) (some (line0 p)), valid := SMap.put 0#3 [] (rowKey 0 0 0 8193) 7#3 }) State.reset
def loadReq (a : W64) (n : Nat) : Req := ⟨0, a, .load n, 4, .bunch 0, 0, .issued, none, 0, [], 0⟩
def asks (r : Req) (s : State) : State := { s with reqs := [r] }
theorem witness_lookup_hit : [loadReq 0#64 128, loadReq 127#64 1].all (fun r => let s := asks r (inPantry false);
      decide (s.reqs.find? (fun q => decide (q.id = r.id)) = some r) && !s.behind r && decide (s.home 0 r.addr = .hbm 0 r.addr.toNat) &&
      decide (s.panFind 0 0 none = some (3, line0 false)) && (presentMask (line0 false) == BitVec.allOnes 128) &&
      ((s.wayRead 0 0 0 3).1.all fun b => !isBad b)) = true := by decide +kernel
/-- A miss with an entry of its line pending and with an empty table. -/
def filling (f : Fill) (s : State) : State := withMem (fun m => { m with fills := [(0, [f])] }) s
theorem witness_lookup_miss : (let s := asks (loadReq 0#64 128) State.reset; s.panFind 0 0 none = none ∧ s.bypass 0 4 = false ∧
      SMap.get [] s.mem.fills 0 = []) ∧
    (let f : Fill := ⟨0, none, 4, [(9, [])], false⟩; let s := asks (loadReq 0#64 128) (filling f State.reset);
      (SMap.get [] s.mem.fills 0).find? (fun x => decide (x.line = 0) && decide (x.far = none)) = some f ∧ f.reqs.length < 32 ∧
      s.panFind 0 0 none = none) := by decide +kernel
/-- A local fill, and a fill of a line of module 5 whose read is back. -/
theorem witness_fill : (let r := { loadReq 0#64 128 with stage := .filling }; let f : Fill := ⟨0, none, 4, [(0, [])], false⟩; let s := asks r (filling f State.reset);
      (SMap.get [] s.mem.fills 0).find? (fun x => decide (x.line = 0)) = some f ∧ r ∈ s.reqs ∧ s.lineHeld 0 0 = false ∧ (s.tower 0).inTower = false) ∧
    (let r := { loadReq 0x8005000000000000#64 128 with stage := .filling }; let f : Fill := ⟨0, some 5, 4, [(0, [])], false⟩;
      let q : Req := { loadReq 0x8005000000000000#64 128 with id := 1, owner := .fill 0 0 0, stage := .done };
      let s := { filling f State.reset with reqs := [r, q] };
      (SMap.get [] s.mem.fills 0).find? (fun x => decide (x.line = 0)) = some f ∧
      s.reqs.filter (fun x => decide (x.owner = .fill 0 0 0) && decide (x.stage = .done)) = [q] ∧ q.id ≠ r.id) := by decide +kernel

/-- PIN, UNPIN and DISCARD of a range of n bytes at a. -/
def rangePkt (op a n : Nat) : Packet := pkt op [(1, BitVec.ofNat 64 a), (2, BitVec.ofNat 64 n)]
/-- The last 256 bytes below a tower's top granule, across towers 0 and 1, an odd length, and an address that is none. -/
theorem witness_pin : [rangePkt 0x15 0x7FEFFFFF00 256, rangePkt 0x15 (2 ^ 39 - 128) 256].all (fun p => let s := starts p (inPantry false);
      due p (inPantry false) && decide ((s.checkPin 0 p).1 = 0) && decide (s.heldLine (s.hbmRange (wordAt p 1) (wordAt p 2).toNat).2 = none)) = true ∧
    (let p := rangePkt 0x15 0 64; due p (inPantry false) = true ∧ ((starts p (inPantry false)).checkPin 0 p).1 ≠ 0) := by decide +kernel
theorem witness_unpin : (let p := rangePkt 0x16 0 256; due p (inPantry true) = true ∧ ((starts p (inPantry true)).checkUnpin p).1 = 0) ∧
    (let p := rangePkt 0x16 0 64; due p (inPantry true) = true ∧ ((starts p (inPantry true)).checkUnpin p).1 ≠ 0) := by decide +kernel
theorem witness_discard : (let p := rangePkt 0x14 0 256; let s := starts p (inPantry false); due p (inPantry false) = true ∧ (s.checkDiscard 0 p).1 = 0 ∧
      s.moduleAddr (wordAt p 1) = some 0 ∧ s.heldLine (s.hbmRange (wordAt p 1) (wordAt p 2).toNat).2 = none ∧ Memory.wf s.mem = true ∧ s.mem.fills = []) ∧
    (let p := rangePkt 0x14 0x100000000000 1024; let s := starts p (inPantry false); due p (inPantry false) = true ∧ (s.checkDiscard 0 p).1 = 0 ∧
      s.moduleAddr (wordAt p 1) = some 0x100000000000 ∧ s.dieReset 0 0 = false) ∧
    (let p := rangePkt 0x14 0 64; due p (inPantry false) = true ∧ ((starts p (inPantry false)).checkDiscard 0 p).1 ≠ 0) := by decide +kernel
/-- A pressure window at the ceiling and above it, the first and the last of its run, with and without the demote action. -/
def pressed (miss run : Nat) (act : W64) : State :=
  (State.reset.modTower 2 fun w => { w with missUnpinned := miss, accUnpinned := 1000, pressRun := run, pins := [⟨2 ^ 40, 256⟩] }).setReg ⟨.panPolicy, 2, 0, 0, 0⟩
    (act + State.reset.reg ⟨.panPolicy, 2, 0, 0, 0⟩)
theorem witness_pressure : (let lim := max 1 (min 1000 (State.reset.fget panPolicyPressureCeiling 2)); let long := max 1 (min 64 (State.reset.fget panPolicyPressureWindows 2));
      lim < 1000 ∧ (let s := pressed (lim + 1) (long - 1) 0#64; (s.tower 2).fence = 0 ∧ 1000 * (s.tower 2).missUnpinned / (s.tower 2).accUnpinned = lim + 1 ∧
        long ≤ (s.tower 2).pressRun + 1 ∧ s.flag panPolicyPressureAction 2 = false ∧ (s.tower 2).pressure = false) ∧
      (((pressed (lim + 1) 0 0#64).modTower 2 fun w => { w with pressure := true }).tower 2).pressure = true ∧
      (pressed lim 0 0#64).flag panPolicyPressureAction 2 = false ∧ 1000 * ((pressed lim 0 0#64).tower 2).missUnpinned / 1000 ≤ lim ∧ 1 < long) ∧
    (State.reset.setReg ⟨.panPolicy, 2, 0, 0, 0⟩ (BitVec.ofNat 64 (2 ^ panPolicyPressureAction.lo))).flag panPolicyPressureAction 2 = true := by decide +kernel

/-! ## HBM -/

def hbmOn (ws : List HbmWr) : State :=
  withMem (fun m => { m with wq := if ws = [] then [] else [(pcKey 3 (hbmPlace (2 ^ 39 - 32)).stack (hbmPlace (2 ^ 39 - 32)).pc, ws)] }) (State.reset.modTower 3 fun w => { w with on := true })
def lastUnit : HbmOp := ⟨⟨2 ^ 34 - 1, by decide⟩, 4, 0, some ⟨1#256, 0xFFFFFFFF#32, 0#32⟩⟩
theorem witness_hbm_access : (hbmOn []).hbmRuns 3 = true ∧ lastUnit.wr = some ⟨1#256, 0xFFFFFFFF#32, 0#32⟩ ∧
    (let k := hbmPlace (lastUnit.unit.val * 32); (hbmOn []).chanFailed 3 k.stack (k.pc / 2) = false ∧
      (SMap.get [] (hbmOn []).mem.wq (pcKey 3 k.stack k.pc)).length < 64) := by decide +kernel
theorem witness_drain : (let s := hbmOn (List.replicate 48 ⟨2 ^ 34 - 1, ⟨1#256, 0xFFFFFFFF#32, 0#32⟩, 4⟩); let k := hbmPlace (2 ^ 39 - 32);
      48 ≤ (SMap.get [] s.mem.wq (pcKey 3 k.stack k.pc)).length ∧ k.stack < 8 ∧ k.pc < 64) ∧ (SMap.get [] (hbmOn []).mem.wq (pcKey 3 0 0)).length < 48 := by
  decide +kernel
theorem witness_patrol : (hbmOn []).hbmRuns 3 = true ∧ ((hbmOn []).tower 3).patrolPaused.contains 7 = false ∧ (hbmOn []).chanFailed 3 7 31 = false ∧
    [84, 85, 255, 256, 0, 0, 0, 0].length = 8 := by decide +kernel

end Sys2Proof.Tests
end

