-- ==== Sys2Proof/Tests/WitnessLinks.lean ====
section
/-! SUPPORT. For the statements about the links: ports, stamps, packets. -/

set_option Elab.async false

namespace Sys2Proof.Tests

open Sys2Proof Sys2Proof.Machine Sys2Proof.Claims

/-! ## Flits and ports -/

def l31 : PortRef := ⟨3, 7⟩
/-- Module 9 at stamp 0 of READY, its last port as given, and module 5 reached through it. -/
def linked (x : Port) : State :=
  { State.reset.setReg ⟨.lnkRoute, 0, 0, 5, 0⟩ (BitVec.ofNat 64 (2 ^ 31 + 31)) with
    ports := [(31, x)], mod := { State.reset.mod with moduleId := some 9#12, ready := true, verified := true } }
def up : Port := { Port.init with mode := .up }
def flit0 (seq : Nat) : Flit := ⟨32766, 7, 16383, some 255#8, seq, 1, List.replicate 240 165#8, 7, 16383⟩
/-- FlitsAreReadAsSent and FlitsTravelInOrder: fields at the ends of their ranges; a flit out of order and the expected one; a bad
flit; each reason for what leaves next. -/
theorem witness_flits : (let f := flit0 255; f.start < 2 ^ 15 ∧ f.crVc < 8 ∧ f.crSlots < 2 ^ 14 ∧ f.seq < 256 ∧ f.ftype < 3 ∧ f.body.length = 240 ∧
      f.cr2Vc < 8 ∧ f.cr2Slots < 2 ^ 14) ∧ (nakBody 0#8).length = 240 ∧ ((nakBody 0#8).headD 0#8).toNat = 1 := by decide +kernel
theorem witness_flit_in : (flitOf (flit0 255).bytes).map (fun f => (f.ftype, f.seq)) = some (1, 255) ∧ (BitVec.ofNat 8 255 : BitVec 8) ≠ up.expect ∧
    (flitOf (flit0 0).bytes).map (fun f => (f.ftype, BitVec.ofNat 8 f.seq)) = some (1, up.expect) ∧ (flitOf []).isNone = true ∧
    ((linked up).port 3 7).live = true ∧ ((linked { up with naking := true }).port 3 7).naking = true := by decide +kernel
/-- Replay entries 1 and 2, sent n times. -/
def sentOut (n : Nat) : List (BitVec 8 × List Byte × Nat) := [(1#8, List.replicate 242 0#8, n), (2#8, List.replicate 242 0#8, n)]
def lp (op agent tag : Nat) (w1 : W64) (slots : List (BitVec 128)) : LinkPkt :=
  ⟨BitVec.ofNat 64 (5 * 2 ^ 48 + 9 * 2 ^ 36 + agent * 2 ^ 26 + tag * 2 ^ 10 + op), w1, slots⟩
def sending (c : Nat) : Port := { up with txq := [(4, [lp opCFL 1 2 0#64 (List.replicate 14 0#128)])], sent := [(4, 1024 - c)] }
theorem witness_nak : (let x := { up with replay := sentOut 1 }; x.replay = [x.replay.headD default] ++ x.replay.drop 1 ∧
      ((x.replay.drop 1).head?.map fun e => e.1) = some 2#8 ∧ (x.replay.headD default).1 ≠ 2#8) ∧
    (let x := { up with replay := sentOut 7, resend := [2#8] }; (x.replay.find? (fun r => decide (r.1 = 2#8) && decide (r.2.2 < 8))).isSome = true) := by
  decide +kernel
theorem witness_transmit : (let x := { up with ctrlq := [nakBody 0#8] }; x.resend = [] ∧ x.ctrlq = [nakBody 0#8]) ∧
    (let x := { up with replay := List.replicate 64 (0#8, [], 1) }; x.resend = [] ∧ x.ctrlq = [] ∧ 64 ≤ x.replay.length) ∧
    (let x := sending 14; x.partialTx = [] ∧ ∀ v, v < 8 → (SMap.get [] x.txq v).all fun p => decide (x.credit v < p.slots.length + 1)) ∧
    (let x := sending 15; (SMap.get [] x.txq 4).length = 1 ∧ 14 + 1 ≤ x.credit 4 ∧ ∀ w, w < 8 → w ≠ 4 → SMap.get [] x.txq w = []) := by decide +kernel

def trains (n : Nat) : Port := { up with replay := sentOut 8, retrains := n }
/-- A port at its retrain limit and one below it; every mode that PORT_DOWN takes down; windows with no, one and both halves failed. -/
theorem witness_retrain : (let lim := max 1 ((linked up).fget lnkCfgRetrainLimit 3);
      (∃ e ∈ (trains 0).replay, 8 ≤ e.2.2) ∧ (trains (lim - 1)).retrains < lim ∧ lim ≤ (trains lim).retrains) ∧
    [PortMode.training, .qualifying, .up].all (fun m => decide (m = .training ∨ m = .qualifying ∨ m = .up)) = true ∧
    [(0x01#8, 0x01#8), (0x80#8, 0x00#8), (0x11#8, 0x11#8), (0x00#8, 0x00#8)].map (fun e =>
      let now := e.1 &&& ~~~0#8; let failed := 0#8 ||| (now &&& e.2);
      (decide (failed &&& 0x0F#8 = 0#8), decide (failed &&& 0xF0#8 = 0#8), decide (now &&& ~~~failed = 0#8))) =
      [(false, true, true), (true, true, false), (false, false, true), (true, true, true)] := by decide +kernel
theorem witness_info : (linked up).mod.isRoot = false ∧ ((linked up).port 3 7).live = true ∧ (State.reset.rootCands = []) ∧
    ((linked { up with peer := some ⟨5#16, 0#8, 0#8, 1#8, 0x8003#16⟩ }).rootCands.length = 2) := by decide +kernel
/-- A child that has asked, before READY and after it; a commit of the link record with and without a module ID. -/
def child (r : Bool) : State :=
  let s := linked { up with syncT1 := some 4#80 }
  { s with mod := { s.mod with parent := some 31, ready := r } }
theorem witness_sync : [true, false].all (fun r => let s := child r; decide (s.mod.parent = some (portKey 3 7)) && decide ((s.port 3 7).syncT1 = some 4#80) &&
      decide (s.mod.ready = r) && !s.mod.stepped) = true ∧
    ((((100 : Int) - 4) - (8 - 5)) / 2 > 0 ∧ (((4 : Int) - 4) - (8 - 4)) / 2 < 0 ∧ (((4 : Int) - 4) - (8 - 8)) / 2 = 0) := by decide +kernel
theorem witness_link_commit : (∀ t, t < 4 → State.reset.commitPending .lnkCommit t 0 = false) ∧
    (let s := State.reset.setReg ⟨.lnkCommit, 3, 0, 0, 0⟩ 2#64; s.commitPending .lnkCommit 3 0 = true ∧ s.mod.moduleId = none) ∧
    (let s := (linked up).setReg ⟨.lnkCommit, 0, 0, 0, 0⟩ 2#64; s.commitPending .lnkCommit 0 0 = true ∧ ([1, 2, 3].all fun k => !s.commitPending .lnkCommit k 0) ∧
      s.mod.moduleId ≠ none ∧ s.mod.idFree = false) := by decide +kernel

/-! ## Packets -/

def atB (s : State) (l : PortRef) (p : LinkPkt) (op : Nat) : Bool :=
  decide (p.op = op) && s.inRx l p && decide (s.mod.moduleId ≠ none ∧ s.mod.moduleId ≠ some (BitVec.ofNat 12 p.src)) && decide (s.routePorts p.src ≠ [])
theorem at_of {s : State} {l : PortRef} {p : LinkPkt} {op : Nat} (e : atB s l p op = true) : AtPort s l p op := by
  simp only [atB, Bool.and_eq_true, decide_eq_true_eq] at e
  exact ⟨e.1.1.1, e.1.1.2, e.1.2, e.2⟩
/-- A packet in the last port's buffer. -/
def arrived (p : LinkPkt) : State := linked { up with rxq := [(0, p)] }
def arrives (p : LinkPkt) (op : Nat) : Bool := atB (arrived p) l31 p op
def req1 (n a : Nat) : W64 := BitVec.ofNat 64 ((n - 1) * 2 ^ 52 + a)
/-- MemoryPacketsAreServed: requests to the first byte past the MMIO window's start and to HBM; a read of an uncorrectable byte. -/
theorem witness_requests : [opRD, opWR, opWRM, opAMO].all (fun op => [0x1F0000000000, 0].all fun a =>
      let p := lp op 1 2 (req1 128 a) (List.replicate 9 0#128); arrives p op) = true ∧
    [opRD, opWR, opWRM].all (fun op => let p := lp op 1 2 (req1 128 0) (List.replicate 9 0#128); decide (p.addr < 0x1F0000000000) && decide (p.count = 128) &&
      !((arrived p).takeRx l31 p).someHeld 3 (128 / 128 + 2) p.addr 128) = true ∧
    (let p := lp opAMO 1 2 (req1 8 0) [0#128, 0#128]; !((arrived p).takeRx l31 p).someHeld 3 (8 / 128 + 2) p.addr 8) = true := by decide +kernel
theorem witness_reads : (let p := lp opRD 1 2 (req1 32 0) []; let s := (arrived p).takeRx l31 p; let r := s.gread (linkAgent l31 p) 0#64 p.count;
      r.st = 0 ∧ r.data.any isBad = false) ∧
    (let p := lp opRD 1 2 (req1 32 0) []; let s := withMem (fun m => { m with hbm := [(unitKey 0 0, ⟨0#256, hbmCheck 0#256, true⟩)] }) ((arrived p).takeRx l31 p);
      let r := s.gread (linkAgent l31 p) 0#64 p.count; r.st = 0 ∧ r.data.any isBad = true) ∧
    (let p := lp opRD 1 2 (req1 32 0x1E0000000000) []; (((arrived p).takeRx l31 p).gread (linkAgent l31 p) 0x1E0000000000#64 p.count).st ≠ 0) := by decide +kernel
/-- A request on its way to module 5 and the response to it; a response that none waits for; the last stamp before a timeout. -/
def outReq (op : ReqOp) : Req := ⟨2, 0x8005000000000000#64, op, 5, .command 0 7 none, 0, .sent 31, none, 0, [], 0⟩
def replied (p : LinkPkt) (op : ReqOp) : State := { arrived p with reqs := [outReq op] }
theorem witness_responses : [(opRDR, ReqOp.load 16), (opACK, .store []), (opAMR, .atomic 0 0 8 0#64 0#64), (opMNR, .packet opMNT 0#64 [])].all (fun e =>
      let p := lp e.1 255 2 (req1 16 0) [0#128]; let s := replied p e.2;
      decide (p.op = e.1) && s.inRx l31 p && decide (s.replyTo p = some (outReq e.2)) && decide ((arrived p).replyTo p = none)) = true := by decide +kernel
theorem witness_request_timeout : (let s := { arrived (lp opRDR 255 2 0#64 []) with reqs := [outReq (.load 16)] };
      s.reqs.find? (fun x => decide (x.id = 2)) = some (outReq (.load 16)) ∧ s.stamp 0 < 0 + s.reqTimeout) ∧
    (let s := (replied (lp opRDR 255 2 0#64 []) (.load 16)).modTower 0 fun w => { w with stamp := 400000000#64 }; 0 + s.reqTimeout ≤ s.stamp 0) := by decide +kernel

/-- CMD: a ring of sixteen packets at host address 0 of queue 512 of master 2, not enabled, enabled with one place, and full. -/
def ringed (cfg : W64) (tail : W32) (p : LinkPkt) : State :=
  let s := (arrived p).setReg (qLoc .cmdQcfg 512) cfg
  { s.setReg (qLoc .cmdQring 512) 0x4000000000000000#64 with
    queues := [(512, { (default : Queue) with tail := tail })], mod := { s.mod with bridge := some 0, linkUp := true, perstN := true } }
def cmdPkt : LinkPkt := lp opCMD 1 2 (req1 64 512) (List.replicate 4 0#128)
theorem witness_cmd : atB (ringed 0#64 0#32 cmdPkt) l31 cmdPkt opCMD = true ∧ cmdPkt.detail = 512 ∧ cmdPkt.count = 64 ∧
    (ringed 0#64 0#32 cmdPkt).qEnabled 512 = false ∧ arrives (lp opCMD 1 2 (req1 64 1024) []) opCMD = true ∧
    [15#32, 16#32].all (fun tail => let s := ringed 0xA0420000#64 tail cmdPkt; atB s l31 cmdPkt opCMD && decide (s.qMaster 512 = 2) && s.qEnabled 512 &&
      decide (2 ^ s.qSize 512 = 16) && decide (((s.queue 512).tail - (s.queue 512).head = tail)) && decide (s.hostWay = .direct) && decide (s.needs = [] ∧ s.sends = []) &&
      isHost (BitVec.ofNat 64 ((s.reg (qLoc .cmdQring 512)).toNat / 64 * 64))) = true := by decide +kernel
/-- CMP: the reply to the last packet, of tag 6, of a REMOTE that is the command of a CMD in flight. -/
def remote : Packet := pkt 0x91 [(8, BitVec.ofNat 64 (6 * 2 ^ 32))]
def cmpPkt (tag : Nat) : LinkPkt := lp opCMP 255 2 0#64 [BitVec.ofNat 128 tag, 0#128]
def remoted (p : LinkPkt) : State :=
  { arrived p with reqs := [{ outReq (.packet opCMD 0#64 []) with owner := .command 0 1 none }], queues := [(0, { (default : Queue) with running := [running remote] })] }
theorem witness_cmp : (let tag := hTag ((splitPackets 16 0 (remote.drop 8)).headD (0, [])).2; let p := cmpPkt tag; let s := remoted p; let k := running remote;
      p.op = opCMP ∧ s.inRx l31 p = true ∧ s.running? k.id = some (0, k) ∧
      (s.reqs.find? (fun r => decide (agentOf r.owner r.tower = p.agent) && decide (r.id % 65536 = p.tag) && decide (s.dstOf r.addr.toNat = some p.src))).isSome = true ∧
      (s.reqs.headD (outReq (.load 1))).owner = .command 0 k.id none ∧
      (let inner := (splitPackets 16 0 (k.words.drop 8)).map fun e => e.2;
        (inner.zipIdx.find? fun e => decide (hTag e.1 = leNat ((slotBytes p.slots).take 2)) && !(k.got.any fun g => decide (g.1 = e.2))).map (fun e => e.2) = some 0)) := by
  decide +kernel
/-- DBF to a queue that is no management queue; TSIG of tally 127 of the last cluster, of one that does not exist, of a tower in
reset and of an absent cluster; a CFL row of one F4 block, and a malformed one. -/
def tsig (unit n : Nat) : LinkPkt := lp opTSIG 1 2 (BitVec.ofNat 64 (unit * 2 ^ 32 + n)) []
theorem witness_dbf_tsig : (let p := lp opDBF 1 2 (BitVec.ofNat 64 (512 * 2 ^ 32 + 3)) []; p.op = opDBF ∧ (arrived p).inRx l31 p = true ∧ qLocal (p.hiAddr % 1024) ≠ 255) ∧
    arrives (tsig 1022 127) opTSIG = true ∧ (tsig 1022 127).hiAddr / 256 % 4 = 3 ∧ (tsig 1022 127).hiAddr / 2 % 128 = 127 ∧ (tsig 1022 127).detail = 127 ∧
    (arrived (tsig 1022 127)).cluStatus 3 127 = 0 ∧ [tsig 1024 0, tsig 1 0, tsig 0 128].all (fun p => arrives p opTSIG &&
      decide (1024 ≤ p.hiAddr ∨ p.hiAddr % 2 = 1 ∨ 128 ≤ p.detail)) = true ∧
    (((arrived (tsig 1022 127)).modTower 3 fun w => { w with inTower := true }).tower 3).inTower = true ∧
    ((arrived (tsig 1022 127)).modClu 3 127 fun x => { x with absent := true }).cluStatus 3 127 ≠ 0 := by decide +kernel
def cflSlot (fmt : Nat) : BitVec 128 := BitVec.ofNat 128 (fmt + 15 * 2 ^ 20 + 0x3F800000 * 2 ^ 96)
theorem witness_cfl : [(7, true), (5, false)].all (fun e => let p := lp opCFL 1 2 (req1 32 0) (cflSlot e.1 :: [0#128]);
      arrives p opCFL && decide (cflOk (p.slots.headD 0#128) = e.2)) = true ∧
    fmtOf (bitsOf (cflSlot 7).toNat 7 4) = some fmtF32 ∧
    (let p := lp opCFL 1 2 (req1 32 0) (cflSlot 7 :: [0#128]); ((arrived p).takeRx l31 p).someHeld 3 (64 / 128 + 2) p.addr 64 = false) := by decide +kernel
def bridged (s : State) : State := { s with mod := { s.mod with bridge := some 0, linkUp := true, perstN := true } }
theorem witness_host : [opHRD, opHWR].all (fun op => let p := lp op 1 2 (req1 16 0xFFFFFFFFFFF0) [0#128];
      arrives p op && !(arrived p).bridging && atB (bridged (arrived p)) l31 p op && (bridged (arrived p)).bridging) = true ∧
    [opHIRQ, opMNT].all (fun op => let p := lp op 1 2 (req1 16 2047) [0#128]; decide (p.op = op) && (arrived p).inRx l31 p) = true := by decide +kernel

end Sys2Proof.Tests
end

