-- ==== Sys2Proof/Tests/WitnessQueues.lean ====
section
/-! SUPPORT. For the statements about the queues, the bridge, the packets' checks and starts, and the commands on tallies, engines and
rows: states that meet the hypotheses of each clause. -/

set_option Elab.async false

namespace Sys2Proof.Tests

open Sys2Proof Sys2Proof.Machine Sys2Proof.Claims

/-! ## Queues -/

def q0 : Queue := { (default : Queue) with head := 0xFFFFFFFE#32, tail := 0xFFFFFFFF#32 }
/-- Queue 0 with rings of sixteen entries at host address 0; three packets lie behind the bridge. -/
def queued (enabled : Bool) (y : Queue) : State :=
  let s := bridged (linked up)
  let s1 := s.setReg (qLoc .cmdQcfg 0) (if enabled then 0x80427800#64 ^^^ 0x7800#64 else 0x00420000#64)
  let s2 := s1.setReg (qLoc .cmdQring 0) 0x4000000000000000#64
  { s2.setReg (qLoc .cmdQcring 0) 0x4000000000010000#64 with queues := [(0, y)] }
/-- A doorbell at the old tail, at the ring's end and past it, and behind the tail; a fenced tower; a queue that is not enabled. -/
theorem witness_doorbell : (let s := queued true q0; let d (tail : W32) : Nat := (tail - q0.head).toNat; let n := (q0.tail - q0.head).toNat;
      (s.tower 0).fence = 0 ∧ s.qEnabled 0 = true ∧ (n ≤ d 0xFFFFFFFF#32 ∧ d 0xFFFFFFFF#32 ≤ 2 ^ s.qSize 0) ∧ (n ≤ d 14#32 ∧ d 14#32 ≤ 2 ^ s.qSize 0) ∧
      2 ^ s.qSize 0 < d 15#32 ∧ d 0xFFFFFFFE#32 < n) ∧ (queued false q0).qEnabled 0 = false ∧
    ((queued true q0).modTower 0 fun w => { w with fence := 1 }).qEnabled 0 = false := by decide +kernel
/-- BAR0 doorbells: no host link; a slot that is not valid; module 5 in slot 63, with and without a BAR2 write of it in flight. -/
def dir63 : State := (queued true q0).setReg ⟨.brgDir, 0, 0, 63, 0⟩ 0x8005000000000000#64
theorem witness_bar0 : State.reset.hostUp = false ∧ dir63.hostUp = true ∧ dir63.slotModule 0 62 = none ∧ dir63.slotModule 0 63 = some 5 ∧
    dir63.dbWaits 5 dir63.mod.nextId = false ∧ dir63.routePorts 5 ≠ [] ∧
    (let s := { dir63 with reqs := [{ outReq (.store []) with id := 0, owner := .host 1 }] }; s.dbWaits 5 s.mod.nextId = true) := by decide +kernel
/-- TheBridgeServesTheHost: the staging area before the firmware is verified; a BAR2 slot of the own module, with and without its
home's tower in reset. -/
def bar2 (f : Tower → Tower) : State := ((queued true q0).setReg ⟨.brgDir, 0, 0, 0, 0⟩ 0x8009100200000000#64).modTower 1 f
theorem witness_bar2 : (let s : State := { queued true q0 with mod := { (queued true q0).mod with phase := 1, fwSource := 0 } }; s.hostUp = true ∧ s.staged? = true) ∧
    (let s := bar2 id; s.mod.bridge = some 0 ∧ s.hostUp = true ∧ s.staged? = false ∧ s.slotModule 0 0 = some 9 ∧ s.selfId = 9 ∧ s.slotModule 0 1 = none ∧
      s.someHeld 0 (4 / 128 + 2) (fld (s.reg ⟨.brgDir, 0, 0, 0, 0⟩) 47 26 * 2 ^ 26 + 0) 4 = false) ∧
    (let s := bar2 fun w => { w with inTower := true };
      s.someHeld 0 (4 / 128 + 2) (fld (s.reg ⟨.brgDir, 0, 0, 0, 0⟩) 47 26 * 2 ^ 26 + 0) 4 = true) := by decide +kernel

/-- headerStatus: a packet of each refused kind and a good one. -/
def hdr (w0 : Nat) (n : Nat) : Packet := BitVec.ofNat 64 w0 :: List.replicate (8 * n + 7) 0#64
theorem witness_headers : [hdr 0x02 0, hdr 0x1000000 0, hdr 0x800 0, hdr 0x800000 0, hdr 0x10000 1, hdr 0x20 0, hdr 0x50 0, hdr 0x73 0, hdr 0x00 0].all (fun p =>
      decide (p.length = 8 * (hLength p + 1))) = true ∧
    (hOpcode (hdr 0x02 0) = 0x02 ∧ fld (wordAt (hdr 0x1000000 0) 0) 31 24 ≠ 0 ∧ bit (wordAt (hdr 0x800 0) 0) 11 = true ∧ 7 < hClass (hdr 0x800000 0) ∧
      hLength (hdr 0x10000 1) ≠ 0 ∧ hLength (hdr 0x20 0) ≠ 1) ∧
    (arrived cmdPkt).qget cmdQcfgInject 0 = 0 ∧ (ringed 0xA0420000#64 0#32 cmdPkt).qMaster 512 = 2 ∧ 0x700000 / 2 ^ 20 = hClass (hdr 0x700000 0) := by decide +kernel
/-- PACKET_FETCH: a NOP and a packet of an unknown opcode at host address 0, covered; and one of two entries of which one has come. -/
def fetches (op len : Byte) (y : Queue) : State := withMem (fun m => { m with host := (if op = 0#8 then [] else [(896, op)]) ++ (if len = 0#8 then [] else [(898, len)]) }) (queued true y)
theorem witness_fetch : [(0#8, 0#8, 0), (2#8, 0#8, 1), (0#8, 1#8, 2)].all (fun e => let s := fetches e.1 e.2.1 q0; let y := s.queue 0;
      let ring := (s.reg (qLoc .cmdQring 0)).toNat / 64 * 64;
      let entry (i : Nat) : List Byte := (List.range 64).map fun b => SMap.get 0#8 s.mem.host ((ring + 64 * ((y.head.toNat + i) % 2 ^ s.qSize 0)) % 2 ^ 62 + b);
      let n := (entry 0).getD 2 0#8 % 16#8;
      s.dispatching 0 && s.qEnabled 0 && y.next.isNone && decide (y.head ≠ y.tail) && decide (s.needs = [] ∧ s.sends = [] ∧ s.reqs = []) &&
      decide (2 ^ 62 ≤ ring) && decide (s.hostWay = .direct) && decide (y.remote = []) &&
      (decide (e.2.2 = 2) || decide (n.toNat + 1 ≤ (y.tail - y.head).toNat)) &&
      (decide (e.2.2 = 2) || (decide ((s.checkPacket 0 (wordsOf (8 * (n.toNat + 1)) ((List.range (n.toNat + 1)).flatMap entry)) none).1 = 0) == decide (e.2.2 = 0)))) = true := by
  decide +kernel
/-- COMPLETION_WRITE: one entry with room for it, and with none. -/
def completes (chead : W32) : State :=
  queued true { q0 with done := [{ (default : Compl) with tag := 7, status := stTimeout }], ctail := 0xFFFFFFFF#32, chead := chead }
theorem witness_completion : [0xFFFFFFF0#32, 0xFFFFFFEF#32].map (fun h => let s := completes h; let y := s.queue 0;
      (decide (y.running = []) && decide (y.irqs = 0) && decide (s.hostWay = .direct) && decide (qLocal 0 ≠ 255)
        , decide (2 ^ 62 ≤ (s.reg (qLoc .cmdQcring 0)).toNat / 32 * 32), decide ((y.ctail - y.chead).toNat < 2 ^ s.qCsize 0))) =
      [(true, true, true), (true, true, false)] := by decide +kernel

/-- PACKET_START, CLASS7 rows: a packet at the head of queue 0 of class 3, of class 7 not accepted, accepted, and with the limit reached. -/
def heads (cls dl bell : Nat) (acc : Bool) (order : List Nat) (op : Nat) : State :=
  let s := queued true { q0 with next := some { (default : Pkt) with id := 4, bell := bell, accepted := acc, words := hdr (op + cls * 2 ^ 20 + dl * 2 ^ 48) 0 } }
  (s.setReg (qLoc .cmdQcfg 0) 0x8E420000#64).modTower 0 fun w => { w with c7Order := order, reserveMj := 1500, stamp := 200#64 }
theorem witness_starts : (let s := heads 3 0 0 false [] 0; s.choice 0 = some 0 ∧ s.pktClass 0 (hdr (3 * 2 ^ 20) 0) = 3 ∧ (s.queue 0).next.isSome = true) ∧
    (let s := (heads 3 0 0 false [] 0).modTower 0 fun w => { w with inTower := true }; s.choice 0 = none) ∧
    (heads 7 9 200 false [] 0).pktClass 0 (hdr (7 * 2 ^ 20 + 9 * 2 ^ 48) 0) = 7 ∧ (heads 7 9 200 false [] 0).dispatching 0 = true ∧
    (let limit := max 1 (min 64 ((heads 7 9 200 false [] 0).fget cmdDispatchClass7QueueLimit 0));
      ((heads 7 9 200 false [] 0).tower 0).c7Order.length < limit ∧ limit ≤ ((heads 7 9 200 false (List.range 64) 0).tower 0).c7Order.length) := by decide +kernel
theorem witness_class7 : ((heads 7 9 200 true [4] 0).startable 0 { (default : Pkt) with id := 4, bell := 200, accepted := true, words := hdr (7 * 2 ^ 20 + 9 * 2 ^ 48) 0 }) = true ∧
    ((heads 7 9 200 true [5, 4] 0).startable 0 { (default : Pkt) with id := 4, bell := 200, accepted := true, words := hdr (7 * 2 ^ 20 + 9 * 2 ^ 48) 0 }) = false := by
  decide +kernel
/-- PACKET_DEADLINE: the last stamp before the deadline and the deadline; running commands that stop, a LAUNCH and one that goes on. -/
theorem witness_deadline : [(0, true), (1, false)].all (fun e => let s := heads 3 1 e.1 false [] 0;
      match (s.queue 0).next with | some k => decide ((hDeadline k.words ≠ 0 ∧ k.bell + 200 * hDeadline k.words ≤ s.stamp (qTower 0))) == e.2 | none => false) = true ∧
    [0x01, 0x31, 0x20, 0x00].all (fun op => let k := { running (hdr (op + 2 ^ 48) 0) with begun := true };
      let s := (queued true { q0 with running := [k] }).modTower 0 fun w => { w with stamp := 200#64 };
      (s.queue 0).next.isNone && decide (s.running? k.id = some (0, k)) && decide (k.status = 0) && decide (hOpcode k.words = op) &&
      decide (k.bell + 200 * hDeadline k.words ≤ s.stamp 0)) = true := by decide +kernel

/-! ## Commands -/

def cmdAt (op t c n : Nat) (ws : List (Nat × W64)) : Packet := pkt op ((1, BitVec.ofNat 64 (t + c * 2 ^ 8 + n * 2 ^ 16)) :: ws)
def lost0 : State := State.reset.modClu 3 127 fun x => { x with absent := true }
theorem witness_nop_fence : due (pkt 0x00 []) State.reset = true ∧
    (let p := pkt 0x01 [(1, 4#64)]; let k := { running p with begun := true, waits := [waitAgain] };
      let s := { starts p State.reset with queues := [(0, { (default : Queue) with running := [k] })] };
      dueB s 0 0x01 k = true ∧ hFlags p = 0 ∧ pbytes p 8 1 = 4 ∧ s.backsLeft 1 = false) := by decide +kernel
/-- TALLY_SET, TALLY_WAIT and MATRIX at the last tally of the last cluster, on an absent cluster and beyond the last. -/
theorem witness_tally_commands : [0x30, 0x31].all (fun op => let p := cmdAt op 3 127 127 [(2, 5#64)]; due p State.reset && decide (hOpcode p = op) &&
      decide ((State.reset.cluStatus 3 127) = 0) && !(State.reset.tower 3).inTower && due (cmdAt op 3 127 0 []) lost0 && decide (lost0.cluStatus 3 127 = stLost)) = true ∧
    [(4, 0, 0), (0, 128, 0), (0, 0, 128)].all (fun e => due (cmdAt 0x30 e.1 e.2.1 e.2.2 []) State.reset) = true ∧
    (tallyMet (cmdAt 0x31 0 0 0 []) 0 0 0 (State.reset.tally 0 0 0) ≠ tallyMet (cmdAt 0x31 0 0 0 []) 0 0 0 { State.reset.tally 0 0 0 with phase := true }) := by decide +kernel
theorem witness_signal : (let p := pkt 0x32 [(1, 0x7F7F038000#64)]; due p State.reset = true ∧ pbytes p 8 2 / 2 ^ 15 = 1 ∧ pbytes p 10 1 = 3 ∧ pbytes p 11 1 = 127 ∧
      pbytes p 12 1 = 127 ∧ State.reset.cluStatus 3 127 = 0) ∧
    (let p := pkt 0x32 [(1, 0x04040005#64)]; due p State.reset = true ∧ pbytes p 8 2 / 2 ^ 15 = 0 ∧ 3 < pbytes p 10 1) := by decide +kernel
theorem witness_matrix : (let p := cmdAt 0x21 0 0 1 []; let s := cells (words mxdDesc) (starts p (S x0)); let r := s.shelfRead 0 0 0 64;
      dueB s 0 0x21 (running p) = true ∧ s.cluReady 0 0 = 0 ∧ r.2.matrixFault 0 0 0 r.1 (readDescs r.1 1) = none ∧
      (r.2.clu 0 0).arr.queue.length + (r.2.clu 0 0).arr.runs + 1 ≤ 32) ∧ due (cmdAt 0x21 3 127 1 []) lost0 = true := by decide +kernel
/-- REMOTE: an embedded packet of one entry; of a wrong length; to module 4096. -/
theorem witness_remote : (let p := remote; due p State.reset = true ∧ embeddedLength 16 (p.drop 8) = hLength p ∧ pbytes p 8 2 ≤ 4095 ∧ pbytes p 10 2 ≤ 1023) ∧
    (let p := pkt 0x91 [(0, 0x10000#64)]; due p State.reset = true ∧ embeddedLength 16 (p.drop 8) ≠ hLength p) ∧
    (let p := pkt 0x91 [(1, 4096#64), (8, 0#64)]; due p State.reset = true ∧ embeddedLength 16 (p.drop 8) = hLength p ∧ 4095 < pbytes p 8 2) := by decide +kernel
/-- COPY of four bytes of host memory onto others, of transposed rows whose second is uncorrectable, without a grant, and of a bad form;
FILL of sixteen bytes of host memory, and of a range that ends outside it. -/
def copyPkt (src dst : Nat) (bytes rows mode : Nat) : Packet :=
  pkt 0x10 [(1, BitVec.ofNat 64 src), (2, BitVec.ofNat 64 dst), (3, BitVec.ofNat 64 (bytes - 1 + (rows - 1) * 2 ^ 32)), (4, 0x4000000040#64), (5, BitVec.ofNat 64 mode)]
theorem witness_copy : (let p := copyPkt (2 ^ 62) (2 ^ 62 + 2) 4 1 0; let s := starts p (queued true q0); dueB s 0 0x10 (running p) = true ∧ (s.checkCopy 0 p).1 = 0 ∧
      cMode p = 0 ∧ cRows p = 1 ∧ s.streamsHeld 0 1 (copyStreams p) = true ∧ s.hostWay = .direct ∧ isHost (cSrc p) = true ∧ isHost (cDst p) = true ∧ (cSrc p).toNat + cBytes p ≤ 2 ^ 63) ∧
    (let p := copyPkt 0x110000000000 (2 ^ 62) 2 2 0; let s := starts p (cells (List.replicate 64 (byteCode 1#8) ++ [poisonCode 0#8]) (bridged (S x0)));
      let r := s.creadRows (s.cmdAgent 0 (running p)) (cSrc p) (cRows p) (cSstride p) (cBytes p); dueB s 0 0x10 (running p) = true ∧ (s.checkCopy 0 p).1 = 0 ∧ cMode p ≤ 1 ∧
      r.st = 0 ∧ ((r.rows.take 2).map fun x => x.any isBad) = [false, true]) ∧
    (let p := copyPkt (2 ^ 62) (2 ^ 62 + 0x1000) 32 32 0x11; let s := starts p (queued true q0); dueB s 0 0x10 (running p) = true ∧ (s.checkCopy 0 p).1 = 0 ∧ cMode p = 1) ∧
    (let p := copyPkt 0 (2 ^ 62) 0x10000 1 0; let s := (starts p (queued true q0)).setReg ⟨.pwrPolicy, 0, 0, 0, 0⟩ 0#64; (s.checkCopy 0 p).1 = 0 ∧ s.streamsHeld 0 1 (copyStreams p) = false) ∧
    (let p := copyPkt 0 (2 ^ 62) 4 1 5; let s := starts p (queued true q0); dueB s 0 0x10 (running p) = true ∧ (s.checkCopy 0 p).1 ≠ 0 ∧ (s.checkCopy 0 p).1 < stWait) := by
  decide +kernel
def fillPkt (a n : Nat) : Packet := pkt 0x11 [(1, BitVec.ofNat 64 a), (2, BitVec.ofNat 64 (n - 1)), (4, 0x0807060504030201#64)]
theorem witness_fill_command : (let p := fillPkt (2 ^ 62) 16; let s := starts p (queued true q0); dueB s 0 0x11 (running p) = true ∧ (s.checkFill 0 p).1 = 0 ∧ fillValue p = false ∧
      fillRows p = 1 ∧ isHost (wordAt p 1) = true ∧ (wordAt p 1).toNat + fillBytes p ≤ 2 ^ 63) ∧
    (let p := fillPkt 0x1E0000000000 16; let s := starts p (queued true q0); dueB s 0 0x11 (running p) = true ∧ (s.checkFill 0 p).1 ≠ 0 ∧ (s.checkFill 0 p).1 < stWait) := by
  decide +kernel

end Sys2Proof.Tests
end

