-- ==== Sys2Proof/Tests/WitnessOrders.lean ====
section
/-! SUPPORT. For the statements about orders, the dispatch tick, reports, resets and sequences: states that meet the hypotheses of each
clause. -/

set_option Elab.async false

namespace Sys2Proof.Tests

open Sys2Proof Sys2Proof.Machine Sys2Proof.Claims

/-! ## Orders -/

theorem queues_next {s : State} (h : ∀ e ∈ s.queues, e.2.next = none) (j : Nat) : (s.queue j).next = none := by
  have : ∀ m : SMap Queue, (∀ e ∈ m, e.2.next = none) → (SMap.get default m j).next = none := fun m => by
    induction m with
    | nil => exact fun _ => rfl
    | cons e m ih =>
      intro h
      by_cases k : j = e.1
      · simpa [SMap.get, k] using h e (by simp)
      · simpa [SMap.get, k] using ih fun x hx => h x (by simp [hx])
  exact this _ h
def aloneB (s : State) (q : Nat) (k : Pkt) : Bool :=
  s.mod.ready && !s.mod.orders.isEmpty && s.mod.orders.all (fun o => decide (o.pkt = k.id ∧ o.safety = false ∧ o.tick < s.tickNow)) &&
  decide (s.running? k.id = some (q, k)) && decide (k.begun = true ∧ k.waits = [waitOrder] ∧ k.status = 0) && s.reqs.isEmpty &&
  decide (s.needs = [] ∧ s.sends = []) && [0, 1, 2, 3].all (fun t => !s.commitPending .cmdCommit t 0) && s.mod.healthStaged.isEmpty &&
  s.queues.all (fun e => e.2.next.isNone && e.2.running.all fun x => decide (x.id = k.id → x = k) && !x.waits.contains (Wait.dispatch s.mod.lead).code)
theorem alone_of {s : State} {q : Nat} {k : Pkt} (e : aloneB s q k = true) : Alone s q k := by
  simp only [aloneB, Bool.and_eq_true, decide_eq_true_eq, List.all_eq_true, Bool.not_eq_true', List.isEmpty_iff, Option.isNone_iff_eq_none] at e
  obtain ⟨⟨⟨⟨⟨⟨⟨⟨⟨a, b⟩, c⟩, d⟩, f⟩, g⟩, h⟩, i⟩, j⟩, l⟩ := e
  refine ⟨a, ⟨fun n => by simp [n] at b, c⟩, d, f, by simp [g], h, ⟨fun t ht => i t ?_, j⟩, queues_next fun x hx => (l x hx).1, fun x hx y hy => ((l x hx).2 y hy).1,
    fun x hx y hy n => ?_⟩
  · interval_cases t <;> simp
  · have := ((l x hx).2 y hy).2
    simp [n] at this
/-- A packet's orders accepted in dispatch tick 0, at the end of which the next tick stands. -/
def ordered (p : Packet) (s : State) : State :=
  let k : Pkt := { running p with begun := true, waits := [waitOrder] }
  let s1 : State := { s with queues := [(0, { (default : Queue) with running := [k] })], mod := { s.mod with ready := true } }
  let s2 : State := { s1 with mod := { s1.mod with orders := (s1.ordersOf 0 p ++ [(tgtMark 1, 0)]).map fun (x : List Nat × Nat) => ⟨x.1, x.2, 0, 1, 0, false⟩ } }
  s2.modTower 0 fun w => { w with stamp := 200#64 }
def waitsTick (p : Packet) (s : State) : Bool := aloneB (ordered p s) 0 { running p with begun := true, waits := [waitOrder] }

/-- One field of a record; the record's tower mask. -/
def config (r mask n v : Nat) : Packet := pkt 0x40 [(1, BitVec.ofNat 64 (r + mask * 2 ^ 16 + n * 2 ^ 24)), (2, BitVec.ofNat 64 v)]
def policy (first last n : Nat) : Packet := pkt 0x42 [(1, BitVec.ofNat 64 (first + last * 2 ^ 16 + n * 2 ^ 32)), (2, 1#64)]
def budget (m t0 t1 t2 t3 : Nat) : Packet :=
  pkt 0x50 [(1, BitVec.ofNat 64 m), (2, BitVec.ofNat 64 (t0 + t1 * 2 ^ 32)), (3, BitVec.ofNat 64 (t2 + t3 * 2 ^ 32))]
def domain (t i act cap : Nat) : Packet := pkt 0x52 [(1, BitVec.ofNat 64 (t + i * 2 ^ 16 + act * 2 ^ 24 + cap * 2 ^ 32))]
def linkCtl (act n id v : Nat) : Packet := pkt 0x90 [(1, BitVec.ofNat 64 (act + n * 2 ^ 8 + id * 2 ^ 16 + v * 2 ^ 32))]
def awake (t c : Nat) (d : DomState) (s : State) : State := s.modClu t c fun x => { x with dom := d }

/-- OrdersAreAccepted: packets that pass, and one that fails, each check. -/
theorem witness_orders : [config 0x0901 1 1 4, policy 0 4095 9, budget 5600 1400 1400 1400 1400, domain 3 127 0 0, domain 3 127 1 0, domain 0 0 2 100,
      linkCtl 0 0 4095 0x80000000].all (fun p => due p State.reset && decide ((State.reset.checkOrder 0 p).1 = 0)) = true ∧
    [config 0x0901 1 10 0, config 0x7777 1 1 0, policy 0 0 10, policy 1 0 1, domain 4 0 0 0, linkCtl 0 0 4096 0].all (fun p =>
      due p State.reset && decide ((State.reset.checkOrder 0 p).1 ≠ 0)) = true ∧
    (recFields (gRec (config 0x0901 1 10 0))).length < gCount (config 0x0901 1 10 0) := by decide +kernel
theorem witness_order_states : (State.reset.modTower 3 fun w => { w with fence := 1 }).checkOrder 0 (domain 3 0 0 0) ≠ (0, 0) ∧
    (lost0.clu 3 127).absent = true ∧ (S x0).occupied 0 0 = true ∧ State.reset.mod.bridge = none ∧ 2 ≤ pbytes (linkCtl 2 31 0 0) 8 1 ∧
    ((linked up).port 3 7).mode = .up ∧ ((linked up).port 3 7).retrains < (linked up).retrainLimit 3 ∧ lcPort (linkCtl 2 31 0 0) = (3, 7) ∧
    ((linked up).port 3 6).mode = .disabled := by decide +kernel
/-- TheDispatchTickAppliesOrders: one packet of each kind alone, and two budgets in one tick. -/
theorem witness_tick : [budget 7201 370 2001 0 0, domain 3 127 1 0, domain 0 0 2 65535, linkCtl 0 0 4095 0x80000000, policy 5 6 8, config 0x0901 1 1 5].all (fun p =>
      waitsTick p State.reset) = true ∧ waitsTick (domain 0 0 0 0) (awake 0 0 .on State.reset) = true ∧
    waitsTick (domain 0 0 0 0) (awake 0 0 .retention State.reset) = true ∧ ((awake 0 0 .retention State.reset).clu 0 0).dom = .retention ∧
    gMask (config 0x0901 1 1 5) = 2 ^ 0 ∧ fld (State.reset.stg ⟨.panPolicy, 0, 0, 0, 0⟩) panPolicyLarderQuota.hi panPolicyLarderQuota.lo ≤ 11 ∧
    (let m := max 2000 (min 7200 (pbModule (budget 7201 370 2001 0 0))); 370 + 2000 + 1400 + 1400 ≤ m) := by decide +kernel
def twoBudgets : State :=
  let k (id m : Nat) : Pkt := { running (budget m 0 0 0 0) with id := id, begun := true, waits := [waitOrder] }
  ({ State.reset with queues := [(0, { (default : Queue) with running := [k 1 2000] }), (1, { (default : Queue) with running := [k 2 7200] })],
                      mod := { State.reset.mod with ready := true, orders := [⟨tgtModule, 2000, 0, 1, 0, false⟩, ⟨tgtModule, 7200, 1, 2, 0, false⟩] } } : State).modTower 0 fun w => { w with stamp := 200#64 }
theorem witness_conflict : (let s := twoBudgets; s.mod.ready = true ∧ 0 < s.tickNow ∧ s.qMaster 0 = s.qMaster 1 ∧ (s.running? 1).isSome = true ∧ (s.running? 2).isSome = true ∧
      s.needs = [] ∧ s.sends = [] ∧ s.reqs = []) := by decide +kernel
/-- GUARD_POLICY_COMMIT of one entry, with clear bits 0 and 2, a packet waiting for it. -/
theorem witness_guard_commit : (let f : List Nat := [1, 2, 0, 0, 0, 0, 0, 0, 5]; let k := { running (policy 5 5 9) with begun := true, waits := [Wait.guard.code], status := stOK };
      let s : State := { State.reset with policyStaged := [(5, f)], esc := [(5, .escalated)], queues := [(0, { (default : Queue) with running := [k] })] };
      s.policyStaged = [(5, f)] ∧ f.getD 8 0 / 4 % 2 = 1 ∧ s.escOf 5 = .escalated ∧ s.running? k.id = some (0, k) ∧ hQuiet k.words = false) ∧
    (let f : List Nat := [1, 2, 0, 0, 0, 0, 0, 0, 1]; f.getD 8 0 = 1) := by decide +kernel

/-! ## Reports -/

/-- A report to host address 0: its parameters from byte 16 on, its capacity. -/
def report (op w2 w3 : Nat) : Packet := pkt op [(1, 0x4000000000000000#64), (2, BitVec.ofNat 64 w2), (3, BitVec.ofNat 64 w3)]
def hosted : State := bridged (linked up)
def fitsB (s : State) (p : Packet) (a : W64) (bs : List Byte) : Bool :=
  let w := s.cwriteB (s.cmdAgent 0 (running p)) a bs
  decide (s.crange 0 a bs.length = 0) && decide (w.st = 0) && decide (w.s.sends = [] ∧ w.s.needs = []) && w.s.reqs.all fun r => decide (r.owner ≠ cmdOwner 0 1)
def reports (p : Packet) (bs : State → List Byte) : Bool :=
  let s := starts p hosted
  dueB s 0 (hOpcode p) (running p) && fitsB s p (wordAt p 1) (bs s)
theorem witness_query : reports (report 0x41 0 128) (fun s => s.queryModule 0) = true ∧ due (report 0x41 0 127) hosted = true ∧
    (let p := report 0x41 (1 + 0x0901 * 2 ^ 16) 64; let v := (starts p hosted).recordValues 0x0901 0 0; v.1 = 0 ∧ v.2 ≠ [] ∧ 4 * v.2.length ≤ 64 ∧
      reports p (fun _ => v.2.flatMap fun x => leBytes 4 x) = true) ∧ ((starts (report 0x41 1 64) hosted).recordValues 0 0 0).1 ≠ 0 := by decide +kernel
theorem witness_power_query : reports (report 0x51 288 0) (fun s => s.powerHeader 0 ++ (List.range 4).flatMap s.powerRecord) = true ∧ due (report 0x51 287 0) hosted = true := by
  decide +kernel
/-- TELEMETRY of guard record 5 of tower 3 and of tower 3's power record, clearing; a range that ends before its first tag. -/
theorem witness_telemetry : (let p := pkt 0x80 [(0, 0x1000#64), (1, 0x4000000000000000#64), (2, BitVec.ofNat 64 (8 * 2 ^ 8 + 5 * 2 ^ 16 + 5 * 2 ^ 32)), (3, 256#64)];
      hFlags p = 1 ∧ telemetryNames p = [(3, 5)] ∧ reports p (fun s => (telemetryNames p).flatMap fun e => s.guardRecord e.1 e.2) = true ∧ (hosted.tower 3).fence = 0 ∧
      ((telemetryNames p).flatMap fun e => hosted.guardRecord e.1 e.2).length ≤ 256) ∧
    (let p := report 0x80 (1 + 8 * 2 ^ 8) 64; telemetryNames p = [(3, 0)] ∧ reports p (fun s => (telemetryNames p).flatMap fun e => s.powerRecord e.1) = true ∧ hFlags p % 2 = 0) ∧
    (let p := report 0x80 (8 * 2 ^ 8 + 5 * 2 ^ 16 + 4 * 2 ^ 32) 64; pbytes p 20 2 < pbytes p 18 2 ∧ due p hosted = true) := by decide +kernel
theorem witness_log_read : (let p := report 0x81 1 32; reports p (fun s => (s.mod.log.filter fun e => decide ((wordAt p 2).toNat ≤ e.seq)).flatMap LogEnt.bytes) = true ∧
      (hosted.mod.log.filter fun e => decide (1 ≤ e.seq)).getLast?.isSome = true ∧ ((hosted.mod.log.filter fun e => decide (1 ≤ e.seq)).flatMap LogEnt.bytes).length ≤ 32) ∧
    due (report 0x81 1 31) hosted = true ∧ hosted.qMaster 0 ≠ 1 ∧ (hosted.setReg (qLoc .cmdQcfg 0) 0x10000000#64).qMaster 0 = 1 := by decide +kernel
/-- CVU_SET and CVU_GET of context 7 of an array's, an engine's and a bridge's unit; of a context and a tower that have none; of widths 1 and 64. -/
def cvuPkt (op k t i n w : Nat) : Packet :=
  pkt op [(1, BitVec.ofNat 64 (k + t * 2 ^ 8 + i * 2 ^ 16 + n * 2 ^ 24 + w * 2 ^ 32)), (2, 0x4000000000000003#64)]
theorem witness_cvu : [(0, 3, 127, 1), (1, 3, 7, 64), (2, 1, 0, 8)].all (fun e => let p := cvuPkt 0x70 e.1 e.2.1 e.2.2.1 7 e.2.2.2; due p State.reset &&
      decide ((State.reset.checkCvu 0 p).1 = 0) && decide (pbytes p 13 1 / 16 % 2 = 0) && decide (1 ≤ pbytes p 12 1 ∧ pbytes p 12 1 ≤ 64)) = true ∧
    [cvuPkt 0x70 0 0 0 8 8, cvuPkt 0x71 2 2 0 0 8].all (fun p => due p State.reset && decide ((State.reset.checkCvu 0 p).1 ≠ 0)) = true ∧
    (let p := cvuPkt 0x71 0 0 0 0 8; let s := starts p hosted; dueB s 0 0x71 (running p) = true ∧ (s.checkCvu 0 p).1 = 0 ∧ fitsB s p (wordAt p 2) (s.cvuReply p) = true) := by
  decide +kernel

/-! ## Resets and sequences -/

def rst (scope t c : Nat) : Packet := pkt 0x60 [(1, BitVec.ofNat 64 (scope + t * 2 ^ 8 + c * 2 ^ 16))]
/-- ResetsBeginAndEnd: each scope, at its last target; one that is not there, one lost; one inside another; the bridge's tower from a host ring. -/
theorem witness_resets : [rst 0 3 127, rst 1 3 0, rst 2 3 0, rst 3 3 0, rst 4 3 0, rst 5 0 0].all (fun p => due p State.reset && State.reset.mod.waiting.isEmpty &&
      !(running p).begun && (running p).waits.isEmpty) = true ∧ (State.reset.tower 3).fence = 0 ∧ (State.reset.clu 3 127).absent = false ∧
    [rst 4 4 0, rst 0 0 128].all (fun p => due p State.reset) = true ∧ (lost0.clu 3 127).absent = true ∧
    resetWithin (0, 3 * 128 + 127) (4, 3) = true ∧ resetWithin (4, 3) (5, 0) = true ∧ (queued true q0).mod.bridge = some 0 ∧ (queued true q0).ringsHost 0 = true ∧
    State.reset.ringsHost 0 = false := by decide +kernel
/-- In progress, with its waves ended and not; a command that waits for its end; a TOWER reset one tick before 10 s and at it. -/
def inReset (scope x : Nat) (now : Nat) : State := { State.reset with mod := { State.reset.mod with waiting := [(scope, x, 0)], aonStamp := now } }
theorem witness_reset_end : [(0, 511), (1, 3), (2, 3), (3, 3), (4, 3)].all (fun e => let s := inReset e.1 e.2 0; s.wavesDone 3 &&
      s.mod.waiting.any fun w => decide (w.1 = e.1 ∧ w.2.1 = e.2)) = true ∧ ((inReset 4 3 0).modTower 3 fun w => { w with hot := [5] }).wavesDone 3 = false ∧
    (let k := { running (rst 4 3 0) with begun := true, waits := [(resetWait 4 3).code], status := stOK };
      let s := { inReset 4 3 0 with queues := [(0, { (default : Queue) with running := [k] })] }; s.running? k.id = some (0, k) ∧ hQuiet k.words = false) ∧
    (inReset 4 3 1999999999).mod.aonStamp < 0 + 2000000000 ∧ 0 + 2000000000 ≤ (inReset 4 3 2000000000).mod.aonStamp ∧
    (inReset 4 3 0).mod.waiting.find? (fun w => w.1 = 4 && w.2.1 = 3) = some (4, 3, 0) := by decide +kernel
/-- PREEMPT: an accepted class-7 LAUNCH wants the cluster, a stamp before the slice's end and at it. -/
def wantedAt (now : Nat) : State :=
  let s := (S x0).setReg (qLoc .cmdQcfg 0) 0x8E420000#64
  let k : Pkt := { (default : Pkt) with id := 8, accepted := true, words := (launchPacket 0 1 2).set 0 (BitVec.ofNat 64 (0x20 + 2 ^ 16 + 7 * 2 ^ 20 + 2 ^ 48)) }
  ({ s with queues := [(0, { (default : Queue) with next := some k })], mod := { s.mod with launches := [⟨1, 0, 1, [0], none, 0, 0⟩] } } : State).modTower 0 fun w =>
    { w with stamp := BitVec.ofNat 64 now }
theorem witness_preempt : (let n := 200 * max 10 (min 1000 (State.reset.fget cmdDispatchSliceUs 0)); (wantedAt n).wanted 0 0 = true ∧ n ≤ (wantedAt n).stamp 0 ∧
      (wantedAt (n - 1)).stamp 0 < n ∧ ((wantedAt n).clu 0 0).team = some tm0 ∧ ((wantedAt n).launch? tm0.launch).isSome = true) := by decide +kernel
/-- A context of one tally, at HBM address 0; its image in host memory. -/
def ctx0 : SeqCtx := ⟨0, [], [(0, 0, 3)]⟩
def described : State :=
  let u (n : Nat) : HbmUnit := let d := BitVec.ofNat 256 n; ⟨d, hbmCheck d, false⟩
  withMem (fun m => { m with hbm := [(unitKey 0 0, u (0x58435153 + 2 ^ 32 + 2 ^ 48)), (unitKey 0 2, u (3 * 2 ^ 16))] }) hosted
def seqPkt (op n : Nat) : Packet := pkt op [(1, 0x4000000000000000#64), (2, BitVec.ofNat 64 n)]
def imaged : State := withMem (fun m => { m with host := (((described.imageOf 0 ctx0 []).zipIdx.filter fun e => decide (e.1 ≠ 0#8)).map fun e => (e.2, e.1)) }) described
theorem witness_snapshot : (let p := seqPkt 0x61 192; let s := starts p described; let x := s.readCtx 0 (running p); dueB s 0 0x61 (running p) = true ∧
      (x.ctx.map fun c => (c.user, c.exts.length, c.tallies)) = some (0, 0, [(0, 0, 3)]) ∧ s.streamsHeld 0 1 (seqStreams ctx0 (wordAt p 1)) = true ∧ ctx0.size = 128 ∧
      x.did.s.crange 0 (wordAt p 1) ctx0.size = 0 ∧ (x.did.s.readExts (s.cmdAgent 0 (running p)) []).st = 0) ∧ due (seqPkt 0x61 127) described = true := by decide +kernel
theorem witness_restore : (let p := seqPkt 0x62 128; let s := starts p imaged; let k := running p; let x := s.readCtx 0 k; let g := s.cmdAgent 0 k;
      let h := x.did.s.cread g (wordAt p 1) ctx0.tables; let y := h.s.cread g (wordAt p 1) 128;
      dueB s 0 0x62 k = true ∧ x.ctx.isSome = true ∧ h.st = 0 ∧ h.s.needs = [] ∧ (imageDiff ctx0 128 h.data (h.data.drop 64)).isNone = true ∧ y.st = 0 ∧
      crc64xz ((y.data.drop 64).map dataOf) = numAt y.data 40 8) ∧
    (let p := seqPkt 0x62 128; let s := starts p described; let k := running p; let x := s.readCtx 0 k;
      let h := x.did.s.cread (s.cmdAgent 0 k) (wordAt p 1) ctx0.tables; imageDiff ctx0 128 h.data (h.data.drop 64) = some 0xFFFF) ∧ due (seqPkt 0x62 63) imaged = true := by decide +kernel

end Sys2Proof.Tests
end

