-- ==== Sys2Proof/Tests/WitnessModule.lean ====
section
/-! SUPPORT. For the statements about power, heat, supply, clocks, firmware, bring-up, management, registers and the invariants: states
that meet the hypotheses of each clause. -/

set_option Elab.async false

namespace Sys2Proof.Tests

open Sys2Proof Sys2Proof.Machine Sys2Proof.Claims

/-! ## Power and heat -/

/-- Tower 3 powered, as given. -/
def hot3 (f : Tower → Tower) : State := State.reset.modTower 3 fun w => f { w with on := true }
def ask (dom cur cls : Nat) : GrantReq :=
  { requester := 5#12, domain := BitVec.ofNat 10 dom, current := BitVec.ofNat 16 cur, duration := 0#16, cls := ⟨cls % 8, Nat.mod_lt _ (by decide)⟩, fast := false }
theorem witness_grants : (hot3 id).fits 3 (ask 0 16 3) = true ∧ (hot3 fun w => { w with guardOn := true }).fits 3 (ask 0 16 3) = false ∧ ((hot3 id).tower 3).fence = 0 ∧
    (ask 0 16 3).current ≠ 0#16 ∧ ((hot3 id).tower 3).grantQ = [] ∧ (∃ x ∈ ((hot3 fun w => { w with grantQ := [ask 0 16 3] }).tower 3).grantQ,
      (hot3 fun w => { w with grantQ := [ask 0 16 3] }).fits 3 x = true) ∧
    (State.reset.setReg ⟨.pwrCommit, 3, 0, 0, 0⟩ 2#64).commitPending .pwrCommit 3 0 = true ∧ State.reset.commitPending .pwrCommit 3 0 = false := by decide +kernel
/-- Windows at the budget and below it; with the energy below, at and 2 % above what the grants foresaw. -/
theorem witness_windows : (let s := hot3 fun w => { w with windowMj := 1000 }; (s.tower 3).guardOn = false ∧ s.effectiveMw 3 ≤ (s.effectiveMw 3).ceil.toNat ∧
      ((0 : Nat) : ℚ) < s.effectiveMw 3 ∧ (s.tower 3).windowMj = 1000 ∧ ((999 : Nat) : ℚ) < (s.tower 3).windowMj ∧ (s.tower 3).windowMj ≤ (1020 : Nat) ∧
      ((1020 : Nat) : ℚ) ≤ (s.tower 3).windowMj * 102 / 100 ∧ (s.tower 3).windowMj * 102 / 100 < (1021 : Nat) ∧ ((2000 : Nat) : ℚ) ≤ 2 * (s.tower 3).windowMj) ∧
    (State.reset.tower 3).on = false := by decide +kernel
theorem witness_wakes : (let s := hot3 fun w => { w with hot := [0, 127] }; (s.tower 3).hot.Nodup ∧ (s.tower 3).hot ≠ [] ∧ (s.tower 3).waveUsed ≠ wavePeriod (s.stamp 3) 3 + 1) ∧
    (let s := (hot3 fun w => { w with hot := [5] }).modTower 3 fun w => { w with waveUsed := wavePeriod (State.reset.stamp 3) 3 + 1 };
      (s.tower 3).waveUsed = wavePeriod (s.stamp 3) 3 + 1) ∧
    ((awake 3 127 .waking (hot3 id)).clu 3 127).selfTested = false ∧
    (((awake 3 127 .waking (hot3 id)).modClu 3 127 fun x => { x with selfTested := true }).clu 3 127).selfTested = true ∧
    ((awake 3 127 .on (hot3 id)).clu 3 127).dom = .on ∧ ((awake 3 127 .on (hot3 id)).clu 3 127).absent = false := by decide +kernel
/-- PHASE_LOST: the first and the second phase of an attic domain, of a cellar domain and of a domain that cannot lose one; the S variant. -/
def loses (d n : Nat) (v : Variant) : State :=
  let s := hot3 fun w => { w with phasesLost := if n = 0 then [] else [(d, n)] }
  { s with mod := { s.mod with variant := v } }
theorem witness_phases : [(0x00, 0, Variant.x), (0x87, 1, .x), (0x100, 0, .x), (0x287, 1, .x), (0x300, 0, .x), (0x322, 0, .x), (0x00, 0, .s), (0x100, 0, .s)].all (fun e =>
      let s := loses e.1 e.2.1 e.2.2; isDomain s.mod.variant 3 e.1 && decide (s.lostPhases 3 e.1 = e.2.1) &&
      decide (s.lostPhases 3 e.1 < max 1 (domPhases s.mod.variant e.1))) = true ∧ isDomain .x 3 0x323 = false ∧ (loses 0 0 .s).logical 3 0 = some 0 ∧
    max 1 (domPhases .x 0) ≤ (loses 0 4 .x).lostPhases 3 0 := by decide +kernel
def supply (f : Module → Module) : State := { State.reset with mod := f State.reset.mod }
/-- SupplyEventsActOnTheModule: 10.8 V and 1 mV below it, before and during a sag; 9.6 V and 1 mV below it; 13.8 V and 1 mV above it for
100 µs and 101 µs; the rails on and off. -/
theorem witness_supply : (supply fun m => { m with railsOn := true }).mod.sagged = false ∧ (supply fun m => { m with railsOn := true, sagged := true, vinMv := 9599 }).mod.vinMv < 9600 ∧
    9600 ≤ (supply fun m => { m with vinMv := 9600 }).mod.vinMv ∧ 10799 < 10800 ∧ 13800 < 13801 ∧ 100 < 101 ∧ State.reset.mod.overvolt = false ∧
    State.reset.mod.pwrEn = true ∧ State.reset.mod.railsOn = false ∧ (supply fun m => { m with pwrEn := false }).mod.pwrEn = false ∧ State.reset.queues = [] := by decide
/-- ThermalLimitsHold: each die at its limit and below it by 2 °C and 3 °C; at its trip value for 100 µs; a suspect estimate. -/
def warm (ts : List Int) (lim : Option Nat) : State := hot3 fun w => { w with temps := ts, thermalMw := lim }
theorem witness_heat : (let s := warm [105000, 95000, 0, 95000, 95000] none; [0, 1, 2, 3].all (fun d => decide (limitOf d ≤ (s.tower 3).dieTemp d)) = true ∧ (s.tower 3).halvedDies = []) ∧
    (let s := (warm [105000, 0, 0, 0, 0] none).setReg ⟨.pwrBudget, 3, 0, 0, 0⟩ (State.reset.reg ⟨.pwrBudget, 3, 0, 0, 0⟩); 0 < s.setBudget 3 ∧ s.setBudget 3 = 1400 ∧
      (s.standingMw 3).ceil.toNat + 20 * s.setBudget 3 ≤ s.setBudget 3 * 1000 ∧ limitOf 0 - (max 2 (s.fget pwrPolicyThrottleMarginC 3) : Nat) * 1000 ≤ (s.tower 3).dieTemp 0) ∧
    (let s := warm [] (some 1000000); [0, 1, 2, 3].all (fun d => decide ((s.tower 3).dieTemp d < limitOf d - ((max 2 (s.fget pwrPolicyThrottleMarginC 3) : Nat) * 1000 + 3000))) = true ∧
      1000000 ≤ s.setBudget 3 * 1000) ∧
    (warm [104999, 94999, 0, 94999, 94999] none).tower 3 ≠ (warm [] none).tower 3 ∧ ((warm [102999, 0, 0, 0, 0] none).tower 3).dieTemp 0 < limitOf 0 - 2000 := by decide +kernel
def standing (now : Nat) : State := hot3 fun w => { w with temps := [115000, 105000, 0, 105000, 105000], tripSince := [(0, 1), (1, 1), (2, 1), (3, 1)], stamp := BitVec.ofNat 64 now }
theorem witness_trip : [0, 1, 2, 3].all (fun d => decide (tripOf d ≤ ((standing 20000).tower 3).dieTemp d) && decide (SMap.get 0 ((standing 20000).tower 3).tripSince d = 1)) = true ∧
    1 + 20000 ≤ (standing 20000).stamp 3 + 1 ∧ (standing 19999).stamp 3 + 1 < 1 + 20000 ∧
    (let s := hot3 fun w => { w with estRun := [(15, 1)], stamp := 4000000#64 }; SMap.get 0 (s.tower 3).estRun 15 ≠ 0 ∧ 1 + 4000000 ≤ s.stamp 3 + 1 ∧ (s.tower 3).suspect = false) := by
  decide +kernel

/-! ## Clocks, firmware and bring-up -/

/-- Tower 3 and its clock; the module's bring-up at a phase. -/
def stage (ph : Nat) (f : Module → Module) : State :=
  let s := (hot3 fun w => { w with stamp := 9#64 }).modTower 0 fun w => { w with on := true, stamp := 10#64 }
  { s with mod := f { s.mod with phase := ph, railsOn := true } }
theorem witness_clocks : (let s := stage 8 fun m => { m with pllPhase := [true, true, true, true] }; s.mod.pllPhase.getD 3 false = true ∧ s.mod.holdover.length = 4 ∧
      s.mod.holdover.getD 3 false = false ∧ s.mod.lead ≠ 3 ∧ (s.tower 3).inTower = false ∧ (s.tower 3).stamp.toNat < (s.tower 0).stamp.toNat) ∧
    (stage 8 fun m => { m with holdover := [false, false, false, true] }).mod.holdover.getD 3 false = true ∧
    (let s := stage 2 id; s.mod.phase = 2 ∧ (s.tower 3).on = true ∧ (s.tower 3).fence = 0 ∧ s.mod.pllPhase.getD 3 false = false ∧ s.mod.pllPhase.length = 4) ∧
    (stage 2 fun m => { m with aonTower := 0 }).mod.aonUp.getD 1 false = true := by decide +kernel
/-- A malformed package from the flash, the first and the last source of a strap's order; a staging length; an update before and after READY. -/
theorem witness_firmware : (let s := stage 1 fun m => { m with fwSource := 2 }; s.mod.phase = 1 ∧ s.mod.railsOn = true ∧ s.mod.fwFail = 0 ∧ s.delivers 2 [] = true ∧ pkgStep [] ≠ 0) ∧
    ((fwOrder 3).filter fun x => x ∉ ([] : List Nat) ∧ x ≠ 2) = [1, 0] ∧ ((fwOrder 2).filter fun x => x ∉ ([] : List Nat) ∧ x ≠ 2) = [] ∧
    (let s := stage 1 fun m => { m with fwSource := 0, bridge := some 0, linkUp := true }; s.hostUp = true ∧ s.mod.staging = none ∧ s.mod.fwSource = 0) ∧
    (stage 8 fun m => { m with ready := true }).mod.ready = true ∧ (stage 15 id).mod.phase = 15 := by decide +kernel
/-- BringUpReachesReady: each phase; a failing shelf in the last place of tower 3; a cluster that tests itself, with and without a spare. -/
def findings : TestFindings := ⟨[], [(3, 7, 16)], []⟩
theorem witness_bring_up : (stage 3 id).mod.phase = 3 ∧ (stage 4 fun m => { m with warm := true }).mod.warm = true ∧ (stage 5 fun m => { m with findings := some findings }).mod.findings = some findings ∧
    ((stage 5 id).tower 3).fence = 0 ∧ (stage 7 id).portsSettled = true ∧ (linked { up with mode := .training }).portsSettled = false ∧
    (let s := awake 3 127 .waking (stage 6 id); s.logical 3 (17 * 7 + 16) = some 127 ∧ (s.clu 3 127).selfTested = false ∧ gridRow 127 = 7 ∧ s.spare 3 7 = 0xFF ∧
      17 * 7 + 8 ∉ (s.tower 3).lostPos ∧ s.absents 3 = [] ∧ s.logical 3 (17 * 7 + 8) = none) ∧
    (let s := (awake 3 127 .waking (stage 6 id)).modTower 3 fun w => { w with spares := [(7, 0)] }; s.spare 3 7 ≠ 0xFF ∧ s.spare 3 7 ≠ 8 ∧ s.logical 3 (17 * 7 + 16) = some 127) ∧
    (let m := (stage 8 fun m => { m with ready := true, ceNow := 10001, ceOver := 5 }).mod; m.ceThreshold < m.ceNow ∧ m.ceWindows ≤ min 255 (m.ceOver + 1)) := by decide +kernel

/-! ## Management -/

def managed (f : Module → Module) : State := { State.reset with mod := f { State.reset.mod with ready := true } }
/-- A vendor message of one NOP; the management queue enabled, and full. -/
def nopMsg : List Byte := 1#8 :: List.replicate 67 0#8
theorem witness_management : (∃ b ∈ (managed id).mod.aonUp, b = true) ∧ ¬ (∃ b ∈ (managed fun m => { m with aonUp := [false, false] }).mod.aonUp, b = true) ∧
    (managed id).mod.seed = none ∧ (managed fun m => { m with seed := some 1#384, certs := [1#8] }).mod.seed = some 1#384 ∧ (vendorPackets nopMsg).isSome = true ∧ (vendorPackets []).isNone = true ∧
    (managed id).qEnabled 255 = true ∧ State.reset.qEnabled 255 = false ∧ ((managed id).queue 255).tail = 0#32 ∧ (67 + 1 - 4) / 64 = 1 ∧
    (let s := { managed id with queues := [(255, { (default : Queue) with tail := 16#32 })] }; 2 ^ s.qSize 255 < ((s.queue 255).tail - (s.queue 255).head).toNat + 1) := by decide +kernel
theorem witness_management_data : (let read : List Byte := 2#8 :: List.replicate 11 0#8 ++ [32#8, 0#8]; (managed id).vendorRange 2 read = some (0#64, 32) ∧
      ((managed id).gread (managed id).mgmtAgent 0#64 32).st = 0 ∧ ((managed id).gread (managed id).mgmtAgent 0#64 32).data.any isBad = false) ∧
    (managed id).vendorRange 2 [] = none ∧ ((managed id).vendorRange 3 (3#8 :: List.replicate 11 0#8 ++ [2#8, 0#8, 7#8, 8#8]) = some (0#64, 2)) ∧
    (∀ e ∈ (managed fun m => { m with acked := 1 }).mod.log, e.seq ≤ 1) ∧ ((managed id).mod.log.all fun e => decide (0 < e.seq ∧ e.seq ≤ (managed id).mod.newest)) = true := by decide +kernel

/-! ## Registers and invariants -/

def fallsB (s : State) (addr size : Nat) (l : Loc) (b : Nat) : Bool :=
  decide (0x1F0000000000 ≤ addr ∧ addr < 0x1F0400000000) && decide (size = 4 ∨ size = 8) && decide (addr % size = 0) &&
  s.mmioOpen (addr / 2 ^ 32 % 4) (addr % 2 ^ 32) && (List.range size).all fun i => decide (locate (addr / 2 ^ 32 % 4) (addr % 2 ^ 32 + i) = some (l, b + i))
theorem falls_of {s : State} {addr size : Nat} {l : Loc} {b : Nat} (e : fallsB s addr size l b = true) : FallsOn s addr size l b := by
  simp only [fallsB, Bool.and_eq_true, decide_eq_true_eq, List.all_eq_true, List.mem_range] at e
  exact ⟨e.1.1.1.1, e.1.1.1.2, e.1.1.2, e.1.2, e.2⟩
/-- The address of byte b of a register in tower 3's window. -/
def regAt (r : RegName) (b : Nat) : Nat := 0x1F0300000000 + (r.place.base + r.place.off + b)
/-- RegisterWritesFollowTheirAccessCodes, RegisterReadsClearAndLatch, WritesOfReadOnlyFieldsAreIgnored: a write of a whole register and of a high
half, two registers under one access, a place where no register lies, a register that latches and its high half. -/
theorem witness_registers : FallsOn State.reset (regAt .celFlipmask 0) 8 ⟨.celFlipmask, 3, 0, 0, 0⟩ 0 ∧ takesWrites ⟨.celFlipmask, 3, 0, 0, 0⟩ = true ∧
    FallsOn State.reset (regAt .pwrPolicy 4) 4 ⟨.pwrPolicy, 3, 0, 0, 0⟩ 4 ∧ takesWrites ⟨.pwrPolicy, 3, 0, 0, 0⟩ = true ∧
    State.reset.mmioOpen 3 0x10000000 = true ∧ (State.reset.modTower 3 fun w => { w with fence := 1 }).mmioOpen 3 0x10000000 = false :=
  ⟨falls_of (by decide +kernel), rfl, falls_of (by decide +kernel), rfl, by decide +kernel, by decide +kernel⟩
theorem witness_register_reads : FallsOn State.reset (regAt .lnkErrCnt 0) 8 ⟨.lnkErrCnt, 3, 0, 0, 0⟩ 0 ∧ FallsOn State.reset (regAt .lnkErrCnt 0) 4 ⟨.lnkErrCnt, 3, 0, 0, 0⟩ 0 ∧
    FallsOn State.reset (regAt .lnkErrCnt 4) 4 ⟨.lnkErrCnt, 3, 0, 0, 0⟩ 4 ∧ RegName.latches .lnkErrCnt = true ∧ RegName.measured .lnkErrCnt = false ∧
    isDomain State.reset.mod.variant 3 0x322 = true ∧ ((List.range 4).all fun i => (locate 3 (0x1FFFFFF0 + i)).isNone) = true :=
  ⟨falls_of (by decide +kernel), falls_of (by decide +kernel), falls_of (by decide +kernel), by decide, by decide, by decide, by decide +kernel⟩
theorem witness_route_pair : FallsOn State.reset (regAt .lnkRoute 0) 4 ⟨.lnkRoute, 3, 0, 0, 0⟩ 0 ∧ FallsOn State.reset (regAt .lnkRoute 0 + 4) 4 ⟨.lnkRoute, 3, 0, 1, 0⟩ 0 ∧
    regAt .lnkRoute 0 % 8 = 0 ∧ takesWrites ⟨.lnkRoute, 3, 0, 0, 0⟩ = true ∧ takesWrites ⟨.lnkRoute, 3, 0, 1, 0⟩ = true ∧
    Loc.key ⟨.lnkRoute, 3, 0, 0, 0⟩ ≠ Loc.key ⟨.lnkRoute, 3, 0, 1, 0⟩ :=
  ⟨falls_of (by decide +kernel), falls_of (by decide +kernel), by decide, rfl, rfl, by decide⟩
/-- Reset meets both invariants, and a step leads out of it. -/
theorem witness_invariants : Memory.wf State.reset.mem = true ∧ State.reset.mod.logOk :=
  ⟨by decide, by decide, by decide, by decide, by decide, by decide⟩
theorem witness_step : (match step { State.reset with pending := [.inputQualified] } with | .next u => u.mod.inputOk && u.pending.isEmpty | _ => false) = true := by decide +kernel

end Sys2Proof.Tests
end

section
/-! PROOF. The registers, the machine right after a cold reset, and its event log (R14, R30, R463). -/

namespace Sys2Proof.Machine

/-- After a cold reset only the budgets differ from what the map of a register gives. -/
theorem State.reg_reset (l : Loc) (h : ∀ t, t < 4 → l.key ≠ Loc.key ⟨.pwrBudget, t, 0, 0, 0⟩) : State.reset.reg l = l.r.resetWord :=
  (if_neg (h 0 (by omega))).trans <| (if_neg (h 1 (by omega))).trans <| (if_neg (h 2 (by omega))).trans (if_neg (h 3 (by omega)))

/-- After a cold reset no queue is enabled. -/
theorem State.cmdQcfgEnable_reset (q : Nat) : State.reset.flag cmdQcfgEnable (q / 256) 0 (q % 256) = false := by
  have hk : ∀ t, t < 4 → Loc.key ⟨.cmdQcfg, q / 256, 0, q % 256, 0⟩ ≠ Loc.key ⟨.pwrBudget, t, 0, 0, 0⟩ := by
    intro t _
    simp only [Loc.key, RegName.shared, RegName.unitBase, RegName.place, Bool.false_eq_true, if_false]
    omega
  simp only [State.flag, State.fget, cmdQcfgEnable, State.reg_reset _ hk]
  decide

/-- The event log of a cold reset: LOG_START alone, not yet acknowledged, with SB_ALERT_N low. -/
theorem Module.logOk_reset : State.reset.mod.logOk := by
  unfold Module.logOk
  decide

end Sys2Proof.Machine

open Sys2Proof Sys2Proof.Machine Sys2Proof.Claims

/-- Settles O58: the register file of State.reset holds nothing but the budgets, and every other part is written out. -/
theorem resetLeaves : Obligations.ResetLeaves :=
  ⟨State.reg_reset, fun _ => ⟨rfl, rfl⟩, by decide, fun q _ => ⟨State.cmdQcfgEnable_reset q, rfl⟩, fun _ _ => ⟨rfl, rfl⟩, rfl,
    fun _ => ⟨rfl, rfl, rfl⟩, rfl, rfl, rfl, rfl, rfl, rfl, rfl, rfl, rfl, rfl, rfl, Module.logOk_reset⟩

end

section
/-! PROOF. The bytes of an access and the register that they fall on (R7, R13, R269): a write of an access is one write of its
register under a mask. -/

namespace Sys2Proof.Machine

open Sys2Proof.Claims

/-! ### Little-endian bytes -/

@[simp] theorem length_leBytes (n v : Nat) : (leBytes n v).length = n := by
  induction n generalizing v with
  | zero => rfl
  | succ n ih => simp [leBytes, ih]

/-- The low n bytes of a number read back as its residue. -/
@[simp] theorem leNat_leBytes (n v : Nat) : leNat (leBytes n v) = v % 256 ^ n := by
  induction n generalizing v with
  | zero => simp [leBytes, leNat, Nat.mod_one]
  | succ n ih =>
    rw [leBytes, leNat, ih, Nat.pow_succ', Nat.mod_mul, BitVec.toNat_ofNat, Nat.mod_mod]

/-- The bytes of a number are its low ones and those of what stands above them. -/
theorem leBytes_add (m n v : Nat) : leBytes (m + n) v = leBytes m v ++ leBytes n (v / 256 ^ m) := by
  induction m generalizing v with
  | zero => simp [leBytes]
  | succ m ih => rw [Nat.succ_add, leBytes, ih, leBytes, List.cons_append, Nat.div_div_eq_div_mul, Nat.pow_succ']

/-! ### Spans of bytes on one register -/

/-- What an access puts on register l from its byte b on. -/
def spanHits (l : Loc) : Nat → List Byte → List (Loc × Nat × Byte)
  | _, [] => []
  | b, x :: xs => (l, b, x) :: spanHits l (b + 1) xs

/-- Bytes from position k of an access that all lie on one register are a span of it. -/
theorem filterMap_locate_span {t off : Nat} {l : Loc} (bs : List Byte) (k b : Nat)
    (h : ∀ i, i < bs.length → locate t (off + k + i) = some (l, b + i)) :
    ((bs.zipIdx k).map fun x => (x.2, x.1)).filterMap (fun x => (locate t (off + x.1)).map fun y => (y.1, y.2, x.2)) = spanHits l b bs := by
  induction bs generalizing k b with
  | nil => rfl
  | cons x xs ih =>
    have h0 : locate t (off + k) = some (l, b) := h 0 (by simp)
    simp only [List.zipIdx_cons, List.map_cons, List.filterMap_cons, h0, Option.map_some, spanHits]
    rw [ih (k + 1) (b + 1) fun i hi => by
      have e := h (i + 1) (by simpa using hi)
      rwa [show off + k + (i + 1) = off + (k + 1) + i by omega, show b + (i + 1) = b + 1 + i by omega] at e]

theorem map_fst_spanHits (l : Loc) (b : Nat) (bs : List Byte) : (spanHits l b bs).map (fun h => h.1) = List.replicate bs.length l := by
  induction bs generalizing b with
  | nil => rfl
  | cons x xs ih => simp [spanHits, ih, List.replicate_succ]

theorem filter_spanHits_self (l : Loc) (b : Nat) (bs : List Byte) : (spanHits l b bs).filter (fun h => decide (h.1 = l)) = spanHits l b bs := by
  induction bs generalizing b with
  | nil => rfl
  | cons x xs ih => simp [spanHits, ih]

theorem filter_spanHits_other {l k : Loc} (h : l ≠ k) (b : Nat) (bs : List Byte) : (spanHits l b bs).filter (fun h => decide (h.1 = k)) = [] := by
  induction bs generalizing b with
  | nil => rfl
  | cons x xs ih => simp [spanHits, ih, h]

/-- The value that a span carries, at its place in the register. -/
theorem sum_spanHits (l : Loc) (b : Nat) (bs : List Byte) :
    ((spanHits l b bs).map fun h => h.2.2.toNat * 256 ^ h.2.1).sum = leNat bs * 256 ^ b := by
  induction bs generalizing b with
  | nil => simp [spanHits, leNat]
  | cons x xs ih => simp only [spanHits, List.map_cons, List.sum_cons, ih, leNat]; ring

/-- The mask of a span covers its bytes. -/
theorem mask_spanHits (l : Loc) (b : Nat) (bs : List Byte) :
    ((spanHits l b bs).map fun h => 255 * 256 ^ h.2.1).sum = (256 ^ bs.length - 1) * 256 ^ b := by
  induction bs generalizing b with
  | nil => simp [spanHits]
  | cons x xs ih =>
    simp only [spanHits, List.map_cons, List.sum_cons, ih, List.length_cons]
    have : 1 ≤ 256 ^ xs.length := Nat.one_le_pow _ _ (by omega)
    rw [pow_succ 256 b, ← mul_assoc, mul_right_comm, ← Nat.add_mul, pow_succ]
    congr 1
    omega

/-! ### Values and masks of an access -/

/-- The low bytes of v, as many as an access has, moved to byte b of a register. -/
def laneValue (size b : Nat) (v : W64) : W64 := BitVec.ofNat 64 (v.toNat % 256 ^ size * 256 ^ b)

/-- The bits of a register that an access of some bytes from byte b on covers. -/
def laneMask (size b : Nat) : W64 := BitVec.ofNat 64 ((256 ^ size - 1) * 256 ^ b)

theorem pow_256 (n : Nat) : 256 ^ n = 2 ^ (8 * n) := by
  rw [show 256 = 2 ^ 8 by rfl, ← Nat.pow_mul]

theorem laneMask_getLsbD (size b : Nat) {i : Nat} (hi : i < 64) :
    (laneMask size b).getLsbD i = decide (8 * b ≤ i ∧ i < 8 * b + 8 * size) := by
  simp only [laneMask, pow_256, BitVec.getLsbD_ofNat, Nat.testBit_mul_two_pow, Nat.testBit_two_pow_sub_one, hi]
  by_cases h : 8 * b ≤ i
  · simp [h]; omega
  · simp [h]

theorem laneValue_getLsbD (size b : Nat) (v : W64) {i : Nat} (hi : i < 64) :
    (laneValue size b v).getLsbD i = (decide (8 * b ≤ i ∧ i < 8 * b + 8 * size) && v.getLsbD (i - 8 * b)) := by
  simp only [laneValue, pow_256, BitVec.getLsbD_ofNat, Nat.testBit_mul_two_pow, Nat.testBit_mod_two_pow, hi, decide_true, Bool.true_and,
    BitVec.testBit_toNat]
  by_cases h : 8 * b ≤ i
  · have : (i - 8 * b < 8 * size) ↔ (i < 8 * b + 8 * size) := by omega
    simp [h, this]
  · simp [h]

/-- A write of a whole span is one write of its register. -/
theorem State.mmioWrite_span {s : State} {t off : Nat} {l : Loc} {b : Nat} (bs : List Byte) (hne : bs ≠ [])
    (h : ∀ i, i < bs.length → locate t (off + i) = some (l, b + i)) :
    s.mmioWrite t off (bs.zipIdx.map fun x => (x.2, x.1)) =
      s.regWrite l (BitVec.ofNat 64 (leNat bs * 256 ^ b)) (laneMask bs.length b) := by
  have hn : bs.length ≠ 0 := by simpa using hne
  simp only [State.mmioWrite, filterMap_locate_span bs 0 b h, map_fst_spanHits, List.replicate_dedup hn, List.foldl_cons, List.foldl_nil,
    filter_spanHits_self, sum_spanHits, mask_spanHits, laneMask]

/-- A write of a span of l and then a span of k is a write of l and then one of k. -/
theorem State.mmioWrite_two_spans {s : State} {t off : Nat} {l k : Loc} (hlk : l ≠ k) (xs ys : List Byte) (hx : xs ≠ []) (hy : ys ≠ [])
    (hl : ∀ i, i < xs.length → locate t (off + i) = some (l, i)) (hk : ∀ i, i < ys.length → locate t (off + xs.length + i) = some (k, i)) :
    s.mmioWrite t off ((xs ++ ys).zipIdx.map fun x => (x.2, x.1)) =
      (s.regWrite l (BitVec.ofNat 64 (leNat xs)) (laneMask xs.length 0)).regWrite k (BitVec.ofNat 64 (leNat ys)) (laneMask ys.length 0) := by
  have hits : ((xs ++ ys).zipIdx.map fun x => (x.2, x.1)).filterMap (fun x => (locate t (off + x.1)).map fun y => (y.1, y.2, x.2)) =
      spanHits l 0 xs ++ spanHits k 0 ys := by
    rw [List.zipIdx_append, List.map_append, List.filterMap_append, filterMap_locate_span xs 0 0 (by simpa using hl),
      filterMap_locate_span ys _ 0 (by simpa using hk)]
  have names : (List.replicate xs.length l ++ List.replicate ys.length k).dedup = [l, k] := by
    have hd : List.Disjoint (List.replicate xs.length l) (List.replicate ys.length k) := by
      intro a ha hb
      exact hlk ((List.eq_of_mem_replicate ha).symm.trans (List.eq_of_mem_replicate hb))
    rw [hd.dedup_append, List.replicate_dedup (by simpa using hx), List.replicate_dedup (by simpa using hy)]
    rfl
  simp only [State.mmioWrite, hits, List.map_append, map_fst_spanHits, names, List.foldl_cons, List.foldl_nil, List.filter_append,
    filter_spanHits_self, filter_spanHits_other hlk, filter_spanHits_other hlk.symm, List.map_nil, List.append_nil, List.nil_append,
    sum_spanHits, mask_spanHits, laneMask, pow_zero, mul_one]

/-! ### The commands -/

/-- An address in the MMIO window names a tower and an offset (R268). -/
theorem mmioOf_window {addr : Nat} (h : 0x1F0000000000 ≤ addr ∧ addr < 0x1F0400000000) :
    mmioOf addr = some (addr / 2 ^ 32 % 4, addr % 2 ^ 32) := by
  simp [mmioOf, h, bitsOf]

theorem sizeOk_of_fallsOn {s : State} {addr size : Nat} {l : Loc} {b : Nat} (h : FallsOn s addr size l b) : sizeOk addr size = true := by
  simp [sizeOk, h.width, h.aligned]

theorem size_pos_of_fallsOn {s : State} {addr size : Nat} {l : Loc} {b : Nat} (h : FallsOn s addr size l b) : 0 < size := by
  rcases h.width with rfl | rfl <;> omega

/-- A REGISTER_WRITE that falls on one register writes it once, under the mask of the access. -/
theorem exec_registerWrite {s : State} {addr size : Nat} {l : Loc} {b : Nat} (h : FallsOn s addr size l b) (rq : Nat) (v : W64) :
    exec (.registerWrite rq addr size v) s = .next (s.regWrite l (laneValue size b v) (laneMask size b)) := by
  have hne : leBytes size v.toNat ≠ [] := List.ne_nil_of_length_pos (by simpa using size_pos_of_fallsOn h)
  change execRegisterWrite rq addr size v s = _
  simp only [execRegisterWrite, mmioOf_window h.window, h.isOpen, sizeOk_of_fallsOn h, and_self, if_true]
  rw [State.mmioWrite_span _ hne (by simpa using h.bytes), leNat_leBytes, length_leBytes, laneValue]

/-- A REGISTER_WRITE where no register lies changes nothing (R269). -/
theorem exec_registerWrite_nowhere {s : State} {addr size : Nat} (h : ∀ i, i < size → locate (addr / 2 ^ 32 % 4) (addr % 2 ^ 32 + i) = none)
    (rq : Nat) (v : W64) : exec (.registerWrite rq addr size v) s = .next s := by
  have none_hit : ∀ x ∈ (leBytes size v.toNat).zipIdx, locate (addr / 2 ^ 32 % 4) (addr % 2 ^ 32 + x.2) = none := by
    rintro ⟨x, i⟩ hx
    have := List.snd_lt_of_mem_zipIdx hx
    exact h i (by simpa using this)
  change execRegisterWrite rq addr size v s = _
  unfold execRegisterWrite
  by_cases hw : 0x1F0000000000 ≤ addr ∧ addr < 0x1F0400000000
  · rw [mmioOf_window hw]
    dsimp only
    split
    · have e : ((leBytes size v.toNat).zipIdx.map fun x => (x.2, x.1)).filterMap
          (fun x => (locate (addr / 2 ^ 32 % 4) (addr % 2 ^ 32 + x.1)).map fun y => (y.1, y.2, x.2)) = [] := by
        rw [List.filterMap_map, List.filterMap_eq_nil_iff]
        intro x hx
        simp only [Function.comp, none_hit x hx, Option.map_none]
      simp only [State.mmioWrite, e, List.map_nil, List.dedup_nil, List.foldl_nil]
    · rfl
  · simp [mmioOf, hw]

end Sys2Proof.Machine
end

section
/-! PROOF. What a write of a register without an effect of its own does (R8, R11, R12), and what updates of the register file
leave alone. -/

namespace Sys2Proof.Machine

open Sys2Proof.Claims

/-! ### Updates of the register file alone -/

/-- u is s but for registers, their copies and their latches. -/
def RegFileOnly (s u : State) : Prop := { u with regs := s.regs, staged := s.staged, locked := s.locked, latch := s.latch } = s

theorem RegFileOnly.refl (s : State) : RegFileOnly s s := rfl

theorem RegFileOnly.trans {s u w : State} (h : RegFileOnly s u) (g : RegFileOnly u w) : RegFileOnly s w := by
  unfold RegFileOnly at *
  rw [← g] at h
  exact h

theorem RegFileOnly.setReg (s : State) (l : Loc) (v : W64) : RegFileOnly s (s.setReg l v) := rfl
theorem RegFileOnly.setStg (s : State) (l : Loc) (v : W64) : RegFileOnly s (s.setStg l v) := rfl
theorem RegFileOnly.unlatch (s : State) (k : Nat) : RegFileOnly s (s.unlatch k) := rfl

/-- What stands beside the register file stays. -/
theorem RegFileOnly.proj {α : Type} {s u : State} (h : RegFileOnly s u) (f : State → α)
    (hf : ∀ a b c d, f { u with regs := a, staged := b, locked := c, latch := d } = f u) : f u = f s := by
  rw [← hf s.regs s.staged s.locked s.latch]
  exact congrArg f h

theorem RegFileOnly.mmioOpen {s u : State} (h : RegFileOnly s u) (t off : Nat) : u.mmioOpen t off = s.mmioOpen t off :=
  h.proj (fun x => x.mmioOpen t off) fun _ _ _ _ => rfl


/-! ### Access codes -/

/-- The RO bits of a register. -/
def RegName.roBits (r : RegName) : W64 := r.bitsWhere fun f => f.acc = .ro

/-- No bit of a register is both RW and W1C. -/
theorem RegName.rw_w1c_disjoint (r : RegName) : r.rwBits &&& r.w1cBits = 0#64 := by
  cases r <;> rfl

/-- No RO bit of a register has an access code that a write acts on. -/
theorem RegName.ro_disjoint (r : RegName) : r.roBits &&& (r.rwBits ||| r.w1cBits ||| r.wsBits) = 0#64 := by
  cases r <;> rfl

/-- Two words without a common one bit. -/
theorem getLsbD_of_and_eq_zero {a b : W64} (h : a &&& b = 0#64) {i : Nat} (ha : a.getLsbD i = true) : b.getLsbD i = false := by
  have e : (a &&& b).getLsbD i = false := by rw [h]; exact BitVec.getLsbD_zero
  simpa [ha] using e

/-- Bits of a word merged into another under a mask. -/
theorem merge_getLsbD (old v mask : W64) {i : Nat} (hi : i < 64) :
    (merge old v mask).getLsbD i = if mask.getLsbD i then v.getLsbD i else old.getLsbD i := by
  simp only [merge, BitVec.getLsbD_or, BitVec.getLsbD_and, BitVec.getLsbD_not, hi, decide_true, Bool.true_and]
  cases mask.getLsbD i <;> simp

theorem merge_of_zero (old v : W64) : merge old v 0#64 = old := by
  rw [merge, BitVec.not_zero, BitVec.and_allOnes, BitVec.and_zero, BitVec.or_zero]

/-! ### Writes by the access codes -/

/-- u is s after a write of v under a mask to register l by its access codes alone (R8, R11, R12). -/
structure WritesByCodes (s u : State) (l : Loc) (v mask : W64) : Prop where
  reg : u.reg l = merge (s.reg l) v (l.r.rwBits &&& mask) &&& ~~~(v &&& mask &&& l.r.w1cBits)
  stg : u.stg l = merge (s.stg l) v (l.r.wsBits &&& mask)
  reg_other : ∀ k, k.key ≠ l.key → u.reg k = s.reg k
  stg_other : ∀ k, k.key ≠ l.key → u.stg k = s.stg k
  staged : l.r.wsBits = 0#64 → u.staged = s.staged
  locked : u.locked = s.locked
  rest : RegFileOnly s u

/-- A register that takes writes is none of a management queue's. -/
theorem not_ofQueue_of_takesWrites {l : Loc} (h : takesWrites l = true) : ¬ (l.r.ofQueue = true ∧ l.i = 255) := by
  rintro ⟨hq, hi⟩
  unfold RegName.ofQueue at hq
  split at hq <;> simp_all [takesWrites]

/-- The last arm of a register write: staged bits, then the register's own. -/
def State.writeCodes (s : State) (l : Loc) (v mask : W64) : State :=
  let ws := l.r.wsBits
  let s1 := if ws &&& mask = 0#64 then s else s.setStg l (merge (s.stg l) v (ws &&& mask))
  let w := s1.reg l
  let w1 := merge w v (l.r.rwBits &&& mask) &&& ~~~(v &&& mask &&& l.r.w1cBits)
  if w1 = w then s1 else s1.setReg l w1

/-- A register without an effect of its own is written by its access codes. -/
theorem State.regWrite_eq_writeCodes (s : State) {l : Loc} (h : takesWrites l = true) (v mask : W64) :
    s.regWrite l v mask = (s.unlatch l.key).writeCodes l v mask := by
  have hq := not_ofQueue_of_takesWrites h
  unfold State.regWrite
  dsimp only
  split
  case h_18 => rw [if_neg hq]; rfl
  all_goals simp_all [takesWrites]

/-- What a write by the access codes gives: the staged copy takes the WS bits, the register its RW bits and cleared W1C bits. -/
theorem State.writeCodes_spec (s : State) (l : Loc) (v mask : W64) : WritesByCodes s (s.writeCodes l v mask) l v mask := by
  unfold State.writeCodes
  dsimp only
  by_cases hs : l.r.wsBits &&& mask = 0#64
  · rw [if_pos hs]
    split
    case isTrue he =>
      exact ⟨he.symm, by rw [hs, merge_of_zero], fun _ _ => rfl, fun _ _ => rfl, fun _ => rfl, rfl, .refl s⟩
    case isFalse =>
      exact ⟨State.reg_setReg _ _ _, by rw [hs, merge_of_zero]; rfl, fun _ hk => State.reg_setReg_other _ hk _, fun _ _ => rfl, fun _ => rfl,
        rfl, .setReg s l _⟩
  · have hn : l.r.wsBits ≠ 0#64 := fun e => hs (by rw [e, BitVec.zero_and])
    rw [if_neg hs, State.reg_setStg]
    split
    case isTrue he =>
      exact ⟨he.symm, State.stg_setStg _ _ _, fun _ _ => rfl, fun _ hk => State.stg_setStg_other _ hk _, fun e => absurd e hn, rfl,
        .setStg s l _⟩
    case isFalse =>
      exact ⟨State.reg_setReg _ _ _, State.stg_setStg _ _ _, fun _ hk => State.reg_setReg_other _ hk _,
        fun _ hk => State.stg_setStg_other _ hk _, fun e => absurd e hn, rfl, (RegFileOnly.setStg s l _).trans (.setReg _ l _)⟩

/-- What a write of a register without an effect of its own does. -/
theorem State.regWrite_spec (s : State) {l : Loc} (h : takesWrites l = true) (v mask : W64) : WritesByCodes s (s.regWrite l v mask) l v mask := by
  rw [State.regWrite_eq_writeCodes s h]
  have w := (s.unlatch l.key).writeCodes_spec l v mask
  exact ⟨w.reg, w.stg, w.reg_other, w.stg_other, w.staged, w.locked, (RegFileOnly.unlatch s _).trans w.rest⟩

section
variable {s u : State} {l : Loc} {v mask : W64} {i : Nat}

/-- A W1C bit for which a write carries no one stays. -/
theorem WritesByCodes.w1c_kept (h : WritesByCodes s u l v mask) (hi : i < 64) (hw : l.r.w1cBits.getLsbD i = true)
    (hv : (v &&& mask).getLsbD i = false) : (u.reg l).getLsbD i = (s.reg l).getLsbD i := by
  have hrw : l.r.rwBits.getLsbD i = false := getLsbD_of_and_eq_zero (by rw [BitVec.and_comm, l.r.rw_w1c_disjoint]) hw
  simp only [h.reg, BitVec.getLsbD_and (x := merge _ _ _), merge_getLsbD _ _ _ hi, BitVec.getLsbD_and, hrw, BitVec.getLsbD_not, hi, hw] at hv ⊢
  simp [hv]

/-- The bits of a register after an access of its bytes by the access codes. -/
theorem WritesByCodes.reg_bit {size b : Nat} {x : W64} (h : WritesByCodes s u l (laneValue size b x) (laneMask size b)) (hi : i < 64) :
    (u.reg l).getLsbD i = writtenBit l.r (s.reg l) x (8 * b) (8 * size) i := by
  have hd : l.r.rwBits.getLsbD i = true → l.r.w1cBits.getLsbD i = false := getLsbD_of_and_eq_zero l.r.rw_w1c_disjoint
  rw [h.reg, BitVec.getLsbD_and, merge_getLsbD _ _ _ hi]
  simp only [BitVec.getLsbD_and, BitVec.getLsbD_not, laneMask_getLsbD _ _ hi, laneValue_getLsbD _ _ _ hi, writtenBit, hi]
  by_cases hin : 8 * b ≤ i ∧ i < 8 * b + 8 * size
  · by_cases hrw : l.r.rwBits.getLsbD i = true
    · simp [hin, hrw, hd hrw]
    · simp [hin, hrw, Bool.and_comm]
  · simp [hin]

/-- The bits of its staged copy. -/
theorem WritesByCodes.stg_bit {size b : Nat} {x : W64} (h : WritesByCodes s u l (laneValue size b x) (laneMask size b)) (hi : i < 64) :
    (u.stg l).getLsbD i = stagedBit l.r (s.stg l) x (8 * b) (8 * size) i := by
  rw [h.stg, merge_getLsbD _ _ _ hi]
  simp only [BitVec.getLsbD_and, laneMask_getLsbD _ _ hi, laneValue_getLsbD _ _ _ hi, stagedBit]
  by_cases hin : 8 * b ≤ i ∧ i < 8 * b + 8 * size
  · simp [hin]
  · have : ¬ (8 * b ≤ i ∧ i < 8 * b + 8 * size ∧ l.r.wsBits.getLsbD i = true) := fun g => hin ⟨g.1, g.2.1⟩
    simp [hin, this]

/-- Beside the register and its staged copy only latches change. -/
theorem WritesByCodes.frame (h : WritesByCodes s u l v mask) : { u with regs := s.regs, staged := s.staged, latch := s.latch } = s := by
  have e := h.rest
  unfold RegFileOnly at e
  rw [← h.locked] at e
  exact e

/-- A register without WS bits: beside the register only latches change. -/
theorem WritesByCodes.frame_of_no_ws (h : WritesByCodes s u l v mask) (hw : l.r.wsBits = 0#64) : { u with regs := s.regs, latch := s.latch } = s := by
  have e := h.frame
  rw [← h.staged hw] at e
  exact e

end

/-! ### REGISTER_WRITE -/

/-- An access falls on the same register in a machine whose blocks can be accessed alike. -/
theorem FallsOn.of_mmioOpen {s u : State} {addr size : Nat} {l : Loc} {b : Nat} (h : FallsOn s addr size l b)
    (e : ∀ t off, u.mmioOpen t off = s.mmioOpen t off) : FallsOn u addr size l b :=
  ⟨h.window, h.width, h.aligned, (e _ _).trans h.isOpen, h.bytes⟩

/-- A write of one register without an effect of its own. -/
theorem registerWrite_follows_codes {s : State} {addr size : Nat} {l : Loc} {b : Nat} (h : FallsOn s addr size l b)
    (ht : takesWrites l = true) (rq : Nat) (v : W64) :
    ∃ u, exec (.registerWrite rq addr size v) s = .next u ∧
      (∀ i, i < 64 → (u.reg l).getLsbD i = writtenBit l.r (s.reg l) v (8 * b) (8 * size) i) ∧
      (∀ i, i < 64 → (u.stg l).getLsbD i = stagedBit l.r (s.stg l) v (8 * b) (8 * size) i) ∧
      (∀ k, k.key ≠ l.key → u.reg k = s.reg k ∧ u.stg k = s.stg k) ∧
      { u with regs := s.regs, staged := s.staged, latch := s.latch } = s := by
  have w := s.regWrite_spec ht (laneValue size b v) (laneMask size b)
  exact ⟨_, exec_registerWrite h rq v, fun _ hi => w.reg_bit hi, fun _ hi => w.stg_bit hi,
    fun k hk => ⟨w.reg_other k hk, w.stg_other k hk⟩, w.frame⟩

/-- The second word of an aligned pair lies in the same tower, 4 bytes on. -/
theorem addr_add_four {addr : Nat} (h : addr % 8 = 0) :
    (addr + 4) / 2 ^ 32 % 4 = addr / 2 ^ 32 % 4 ∧ (addr + 4) % 2 ^ 32 = addr % 2 ^ 32 + 4 := by
  omega

/-- Two registers under one access of 8 bytes are written in turn. -/
theorem registerWrite_pair {s : State} {addr : Nat} {l k : Loc} (hl : FallsOn s addr 4 l 0) (hk : FallsOn s (addr + 4) 4 k 0)
    (ha : addr % 8 = 0) (hlk : l.key ≠ k.key) (ht : takesWrites l = true) (rq : Nat) (v : W64) :
    ∃ u, exec (.registerWrite rq addr 4 v) s = .next u ∧
      exec (.registerWrite rq addr 8 v) s = exec (.registerWrite rq (addr + 4) 4 (v >>> 32)) u := by
  obtain ⟨et, eo⟩ := addr_add_four ha
  have w := s.regWrite_spec ht (laneValue 4 0 v) (laneMask 4 0)
  have hk' : FallsOn (s.regWrite l (laneValue 4 0 v) (laneMask 4 0)) (addr + 4) 4 k 0 :=
    FallsOn.of_mmioOpen hk w.rest.mmioOpen
  have bytes : leBytes 8 v.toNat = leBytes 4 v.toNat ++ leBytes 4 (v.toNat / 256 ^ 4) := leBytes_add 4 4 _
  have spans := State.mmioWrite_two_spans (s := s) (t := addr / 2 ^ 32 % 4) (off := addr % 2 ^ 32) (fun e => hlk (congrArg Loc.key e))
    (leBytes 4 v.toNat) (leBytes 4 (v.toNat / 256 ^ 4)) (by simp [leBytes]) (by simp [leBytes])
    (fun i hi => by simpa using hl.bytes i (by simpa using hi))
    (fun i hi => by
      have e := hk.bytes i (by simpa using hi)
      rw [et, eo] at e
      simpa using e)
  refine ⟨_, exec_registerWrite hl rq v, ?_⟩
  rw [exec_registerWrite hk' rq]
  change execRegisterWrite rq addr 8 v s = _
  have ok : sizeOk addr 8 = true := by simp [sizeOk, ha]
  have high : (v >>> 32).toNat = v.toNat / 256 ^ 4 := by
    rw [BitVec.toNat_ushiftRight, Nat.shiftRight_eq_div_pow, pow_256]
  simp only [execRegisterWrite, mmioOf_window hl.window, hl.isOpen, ok, and_self, if_true, bytes, spans, leNat_leBytes, length_leBytes,
    laneValue, high, pow_zero, mul_one]

end Sys2Proof.Machine
end

section
/-! PROOF. What a write carries for RO fields, and zeros for W1C bits (R8), for every register of the map. -/

namespace Sys2Proof.Machine

open Sys2Proof.Claims

/-! ### RO fields -/

section
variable {r : RegName} {v w : W64} (h : ∀ i, i < 64 → r.roBits.getLsbD i = false → v.getLsbD i = w.getLsbD i)
include h

/-- Words that agree beside the RO bits of a register without any are equal. -/
theorem eq_of_no_ro (hr : r.roBits = 0#64) : v = w :=
  BitVec.eq_of_getLsbD_eq fun i hi => h i hi (by rw [hr]; exact BitVec.getLsbD_zero)

/-- They agree under a mask that no RO bit meets. -/
theorem and_eq_of_ro {m : W64} (hm : r.roBits &&& m = 0#64) : v &&& m = w &&& m := by
  refine BitVec.eq_of_getLsbD_eq fun i hi => ?_
  rw [BitVec.getLsbD_and, BitVec.getLsbD_and]
  by_cases ho : r.roBits.getLsbD i = true
  · rw [getLsbD_of_and_eq_zero hm ho, Bool.and_false, Bool.and_false]
  · rw [h i hi (by simpa using ho)]

/-- They agree on a bit that is not RO. -/
theorem bit_eq_of_ro (mask : W64) {i : Nat} (hi : i < 64) (ho : r.roBits.getLsbD i = false) : bit (v &&& mask) i = bit (w &&& mask) i := by
  simp only [bit, BitVec.getLsbD_and, h i hi ho]

/-- Merged into a word they agree on a low half without an RO bit. -/
theorem low_merge_eq_of_ro (hr : r.roBits &&& 0xFFFFFFFF#64 = 0#64) (old mask : W64) : fld (merge old v mask) 31 0 = fld (merge old w mask) 31 0 := by
  have half : ∀ x : W64, fld x 31 0 = (x &&& 0xFFFFFFFF#64).toNat := by
    intro x
    rw [BitVec.toNat_and]
    exact (Nat.and_two_pow_sub_one_eq_mod x.toNat 32).symm ▸ by simp [fld, bitsOf]
  have split : ∀ x : W64, merge old x mask &&& 0xFFFFFFFF#64 = merge (old &&& 0xFFFFFFFF#64) (x &&& 0xFFFFFFFF#64) mask := by
    intro x
    refine BitVec.eq_of_getLsbD_eq fun i hi => ?_
    simp only [BitVec.getLsbD_and, merge_getLsbD _ _ _ hi]
    split <;> rfl
  rw [half, half, split, split, and_eq_of_ro h hr]

end

/-- The low half of a word, as 32 bits. -/
theorem ofNat_eq_low (x : W64) : BitVec.ofNat 32 x.toNat = BitVec.ofNat 32 (fld x 31 0) := by
  apply BitVec.eq_of_toNat_eq
  simp [fld, bitsOf]

theorem merge_congr {old v w m : W64} (h : v &&& m = w &&& m) : merge old v m = merge old w m := by
  rw [merge, merge, h]

/-- A write by the access codes does not see RO bits. -/
theorem State.writeCodes_of_ro (s : State) (l : Loc) {v w : W64} (h : ∀ i, i < 64 → l.r.roBits.getLsbD i = false → v.getLsbD i = w.getLsbD i)
    (mask : W64) : s.writeCodes l v mask = s.writeCodes l w mask := by
  have seen : ∀ m : W64, (l.r.rwBits ||| l.r.w1cBits ||| l.r.wsBits) &&& m = m → v &&& (m &&& mask) = w &&& (m &&& mask) := by
    intro m hm
    refine and_eq_of_ro h ?_
    rw [← hm, ← BitVec.and_assoc, ← BitVec.and_assoc, l.r.ro_disjoint, BitVec.zero_and, BitVec.zero_and]
  have rw_seen := seen l.r.rwBits (by ext i hi; simp; tauto)
  have ws_seen := seen l.r.wsBits (by ext i hi; simp; tauto)
  have w1c_seen := seen l.r.w1cBits (by ext i hi; simp; tauto)
  rw [BitVec.and_comm _ mask, ← BitVec.and_assoc, ← BitVec.and_assoc] at w1c_seen
  unfold State.writeCodes
  dsimp only
  rw [merge_congr ws_seen, merge_congr rw_seen, w1c_seen]

/-- What a write carries for RO bits changes nothing of what it does. -/
theorem State.regWrite_of_ro (s : State) (l : Loc) {v w : W64} (h : ∀ i, i < 64 → l.r.roBits.getLsbD i = false → v.getLsbD i = w.getLsbD i)
    (mask : W64) : s.regWrite l v mask = s.regWrite l w mask := by
  have seen : ∀ i, i < 64 → l.r.roBits.getLsbD i = false → bit (v &&& mask) i = bit (w &&& mask) i := fun _ => bit_eq_of_ro h mask
  unfold State.regWrite
  dsimp only
  split
  case h_1 e | h_11 e | h_12 e => rw [eq_of_no_ro h (by rw [e]; rfl)]
  case h_2 e =>
    have auto_seen := seen 1 (by omega) (by rw [e]; rfl)
    have sat_seen := seen 3 (by omega) (by rw [e]; rfl)
    simp only [bit] at auto_seen sat_seen
    simp only [State.tallyWrite, BitVec.getLsbD_ofNat, BitVec.testBit_toNat, auto_seen, sat_seen]
  case h_3 e | h_4 e | h_5 e | h_6 e | h_7 e | h_8 e | h_9 e | h_10 e => simp only [seen 0 (by omega) (by rw [e]; rfl)]
  case h_13 e => rw [ofNat_eq_low, low_merge_eq_of_ro h (by rw [e]; rfl), ← ofNat_eq_low]
  case h_14 e => rw [low_merge_eq_of_ro h (by rw [e]; rfl)]
  case h_15 e => simp only [seen 3 (by omega) (by rw [e]; rfl)]
  case h_16 e => simp only [seen 31 (by omega) (by rw [e]; rfl)]
  case h_17 e => simp only [seen 0 (by omega) (by rw [e]; rfl), seen 1 (by omega) (by rw [e]; rfl)]
  case h_18 => exact congrArg (fun x => if l.r.ofQueue = true ∧ l.i = 255 then s.unlatch l.key else x) (State.writeCodes_of_ro _ l h mask)

end Sys2Proof.Machine
end

section
/-! PROOF. The W1C bits of every register read as its stored bits or as the flags that they show (R8). -/

namespace Sys2Proof.Machine

open Sys2Proof.Claims

/-! ### Fields laid over a word -/

/-- The bits of a field. -/
def Fld.bits (f : Fld) : W64 := BitVec.ofNat 64 ((2 ^ (f.hi + 1 - f.lo) - 1) * 2 ^ f.lo)

/-- A field written leaves the bits beside it. -/
theorem setFld_getLsbD_of_not_bits (f : Fld) (w : W64) (v : Nat) {i : Nat} (h : f.bits.getLsbD i = false) :
    (setFld w f.hi f.lo v).getLsbD i = w.getLsbD i := by
  by_cases hi : i < 64
  · simp only [Fld.bits, BitVec.getLsbD_ofNat, Nat.testBit_mul_two_pow, Nat.testBit_two_pow_sub_one, hi, decide_true, Bool.true_and] at h
    simp only [setFld, BitVec.getLsbD_or, BitVec.getLsbD_and, BitVec.getLsbD_not, BitVec.getLsbD_ofNat, Nat.testBit_mul_two_pow,
      Nat.testBit_two_pow_sub_one, Nat.testBit_mod_two_pow, hi, decide_true, Bool.true_and, h]
    by_cases hl : f.lo ≤ i
    · simp only [hl, decide_true, Bool.true_and] at h
      simp [h]
    · simp [hl]
  · rw [BitVec.getLsbD_of_ge _ _ (by omega), BitVec.getLsbD_of_ge _ _ (by omega)]

/-- Fields laid over a word leave the bits of a mask that none of them meets. -/
theorem ov_getLsbD_of_disjoint {m : W64} {fs : List (Fld × Nat)} (h : (fs.all fun f => m &&& f.1.bits == 0#64) = true) {i : Nat}
    (hm : m.getLsbD i = true) (w : W64) : (ov w fs).getLsbD i = w.getLsbD i := by
  induction fs generalizing w with
  | nil => rfl
  | cons f fs ih =>
    obtain ⟨hf, hfs⟩ := Bool.and_eq_true_iff.mp h
    exact (ih hfs _).trans (setFld_getLsbD_of_not_bits f.1 w f.2 (getLsbD_of_and_eq_zero (by simpa using hf) hm))

/-- A flag laid over a word, under fields that leave its bit, reads as the flag. -/
theorem ov_flag {gs : List (Fld × Nat)} (f : Fld) (hf : f.lo = f.hi) (hi : f.hi < 64)
    (h : (gs.all fun g => BitVec.twoPow 64 f.hi &&& g.1.bits == 0#64) = true) (w : W64) (fs : List (Fld × Nat)) (b : Bool) :
    (ov w (fs ++ (f, nb b) :: gs)).getLsbD f.hi = b := by
  have e : (setFld (ov w fs) f.hi f.lo (nb b)).getLsbD f.hi = b := by
    rw [setFld_getLsbD _ _ _ _ _ hi hf.le, if_pos ⟨hf.le, le_refl _⟩, hf]
    cases b <;> simp [nb]
  rw [ov, List.foldl_append]
  exact (ov_getLsbD_of_disjoint h (by simp [hi]) _).trans e

/-! ### The registers with W1C bits -/

/-- The registers that read as they are stored, with W1C bits. -/
def w1cPlain : List RegName :=
  [.arrErr, .teFault, .nrmErr, .celErrLog, .cluHatchErr, .panErr, .cluGlobalErr, .hbmStatus, .hbmErrLog]

/-- The registers that show other state beside their W1C bits. -/
def w1cBeside : List RegName := [.hltClkStatus, .celStatus, .lnkPortStatus, .brgStatus, .pwrStatus, .thmStatus, .cvuStatus]

/-- The registers whose W1C bits are flags of other parts: a tally's, the health manager's, the guard's. -/
def w1cFlags : List RegName := [.cluTallyCtl, .hltState, .hltTriggers, .hltPgSummary]

/-- The registers with W1C bits. -/
theorem RegName.w1c_cases (r : RegName) (h : r.w1cBits ≠ 0#64) : r ∈ w1cPlain ∨ r ∈ w1cBeside ∨ r = .arrFreezeCause ∨ r ∈ w1cFlags := by
  revert h
  cases r <;> decide

/-- W1C bits that are no flags are written by the access codes. -/
theorem takesWrites_of_w1c {l : Loc} (h : l.r ∈ w1cPlain ∨ l.r ∈ w1cBeside ∨ l.r = .arrFreezeCause) : takesWrites l = true := by
  unfold takesWrites
  split <;> simp_all [w1cPlain, w1cBeside]

theorem State.view_w1cPlain (s : State) {l : Loc} (h : l.r ∈ w1cPlain) : s.view l = s.reg l := by
  obtain ⟨r, t, u, n, m⟩ := l
  simp only [w1cPlain, List.mem_cons, List.not_mem_nil, or_false] at h
  rcases h with h | h | h | h | h | h | h | h | h <;> subst h <;> rfl

theorem State.view_w1cBeside (s : State) {l : Loc} (h : l.r ∈ w1cBeside) {i : Nat} (hw : l.r.w1cBits.getLsbD i = true) :
    (s.view l).getLsbD i = (s.reg l).getLsbD i := by
  obtain ⟨r, t, u, n, m⟩ := l
  simp only [w1cBeside, List.mem_cons, List.not_mem_nil, or_false] at h
  rcases h with h | h | h | h | h | h | h <;> subst h <;> refine ov_getLsbD_of_disjoint ?_ hw _ <;>
    simp only [List.all_cons, List.all_nil] <;> decide

/-- A stored W1C bit that a write carries no one for reads as before. -/
theorem WritesByCodes.view_w1c {s u : State} {l : Loc} {v mask : W64} (w : WritesByCodes s u l v mask)
    (h : l.r ∈ w1cPlain ∨ l.r ∈ w1cBeside ∨ l.r = .arrFreezeCause) {i : Nat} (hi : i < 64) (hw : l.r.w1cBits.getLsbD i = true)
    (hv : (v &&& mask).getLsbD i = false) : (u.view l).getLsbD i = (s.view l).getLsbD i := by
  have kept := w.w1c_kept hi hw hv
  rcases h with h | h | h
  · rw [u.view_w1cPlain h, s.view_w1cPlain h, kept]
  · rw [u.view_w1cBeside h hw, s.view_w1cBeside h hw, kept]
  · have free : u.free = s.free := w.rest.proj State.free fun _ _ _ _ => rfl
    simp only [State.view, h, State.free1, free]

/-! ### The flags -/

/-- The only one bit of a mask. -/
theorem eq_of_getLsbD_twoPow {k i : Nat} (h : (BitVec.twoPow 64 k).getLsbD i = true) : i = k := by
  simp only [BitVec.getLsbD_twoPow, Bool.and_eq_true, decide_eq_true_eq] at h
  exact h.2.symm

theorem State.view_cluTallyCtl_sat (s : State) {l : Loc} (h : l.r = .cluTallyCtl) :
    (s.view l).getLsbD 3 = (s.tally l.t l.u l.i).sat := by
  obtain ⟨r, t, u, n, m⟩ := l
  subst h
  refine ov_flag cluTallyCtlSat rfl (by decide) ?_ _ [] _
  simp only [List.all_cons, List.all_nil]
  decide

/-- HLT_PG_SUMMARY shows the guard's epoch change and its tower's overflow event. -/
theorem State.view_hltPgSummary_events (s : State) {l : Loc} (h : l.r = .hltPgSummary) :
    (s.view l).getLsbD 1 = s.mod.epochChange ∧ (s.view l).getLsbD 0 = s.mod.ovfEvent.getD l.t false := by
  obtain ⟨r, t, u, n, m⟩ := l
  subst h
  constructor
  · refine ov_flag hltPgSummaryEpochChange rfl (by decide) ?_ _ [_, _, _] _
    simp only [List.all_cons, List.all_nil]
    decide
  · exact ov_flag hltPgSummaryOverflowEvent rfl (by decide) rfl _ [_, _, _, _] _

/-- A tally changed reads as changed. -/
@[simp] theorem State.tally_modTally (s : State) (t c n : Nat) (f : Tally → Tally) : (s.modTally t c n f).tally t c n = f (s.tally t c n) := by
  change SMap.get default ((s.modClu t c fun x => { x with tallies := SMap.put default x.tallies n (f (s.tally t c n)) }).clu t c).tallies n = _
  rw [State.clu_modClu]
  exact SMap.get_put_self _ _ _ _

/-- What an offset of a tower's region names lies in that tower. -/
theorem locate_tower {t off : Nat} {l : Loc} {b : Nat} (h : locate t off = some (l, b)) : l.t = t := by
  obtain ⟨r, -, e⟩ := List.exists_of_findSome?_eq_some h
  have named : ∀ (u : Nat) (x : Option Nat), (match x with
      | none => none
      | some x => (r.hit x).map fun h => ((⟨r, t, u, h.1, h.2.1⟩ : Loc), h.2.2)) = some (l, b) → l.t = t := by
    intro u x e
    cases x with
    | none => cases e
    | some x =>
      obtain ⟨y, -, e⟩ := Option.map_eq_some_iff.mp e
      rw [← (Prod.mk.inj e).1]
  dsimp only at e
  split at e
  · split at e
    · exact named _ _ e
    · cases e
  · split at e
    · exact named _ (some _) e
    · cases e
  · exact named _ _ e
  · obtain ⟨x, -, e⟩ := Option.bind_eq_some_iff.mp e
    exact named _ (some _) e

/-- A write of HLT_PG_SUMMARY clears the guard's events by ones, the overflow event in its own tower alone. -/
theorem State.regWrite_hltPgSummary_mod (s : State) {l : Loc} (h : l.r = .hltPgSummary) (v mask : W64) :
    (s.regWrite l v mask).mod.epochChange = (s.mod.epochChange && !bit (v &&& mask) 1) ∧
      (s.regWrite l v mask).mod.ovfEvent = (List.range 4).map fun i => s.mod.ovfEvent.getD i false && !(i = l.t && bit (v &&& mask) 0) := by
  obtain ⟨r, t, u, n, m⟩ := l
  subst h
  exact ⟨rfl, rfl⟩

/-- A flag that a write carries no one for reads as before. -/
theorem State.view_flag_kept (s : State) {l : Loc} (h : l.r ∈ w1cFlags) (ht : l.t < 4) {v mask : W64} {i : Nat}
    (hw : l.r.w1cBits.getLsbD i = true) (hv : (v &&& mask).getLsbD i = false) :
    ((s.regWrite l v mask).view l).getLsbD i = (s.view l).getLsbD i := by
  obtain ⟨r, t, u, n, m⟩ := l
  simp only [w1cFlags, List.mem_cons, List.not_mem_nil, or_false] at h
  rcases h with rfl | rfl | rfl | rfl
  · obtain rfl : i = 3 := eq_of_getLsbD_twoPow hw
    rw [State.view_cluTallyCtl_sat _ rfl, s.view_cluTallyCtl_sat rfl]
    by_cases hm : fld mask 7 0 = 0
    · have e : s.regWrite ⟨.cluTallyCtl, t, u, n, m⟩ v mask = s.unlatch (Loc.key ⟨.cluTallyCtl, t, u, n, m⟩) := if_pos hm
      rw [e]
      rfl
    · have e : s.regWrite ⟨.cluTallyCtl, t, u, n, m⟩ v mask =
          (s.unlatch (Loc.key ⟨.cluTallyCtl, t, u, n, m⟩)).tallyWrite t u n (.ctl (BitVec.ofNat 32 (v &&& mask).toNat)) := if_neg hm
      have clear : (BitVec.ofNat 32 (v &&& mask).toNat).getLsbD 3 = false := by
        rw [BitVec.getLsbD_ofNat, BitVec.testBit_toNat, hv, Bool.and_false]
      rw [e, State.tallyWrite, State.tally_modTally, clear, Bool.not_false, Bool.and_true]
      rfl
  · obtain rfl : i = 3 := eq_of_getLsbD_twoPow hw
    have e : s.regWrite ⟨.hltState, t, u, n, m⟩ v mask = s.unlatch (Loc.key ⟨.hltState, t, u, n, m⟩) := if_neg (Bool.eq_false_iff.mp hv)
    rw [e]
    rfl
  · obtain rfl : i = 31 := eq_of_getLsbD_twoPow hw
    have e : s.regWrite ⟨.hltTriggers, t, u, n, m⟩ v mask = s.unlatch (Loc.key ⟨.hltTriggers, t, u, n, m⟩) :=
      if_neg (Bool.eq_false_iff.mp hv)
    rw [e]
    rfl
  · obtain ⟨epoch, overflow⟩ := s.regWrite_hltPgSummary_mod (l := ⟨.hltPgSummary, t, u, n, m⟩) rfl v mask
    obtain ⟨e1, e0⟩ := State.view_hltPgSummary_events (s.regWrite ⟨.hltPgSummary, t, u, n, m⟩ v mask) (l := ⟨.hltPgSummary, t, u, n, m⟩) rfl
    obtain ⟨d1, d0⟩ := s.view_hltPgSummary_events (l := ⟨.hltPgSummary, t, u, n, m⟩) rfl
    have two : i = 1 ∨ i = 0 := by
      have h2 : (BitVec.twoPow 64 1 ||| BitVec.twoPow 64 0).getLsbD i = true := hw
      rw [BitVec.getLsbD_or, Bool.or_eq_true] at h2
      exact h2.imp eq_of_getLsbD_twoPow eq_of_getLsbD_twoPow
    rcases two with rfl | rfl
    · have clear : bit (v &&& mask) 1 = false := hv
      rw [e1, d1, epoch, clear, Bool.not_false, Bool.and_true]
    · have clear : bit (v &&& mask) 0 = false := hv
      rw [e0, d0, overflow]
      simp [clear, List.getD_eq_getElem?_getD, show t < 4 from ht]

/-! ### REGISTER_WRITE -/

/-- A write leaves the W1C bits that it carries a zero for, for every register of the map (R8). -/
theorem State.view_w1c_kept (s : State) (l : Loc) (ht : l.t < 4) {v mask : W64} {i : Nat} (hi : i < 64)
    (hw : l.r.w1cBits.getLsbD i = true) (hv : (v &&& mask).getLsbD i = false) :
    ((s.regWrite l v mask).view l).getLsbD i = (s.view l).getLsbD i := by
  have hn : l.r.w1cBits ≠ 0#64 := fun e => by simp [e] at hw
  have stored : ∀ h : l.r ∈ w1cPlain ∨ l.r ∈ w1cBeside ∨ l.r = .arrFreezeCause, _ := fun h =>
    (s.regWrite_spec (takesWrites_of_w1c h) v mask).view_w1c h hi hw hv
  rcases l.r.w1c_cases hn with h | h | h | h
  · exact stored (.inl h)
  · exact stored (.inr (.inl h))
  · exact stored (.inr (.inr h))
  · exact s.view_flag_kept h ht hw hv

theorem FallsOn.tower_lt {s : State} {addr size : Nat} {l : Loc} {b : Nat} (h : FallsOn s addr size l b) : l.t < 4 := by
  rw [locate_tower (h.bytes 0 (size_pos_of_fallsOn h))]
  exact Nat.mod_lt _ (by omega)

end Sys2Proof.Machine

open Sys2Proof Sys2Proof.Machine Sys2Proof.Claims

/-- Settles O57: an access is one write of its register, which sees no RO bit of what it carries and clears W1C bits by ones
alone. -/
theorem writesOfReadOnlyFieldsAreIgnored : Obligations.WritesOfReadOnlyFieldsAreIgnored := by
  intro s rq addr size l b v w h
  refine ⟨⟨_, exec_registerWrite h rq v, fun i hi hw hv => ?_⟩, fun agree => ?_⟩
  · have hlt : 8 * b + i < 64 := BitVec.lt_of_getLsbD hw
    refine s.view_w1c_kept l (FallsOn.tower_lt h) hlt hw ?_
    rw [BitVec.getLsbD_and, laneValue_getLsbD _ _ _ hlt, Nat.add_sub_cancel_left, hv, Bool.and_false, Bool.false_and]
  · rw [exec_registerWrite h rq v, exec_registerWrite h rq w]
    congr 1
    refine s.regWrite_of_ro l (fun i hi ho => ?_) _
    rw [laneValue_getLsbD _ _ _ hi, laneValue_getLsbD _ _ _ hi]
    by_cases hin : 8 * b ≤ i ∧ i < 8 * b + 8 * size
    · have same := agree (i - 8 * b) (by omega) (by rwa [Nat.add_sub_cancel' hin.1])
      rw [same]
    · simp [hin]

end

section
/-! PROOF. Reads of registers (R10, R13, R298, R387): a whole register, its low half with the latch of the high half, and the
two registers whose reads have a way of their own. -/

namespace Sys2Proof.Machine

open Sys2Proof.Claims

/-! ### The bytes of a read -/

theorem State.mmioBytes_zero (f : Nat) (s : State) (rq t off : Nat) : s.mmioBytes f rq t off 0 = ([], s) := by
  cases f <;> simp [State.mmioBytes]

/-- A read of as many bytes as a register has, from its first on, is one read of it. -/
theorem State.mmioRead_whole (s : State) (rq : Nat) {t off : Nat} {l : Loc} (h : locate t off = some (l, 0)) (hw : 0 < l.r.place.width / 8) :
    s.mmioRead rq t off (l.r.place.width / 8) =
      (leBytes (l.r.place.width / 8) (s.regRead rq l .full).1.toNat, (s.regRead rq l .full).2) := by
  rw [State.mmioRead, State.mmioBytes]
  simp only [if_neg hw.ne', h, le_refl, and_self, if_true, Nat.sub_self, State.mmioBytes_zero, List.append_nil]

/-- A read of 4 bytes of a longer register, from its first or fifth byte on, is one read of that half. -/
theorem State.mmioRead_half (s : State) (rq : Nat) {t off : Nat} {l : Loc} {b : Nat} (h : locate t off = some (l, b)) (hb : b % 4 = 0)
    (hw : 4 < l.r.place.width / 8) :
    s.mmioRead rq t off 4 = (leBytes 4 (s.regRead rq l (if b = 0 then .low else .high)).1.toNat,
      (s.regRead rq l (if b = 0 then .low else .high)).2) := by
  have longer : ¬ (b = 0 ∧ l.r.place.width / 8 ≤ 4) := by omega
  rw [State.mmioRead, State.mmioBytes]
  simp only [h, if_neg longer, hb, le_refl, and_self, if_true, Nat.sub_self, State.mmioBytes_zero, List.append_nil]
  rfl

/-- A register access that an address allows is a read of the region's bytes, whose value leaves the block. -/
theorem State.readOut_open {s : State} {addr size : Nat} {l : Loc} {b : Nat} (h : FallsOn s addr size l b) (rq : Nat) :
    s.readOut rq addr size = (s.mmioRead rq (addr / 2 ^ 32 % 4) (addr % 2 ^ 32) size).2.emit
      (.regRead rq (BitVec.ofNat 64 (leNat (s.mmioRead rq (addr / 2 ^ 32 % 4) (addr % 2 ^ 32) size).1))) := by
  simp only [State.readOut, mmioOf_window h.window, h.isOpen, sizeOk_of_fallsOn h, and_self, if_true]

theorem State.readOut_whole {s : State} {addr : Nat} {l : Loc} (h : FallsOn s addr (l.r.place.width / 8) l 0) (rq : Nat) :
    s.readOut rq addr (l.r.place.width / 8) = (s.regRead rq l .full).2.emit
      (.regRead rq (BitVec.ofNat 64 ((s.regRead rq l .full).1.toNat % 256 ^ (l.r.place.width / 8)))) := by
  have hpos := size_pos_of_fallsOn h
  have here : locate (addr / 2 ^ 32 % 4) (addr % 2 ^ 32) = some (l, 0) := h.bytes 0 hpos
  rw [State.readOut_open h, s.mmioRead_whole rq here hpos, leNat_leBytes]

theorem State.readOut_half {s : State} {addr : Nat} {l : Loc} {b : Nat} (h : FallsOn s addr 4 l b) (hb : b % 4 = 0)
    (hw : 4 < l.r.place.width / 8) (rq : Nat) :
    s.readOut rq addr 4 = (s.regRead rq l (if b = 0 then .low else .high)).2.emit
      (.regRead rq (BitVec.ofNat 64 ((s.regRead rq l (if b = 0 then .low else .high)).1.toNat % 256 ^ 4))) := by
  have here : locate (addr / 2 ^ 32 % 4) (addr % 2 ^ 32) = some (l, b) := h.bytes 0 (by omega)
  rw [State.readOut_open h, s.mmioRead_half rq here hb hw, leNat_leBytes]

/-- Registers have 32 or 64 bits. -/
theorem RegName.width_cases (r : RegName) : r.place.width = 32 ∨ r.place.width = 64 := by
  cases r <;> decide

theorem RegName.width_of_latches {r : RegName} (h : r.latches = true) : r.place.width = 64 := by
  simp only [RegName.latches, Bool.and_eq_true, decide_eq_true_eq] at h
  exact h.1

/-! ### What a read clears -/

section
variable {s : State} {l : Loc} (hd : l.r ≠ .panDeadLog) (hv : l.r ≠ .pwrVmin)
include hv

theorem State.readValue_eq_view : s.readValue l = s.view l := by
  unfold State.readValue
  split
  · contradiction
  · rfl

include hd

/-- A read clears the RC bits of its register and changes nothing else (R10). -/
theorem State.readClear_spec : (s.readClear l).reg l = s.reg l &&& ~~~l.r.rcBits ∧ (∀ k, k.key ≠ l.key → (s.readClear l).reg k = s.reg k) ∧
    s.readClear l = { s with regs := (s.readClear l).regs } := by
  have e : s.readClear l = if l.r.rcBits = 0#64 then s else s.setReg l (s.reg l &&& ~~~l.r.rcBits) := by
    unfold State.readClear
    split
    · contradiction
    · contradiction
    · rfl
  rw [e]
  split
  next h => exact ⟨by rw [h, BitVec.not_zero, BitVec.and_allOnes], fun _ _ => rfl, rfl⟩
  next => exact ⟨State.reg_setReg _ _ _, fun _ hk => State.reg_setReg_other _ hk _, rfl⟩

end

theorem State.latch_unlatch (s : State) (k : Nat) : ∀ a ∈ (s.unlatch k).latch, a.key ≠ k := by
  intro a ha
  simpa using (List.mem_filter.mp ha).2

/-- The high half that was latched last for a register, with none before it, is found. -/
theorem find_latch_append {ls : List Latch} {k rq : Nat} (h : ∀ a ∈ ls, a.key ≠ k) (hi : W32) :
    (ls ++ [(⟨rq, k, hi⟩ : Latch)]).find? (fun a => decide (a.key = k) && decide (a.rq = rq)) = some ⟨rq, k, hi⟩ := by
  rw [List.find?_append, List.find?_eq_none.mpr fun a ha => by simp [h a ha]]
  simp

/-- A read of a whole register (R10). -/
theorem State.regRead_full {s : State} {l : Loc} (hv : l.r ≠ .pwrVmin) (hm : l.r.measured = false) (rq : Nat) :
    s.regRead rq l .full = (s.view l, (s.readClear l).unlatch l.key) := by
  simp only [State.regRead, hm, Bool.false_eq_true, if_false, State.readValue_eq_view hv]

/-- The machine after a read of a low half: cleared, with the high half latched for the requester. -/
def State.lowRead (s : State) (rq : Nat) (l : Loc) : State :=
  { (s.readClear l).unlatch l.key with
    latch := ((s.readClear l).unlatch l.key).latch ++ [⟨rq, l.key, BitVec.ofNat 32 (s.view l >>> 32).toNat⟩] }

/-- A read of a low half latches the high half for the requester (R13). -/
theorem State.regRead_low {s : State} {l : Loc} (hv : l.r ≠ .pwrVmin) (hm : l.r.measured = false) (hl : l.r.latches = true) (rq : Nat) :
    s.regRead rq l .low = (s.view l &&& 0xFFFFFFFF#64, s.lowRead rq l) := by
  simp only [State.regRead, hm, hl, Bool.false_eq_true, if_false, if_true, State.readValue_eq_view hv, State.lowRead]

/-- A read of a high half that the requester has latched returns it and ends the latch. -/
theorem State.regRead_high {s : State} {l : Loc} {rq : Nat} {a : Latch}
    (h : s.latch.find? (fun a => decide (a.key = l.key) && decide (a.rq = rq)) = some a) :
    s.regRead rq l .high = (BitVec.ofNat 64 a.hi.toNat, s.unlatch l.key) := by
  simp only [State.regRead, h]

/-- Beside registers and latches a read of a low half changes nothing. -/
theorem State.lowRead_frame {s : State} {l : Loc} (hd : l.r ≠ .panDeadLog) (hv : l.r ≠ .pwrVmin) (rq : Nat) :
    { s.lowRead rq l with regs := s.regs, latch := s.latch } = s := by
  obtain ⟨-, -, rest⟩ := State.readClear_spec (s := s) hd hv
  unfold State.lowRead State.unlatch
  generalize s.readClear l = x at rest
  rw [rest]

/-! ### READ_CLEAR_REGISTER_READ and LOW_HALF_READ -/

theorem exec_readClearRegisterRead (rq addr size : Nat) (s : State) :
    exec (.readClearRegisterRead rq addr size) s = .next (s.readOut rq addr size) := rfl
theorem exec_lowHalfRead (rq addr : Nat) (s : State) : exec (.lowHalfRead rq addr) s = .next (s.readOut rq addr 4) := rfl

theorem readClearRegisterRead_whole {s : State} {addr : Nat} {l : Loc} (h : FallsOn s addr (l.r.place.width / 8) l 0)
    (hd : l.r ≠ .panDeadLog) (hv : l.r ≠ .pwrVmin) (hm : l.r.measured = false) (rq : Nat) :
    ∃ u, exec (.readClearRegisterRead rq addr (l.r.place.width / 8)) s = .next u ∧
      u.out = .regRead rq (BitVec.ofNat 64 ((s.view l).toNat % 2 ^ l.r.place.width)) :: s.out ∧
      u.reg l = s.reg l &&& ~~~l.r.rcBits ∧ (∀ k, k.key ≠ l.key → u.reg k = s.reg k) ∧ (∀ a ∈ u.latch, a.key ≠ l.key) ∧
      { u with regs := s.regs, latch := s.latch, out := s.out } = s := by
  have e := State.readOut_whole h rq
  have bits : 256 ^ (l.r.place.width / 8) = 2 ^ l.r.place.width := by
    rcases l.r.width_cases with w | w <;> rw [w] <;> rfl
  rw [State.regRead_full hv hm, bits] at e
  obtain ⟨clears, others, rest⟩ := State.readClear_spec (s := s) hd hv
  have out : (s.readClear l).out = s.out := by rw [rest]
  have run : exec (.readClearRegisterRead rq addr (l.r.place.width / 8)) s = .next (((s.readClear l).unlatch l.key).emit
      (.regRead rq (BitVec.ofNat 64 ((s.view l).toNat % 2 ^ l.r.place.width)))) := by rw [exec_readClearRegisterRead, e]
  exact ⟨_, run, congrArg (OutMsg.regRead rq _ :: ·) out, clears, others, State.latch_unlatch _ _,
    congrArg (fun x : State => { x with regs := s.regs, latch := s.latch, out := s.out }) rest⟩

theorem lowHalfRead_latches {s : State} {addr : Nat} {l : Loc} (h : FallsOn s addr 4 l 0) (hl : l.r.latches = true)
    (hd : l.r ≠ .panDeadLog) (hv : l.r ≠ .pwrVmin) (hm : l.r.measured = false) (rq : Nat) :
    ∃ u, exec (.lowHalfRead rq addr) s = .next u ∧ exec (.readClearRegisterRead rq addr 4) s = .next u ∧
      u.out = .regRead rq (s.view l &&& 0xFFFFFFFF#64) :: s.out ∧
      u.reg l = s.reg l &&& ~~~l.r.rcBits ∧ (∀ k, k.key ≠ l.key → u.reg k = s.reg k) ∧
      { u with regs := s.regs, latch := s.latch, out := s.out } = s ∧
      (FallsOn s (addr + 4) 4 l 4 → ∃ w, exec (.readClearRegisterRead rq (addr + 4) 4) u = .next w ∧
        w.out = .regRead rq (s.view l >>> 32) :: u.out ∧ w.regs = u.regs ∧ ∀ a ∈ w.latch, a.key ≠ l.key) := by
  have longer : 4 < l.r.place.width / 8 := by rw [RegName.width_of_latches hl]; decide
  have e := State.readOut_half h rfl longer rq
  have low : BitVec.ofNat 64 ((s.view l &&& 0xFFFFFFFF#64).toNat % 256 ^ 4) = s.view l &&& 0xFFFFFFFF#64 := by
    have hlt : (s.view l &&& 0xFFFFFFFF#64).toNat < 256 ^ 4 := by
      rw [BitVec.toNat_and]
      exact Nat.and_lt_two_pow (n := 32) _ (by decide)
    rw [Nat.mod_eq_of_lt hlt, BitVec.ofNat_toNat, BitVec.setWidth_eq]
  rw [if_pos rfl, State.regRead_low hv hm hl, low] at e
  obtain ⟨clears, others, rest⟩ := State.readClear_spec (s := s) hd hv
  have frame := State.lowRead_frame (s := s) hd hv rq
  have out := congrArg State.out frame
  have run : s.readOut rq addr 4 = (s.lowRead rq l).emit (.regRead rq (s.view l &&& 0xFFFFFFFF#64)) := e
  refine ⟨(s.lowRead rq l).emit (.regRead rq (s.view l &&& 0xFFFFFFFF#64)), by rw [exec_lowHalfRead, run],
    by rw [exec_readClearRegisterRead, run], congrArg (OutMsg.regRead rq _ :: ·) out, clears, others,
    congrArg (fun x : State => { x with out := s.out }) frame, fun hh => ?_⟩
  have high : BitVec.ofNat 64 ((BitVec.ofNat 64 (BitVec.ofNat 32 (s.view l >>> 32).toNat).toNat).toNat % 256 ^ 4) = s.view l >>> 32 := by
    have hlt : (s.view l >>> 32).toNat < 2 ^ 32 := by
      rw [BitVec.toNat_ushiftRight, Nat.shiftRight_eq_div_pow]
      omega
    apply BitVec.eq_of_toNat_eq
    simp only [BitVec.toNat_ofNat]
    omega
  have found := find_latch_append (rq := rq) (State.latch_unlatch (s.readClear l) l.key) (BitVec.ofNat 32 (s.view l >>> 32).toNat)
  have opens : ∀ (m : OutMsg) t off, ((s.lowRead rq l).emit m).mmioOpen t off = s.mmioOpen t off := by
    intro m t off
    have opens := congrArg (fun x : State => x.mmioOpen t off) frame
    exact opens
  have e' := State.readOut_half (FallsOn.of_mmioOpen hh (opens (.regRead rq (s.view l &&& 0xFFFFFFFF#64)))) rfl longer rq
  rw [if_neg (by decide), State.regRead_high (s := (s.lowRead rq l).emit _) found, high] at e'
  exact ⟨_, (exec_readClearRegisterRead _ _ _ _).trans (congrArg _ e'), rfl, rfl, State.latch_unlatch _ _⟩

/-! ### Reads with a way of their own -/

/-- PAN_DEAD_LOG_READ (R298): the oldest entry leaves, and its stamp is latched. -/
theorem State.popDead_spec (s : State) (t : Nat) : ((s.popDead t).tower t).deadLog = (s.tower t).deadLog.tail ∧
    (∀ d rest, (s.tower t).deadLog = d :: rest → (s.popDead t).reg ⟨.panDeadStamp, t, 0, 0, 0⟩ = d.stamp) ∧
    (∀ k, k.key ≠ Loc.key ⟨.panDeadStamp, t, 0, 0, 0⟩ → (s.popDead t).reg k = s.reg k) ∧
    ((s.tower t).deadLog = [] → (s.popDead t).regs = s.regs) ∧
    (∀ k, k ≠ t → (s.popDead t).tower k = s.tower k) ∧ s.popDead t = { s with regs := (s.popDead t).regs, towers := (s.popDead t).towers } := by
  cases h : (s.tower t).deadLog with
  | nil =>
    have e : s.popDead t = s := by simp only [State.popDead, h]
    rw [e]
    exact ⟨by rw [h]; rfl, fun _ _ hc => by simp at hc, fun _ _ => rfl, fun _ => rfl, fun _ _ => rfl, rfl⟩
  | cons d rest =>
    have e : s.popDead t = (s.modTower t fun w => { w with deadLog := rest }).setReg ⟨.panDeadStamp, t, 0, 0, 0⟩ d.stamp := by
      simp only [State.popDead, h]
    rw [e]
    refine ⟨?_, ?_, ?_, ?_, ?_, rfl⟩
    · exact congrArg Tower.deadLog (s.tower_modTower t fun w => { w with deadLog := rest })
    · intro d' rest' hc
      rw [State.reg_setReg, (List.cons.inj hc).1]
    · exact fun k hk => State.reg_setReg_other _ hk _
    · intro hc
      simp at hc
    · exact fun k hk => s.tower_modTower_other hk fun w => { w with deadLog := rest }

theorem panDeadLogRead_pops (s : State) (t : Fin 4) (ho : s.mmioOpen t 0x10000000 = true) :
    ∃ u, exec (.panDeadLogRead t) s = .next u ∧
      u.out = .regRead 0 (s.view ⟨.panDeadLog, t, 0, 0, 0⟩) :: s.out ∧
      (u.tower t).deadLog = (s.tower t).deadLog.tail ∧
      (∀ d rest, (s.tower t).deadLog = d :: rest → u.reg ⟨.panDeadStamp, t, 0, 0, 0⟩ = d.stamp) ∧
      (∀ k, k.key ≠ Loc.key ⟨.panDeadStamp, t, 0, 0, 0⟩ → u.reg k = s.reg k) ∧
      ((s.tower t).deadLog = [] → u.regs = s.regs) ∧ TowerOnly s { u with regs := s.regs, latch := s.latch, out := s.out } t := by
  obtain ⟨oldest, stamp, others, empty, towers, rest⟩ := s.popDead_spec t
  have e : exec (.panDeadLogRead t) s =
      .next (((s.popDead t).unlatch (Loc.key ⟨.panDeadLog, t, 0, 0, 0⟩)).emit (.regRead 0 (s.view ⟨.panDeadLog, t, 0, 0, 0⟩))) :=
    congrArg Host.Outcome.next (if_pos ho)
  have out : (s.popDead t).out = s.out := by rw [rest]
  exact ⟨_, e, congrArg (OutMsg.regRead 0 _ :: ·) out, oldest, stamp, others, empty,
    ⟨towers, congrArg (fun x : State => { x with regs := s.regs, towers := s.towers, latch := s.latch, out := s.out }) rest⟩⟩

theorem pwrVminRead_measures (s : State) (t : Fin 4) (d : Nat) (ho : s.mmioOpen t 0x10000000 = true) (hd : isDomain s.mod.variant t d = true) :
    ∃ u v, exec (.pwrVminRead t d) s = .next u ∧ u.out = .regRead 0 v :: s.out ∧ v.toNat < 65536 ∧
      (u.reg ⟨.pwrVminStamp, t, 0, d, 0⟩).toNat ≤ s.stamp t ∧
      (∀ k, k.key ≠ Loc.key ⟨.pwrVminStamp, t, 0, d, 0⟩ → u.reg k = s.reg k) ∧
      { u with regs := s.regs, latch := s.latch, out := s.out, free := s.free } = s := by
  have value : s.readValue ⟨.pwrVmin, t, 0, d, 0⟩ = BitVec.ofNat 64 (s.free1 % 65536) := if_pos hd
  have e : exec (.pwrVminRead t d) s = .next (((s.popVmin t d).unlatch (Loc.key ⟨.pwrVmin, t, 0, d, 0⟩)).emit
      (.regRead 0 (BitVec.ofNat 64 (s.free1 % 65536)))) := by
    rw [← value]
    exact congrArg Host.Outcome.next (if_pos ⟨ho, hd⟩)
  refine ⟨_, _, e, rfl, ?_, ?_, fun k hk => State.reg_setReg_other _ hk _, rfl⟩
  · rw [BitVec.toNat_ofNat]
    omega
  · have stamp : (s.popVmin t d).reg ⟨.pwrVminStamp, t, 0, d, 0⟩ = BitVec.ofNat 64 (Config.freeNat (s.free + 1) % (s.stamp t + 1)) :=
      State.reg_setReg _ _ _
    calc ((s.popVmin t d).reg ⟨.pwrVminStamp, t, 0, d, 0⟩).toNat
        ≤ Config.freeNat (s.free + 1) % (s.stamp t + 1) := by rw [stamp, BitVec.toNat_ofNat]; exact Nat.mod_le _ _
      _ ≤ s.stamp t := Nat.lt_succ_iff.mp (Nat.mod_lt _ (Nat.succ_pos _))

end Sys2Proof.Machine

open Sys2Proof Sys2Proof.Machine Sys2Proof.Claims

/-- Settles O56: reads of a whole register and of a low half are one read of that register; the dead log and the lowest voltage
have reads of their own. -/
theorem registerReadsClearAndLatch : Obligations.RegisterReadsClearAndLatch := fun s =>
  ⟨fun rq _ _ h hd hv hm => readClearRegisterRead_whole h hd hv hm rq, fun rq _ _ h hl hd hv hm => lowHalfRead_latches h hl hd hv hm rq,
    panDeadLogRead_pops s, pwrVminRead_measures s⟩

end

section
/-! PROOF. Commit requests (R11, R119, R267, R301, R318, R347, R416): what they take, and what waits. -/

namespace Sys2Proof.Machine

open Sys2Proof.Claims

/-! ### The registers that a commit covers -/

/-- The registers that CMD_COMMIT covers. -/
theorem mem_commitSet_cmdCommit {t u : Nat} {l : Loc} : l ∈ commitSet .cmdCommit t u ↔
    (∃ r ∈ [RegName.cmdQring, .cmdQcring, .cmdQcfg, .cmdQctx], ∃ i < 256, l = ⟨r, t, 0, i, 0⟩) ∨ l = ⟨.cmdDispatch, t, 0, 0, 0⟩ := by
  have locs : ∀ r ∈ [RegName.cmdQring, .cmdQcring, .cmdQcfg, .cmdQctx], l ∈ r.locs t 0 ↔ ∃ i < 256, l = ⟨r, t, 0, i, 0⟩ := by
    intro r hr
    have places : r.place.n1 = 256 ∧ r.place.n2 = 1 := by
      simp only [List.mem_cons, List.not_mem_nil, or_false] at hr
      rcases hr with rfl | rfl | rfl | rfl <;> exact ⟨rfl, rfl⟩
    simp only [RegName.locs, places.1, places.2, List.mem_flatMap, List.mem_range, List.mem_map, Nat.lt_one_iff, exists_eq_left, eq_comm]
  simp only [commitSet, List.mem_append, List.mem_flatMap, List.mem_singleton]
  exact or_congr_left (exists_congr fun r => and_congr_right (locs r))

/-- The short lists of a commit's registers name different places. -/
theorem commitSet_keys_nodup {r : RegName} (h : r ≠ .cmdCommit) (t u : Nat) : ((commitSet r t u).map Loc.key).Nodup := by
  unfold commitSet
  split
  case h_6 => contradiction
  all_goals simp [Loc.key, RegName.shared, RegName.unitBase, RegName.place]

/-- No two registers that one commit covers lie at one place. -/
theorem commitSet_key_inj {r : RegName} {t u : Nat} {a b : Loc} (ha : a ∈ commitSet r t u) (hb : b ∈ commitSet r t u) (h : a.key = b.key) :
    a = b := by
  by_cases hr : r = .cmdCommit
  · subst hr
    have queueKey : ∀ r ∈ [RegName.cmdQring, .cmdQcring, .cmdQcfg, .cmdQctx], ∀ i,
        Loc.key ⟨r, t, 0, i, 0⟩ = t * 0x100000000 + 0x17000000 + r.place.off + 0x40 * i ∧ r.place.off < 0x40 := by
      intro r hr i
      simp only [List.mem_cons, List.not_mem_nil, or_false] at hr
      rcases hr with rfl | rfl | rfl | rfl <;> simp [Loc.key, RegName.shared, RegName.unitBase, RegName.place]
    have dispatchKey : Loc.key ⟨.cmdDispatch, t, 0, 0, 0⟩ = t * 0x100000000 + 0x17000000 + 0x4000 := by
      simp [Loc.key, RegName.shared, RegName.unitBase, RegName.place]
    have offs : ∀ r ∈ [RegName.cmdQring, .cmdQcring, .cmdQcfg, .cmdQctx], ∀ r' ∈ [RegName.cmdQring, .cmdQcring, .cmdQcfg, .cmdQctx],
        r.place.off = r'.place.off → r = r' := by decide
    rcases mem_commitSet_cmdCommit.mp ha with ⟨r, hr, i, hi, rfl⟩ | rfl <;> rcases mem_commitSet_cmdCommit.mp hb with ⟨r', hr', i', hi', rfl⟩ | rfl
    · obtain ⟨k, o⟩ := queueKey r hr i
      obtain ⟨k', o'⟩ := queueKey r' hr' i'
      rw [offs r hr r' hr' (by omega), show i = i' by omega]
    · obtain ⟨k, o⟩ := queueKey r hr i
      omega
    · obtain ⟨k, o⟩ := queueKey r' hr' i'
      omega
    · rfl
  · exact List.inj_on_of_nodup_map (commitSet_keys_nodup hr t u) ha hb h

/-! ### A request takes the staged copies -/

/-- The copies that a request takes of registers at different places are their staged ones; every other copy stays, and
nothing else changes. -/
theorem lockAll_spec (ls : List Loc) (hinj : ∀ a ∈ ls, ∀ b ∈ ls, a.key = b.key → a = b) (s : State) :
    (∀ l ∈ ls, (ls.foldl State.lockOne s).lck l = s.stg l) ∧
    (∀ l : Loc, (∀ k ∈ ls, k.key ≠ l.key) → (ls.foldl State.lockOne s).lck l = s.lck l) ∧
    ls.foldl State.lockOne s = { s with locked := (ls.foldl State.lockOne s).locked } := by
  induction ls generalizing s with
  | nil => exact ⟨by simp, fun _ _ => rfl, rfl⟩
  | cons a ls ih =>
    obtain ⟨taken, others, rest⟩ := ih (fun x hx y hy => hinj x (.tail _ hx) y (.tail _ hy)) (s.lockOne a)
    refine ⟨fun l hl => ?_, fun l hl => ?_, rest⟩
    · by_cases h : l ∈ ls
      · exact taken l h
      · obtain rfl : l = a := (List.mem_cons.mp hl).resolve_right h
        have apart : ∀ k ∈ ls, k.key ≠ l.key := fun k hk e => h (hinj k (.tail _ hk) l hl e ▸ hk)
        exact (others l apart).trans (State.lck_setLck _ _ _)
    · rw [List.foldl_cons, others l fun k hk => hl k (.tail _ hk)]
      exact State.lck_setLck_other _ (hl a (.head _)).symm _

/-- What a commit request does: it takes the staged copies of its block and waits (R11). -/
theorem State.requestCommit_spec (s : State) (r : RegName) (t u : Nat) : Requested s (s.requestCommit r t u) (commitSet r t u) ⟨r, t, u, 0, 0⟩ := by
  obtain ⟨taken, others, rest⟩ := lockAll_spec (commitSet r t u) (fun _ ha _ hb => commitSet_key_inj ha hb) s
  have waits : bit ((s.requestCommit r t u).reg ⟨r, t, u, 0, 0⟩) 1 = true := by
    rw [State.requestCommit, State.reg_setReg, bit, setFld_getLsbD _ _ _ _ _ (by omega) (le_refl 1)]
    rfl
  refine ⟨taken, others, waits, fun l hl => ?_, ?_⟩
  · exact (State.reg_setReg_other _ hl _).trans (by rw [rest]; rfl)
  · have frame := congrArg (fun x : State => { x with regs := s.regs, locked := s.locked, latch := s.latch, staged := s.staged }) rest
    exact frame

/-- It also leaves every staged copy. -/
theorem State.requestCommit_staged (s : State) (r : RegName) (t u : Nat) : (s.requestCommit r t u).staged = s.staged := by
  obtain ⟨-, -, rest⟩ := lockAll_spec (commitSet r t u) (fun _ ha _ hb => commitSet_key_inj ha hb) s
  have staged := congrArg State.staged rest
  exact staged

/-- A request covers the registers of its block in any order. -/
theorem Requested.of_mem_iff {s u : State} {ls ks : List Loc} {c : Loc} (h : Requested s u ls c) (e : ∀ l, l ∈ ks ↔ l ∈ ls) : Requested s u ks c :=
  ⟨fun l hl => h.taken l ((e l).mp hl), fun l hl => h.others l fun k hk => hl k ((e k).mpr hk), h.waits, h.still, h.rest⟩

/-- Latches count for nothing in a request. -/
theorem Requested.of_unlatch {s u : State} {k : Nat} {ls : List Loc} {c : Loc} (h : Requested (s.unlatch k) u ls c) : Requested s u ls c := by
  refine ⟨h.taken, h.others, h.waits, h.still, ?_⟩
  have frame := congrArg (fun x : State => { x with latch := s.latch }) h.rest
  exact frame

/-! ### The commit registers -/

/-- Bit 0 of the 32 bits that a commit write carries. -/
theorem commit_bit (v : W32) : bit (BitVec.ofNat 64 v.toNat &&& 0xFFFFFFFF#64) 0 = v.getLsbD 0 := by
  rw [bit, BitVec.getLsbD_and, BitVec.getLsbD_ofNat, BitVec.testBit_toNat]
  simp

/-- A write of a commit register: 1 takes the staged copies of its block, 0 does nothing. -/
theorem State.commitWrite_spec (s : State) {l : Loc} {off : Nat} {v : W32} (ho : s.mmioOpen l.t off = true)
    (hw : ∀ x m, s.regWrite l x m = if bit (x &&& m) 0 then (s.unlatch l.key).requestCommit l.r l.t l.u else s.unlatch l.key)
    (hl : l = ⟨l.r, l.t, l.u, 0, 0⟩) :
    if v.getLsbD 0 then Requested s (s.commitWrite l off v) (commitSet l.r l.t l.u) l else { s.commitWrite l off v with latch := s.latch } = s := by
  have e : s.commitWrite l off v = if v.getLsbD 0 then (s.unlatch l.key).requestCommit l.r l.t l.u else s.unlatch l.key := by
    rw [State.commitWrite, if_pos ho, hw, commit_bit]
  rw [e]
  split
  · have req := Requested.of_unlatch ((s.unlatch l.key).requestCommit_spec l.r l.t l.u)
    rwa [← hl] at req
  · rfl

end Sys2Proof.Machine
end

section
/-! PROOF. The commit registers of the blocks, of the dispatchers and of the check-value units (R11, R446). -/

namespace Sys2Proof.Machine

open Sys2Proof.Claims

/-! ### Staged values brought into range (log entry 25) -/

/-- u is s but for staged copies. -/
def StagedOnly (s u : State) : Prop := { u with staged := s.staged } = s

theorem StagedOnly.refl (s : State) : StagedOnly s s := rfl
theorem StagedOnly.setStg (s : State) (l : Loc) (v : W64) : StagedOnly s (s.setStg l v) := rfl

theorem StagedOnly.trans {s u w : State} (h : StagedOnly s u) (g : StagedOnly u w) : StagedOnly s w := by
  unfold StagedOnly at *
  rw [← g] at h
  exact h

theorem StagedOnly.foldl {α : Type} {f : State → α → State} (h : ∀ s a, StagedOnly s (f s a)) (l : List α) (s : State) :
    StagedOnly s (l.foldl f s) :=
  List.foldlRecOn l f (motive := StagedOnly s) (.refl s) fun _ hb a _ => hb.trans (h _ a)

/-- A conditional update of staged copies. -/
theorem StagedOnly.ite {s a b : State} (c : Prop) [Decidable c] (ha : StagedOnly s a) (hb : StagedOnly s b) :
    StagedOnly s (if c then a else b) := by
  split
  · exact ha
  · exact hb

theorem State.stgRange_stagedOnly (s : State) (f : Fld) (lo hi t i : Nat) : StagedOnly s (s.stgRange f lo hi t i) :=
  .ite _ (.refl s) (.setStg s _ _)

theorem State.saneQueue_stagedOnly (s : State) (t i : Nat) : StagedOnly s (s.saneQueue t i) := by
  refine .ite _ (.foldl (fun s l => .setStg s l _) _ s) ?_
  have sizes := (s.stgRange_stagedOnly cmdQcfgSizeLog2 4 16 t i).trans (State.stgRange_stagedOnly _ cmdQcfgCsizeLog2 4 16 t i)
  exact .ite _ sizes (sizes.trans (.setStg _ _ _))

theorem State.saneCmd_stagedOnly (s : State) (t : Nat) : StagedOnly s (s.saneCmd t) :=
  (((StagedOnly.foldl (fun s i => s.saneQueue_stagedOnly t i) _ s).trans (State.stgRange_stagedOnly _ _ _ _ _ _)).trans
    (State.stgRange_stagedOnly _ _ _ _ _ _)).trans (State.stgRange_stagedOnly _ _ _ _ _ _) |>.trans (State.stgRange_stagedOnly _ _ _ _ _ _)

/-- A staged field brought into range lies in it. -/
theorem State.stgRange_in (s : State) (f : Fld) {lo hi : Nat} (t i : Nat) (h : lo ≤ hi) (hf : hi < 2 ^ (f.hi + 1 - f.lo)) (h64 : f.hi < 64)
    (hl : f.lo ≤ f.hi) : lo ≤ fld ((s.stgRange f lo hi t i).stg ⟨f.reg, t, 0, i, 0⟩) f.hi f.lo ∧
      fld ((s.stgRange f lo hi t i).stg ⟨f.reg, t, 0, i, 0⟩) f.hi f.lo ≤ hi := by
  unfold State.stgRange
  dsimp only
  split
  case isTrue hin => exact hin
  case isFalse =>
    rw [State.stg_setStg, fld_setFld _ _ _ _ h64 hl, Nat.mod_eq_of_lt (by unfold clampN; omega)]
    unfold clampN
    omega

/-- Another staged field of the register stays. -/
theorem State.stgRange_other (s : State) (f : Fld) {hi' lo' : Nat} (lo hi t i : Nat) (h64 : f.hi < 64) (hl : f.lo ≤ f.hi) (hg : lo' ≤ hi')
    (h : hi' < f.lo ∨ f.hi < lo') : fld ((s.stgRange f lo hi t i).stg ⟨f.reg, t, 0, i, 0⟩) hi' lo' = fld (s.stg ⟨f.reg, t, 0, i, 0⟩) hi' lo' := by
  unfold State.stgRange
  dsimp only
  split
  · rfl
  · rw [State.stg_setStg, fld_setFld_other _ _ _ _ _ _ h64 hl hg h]

/-- After the checks the slice and the limit of queues at class 7 lie in their ranges (R374). -/
theorem State.saneCmd_dispatch (s : State) (t : Nat) :
    let w := (s.saneCmd t).stg ⟨.cmdDispatch, t, 0, 0, 0⟩
    (10 ≤ fld w cmdDispatchSliceUs.hi cmdDispatchSliceUs.lo ∧ fld w cmdDispatchSliceUs.hi cmdDispatchSliceUs.lo ≤ 1000) ∧
      1 ≤ fld w cmdDispatchClass7QueueLimit.hi cmdDispatchClass7QueueLimit.lo ∧
      fld w cmdDispatchClass7QueueLimit.hi cmdDispatchClass7QueueLimit.lo ≤ 64 := by
  intro w
  have defer := fun (s : State) (hi' lo' : Nat) =>
    s.stgRange_other cmdDispatchDeferLimitUs (hi' := hi') (lo' := lo') 10 100000 t 0 (by decide) (by decide)
  have grant := fun (s : State) (hi' lo' : Nat) =>
    s.stgRange_other cmdDispatchGrantBoundUs (hi' := hi') (lo' := lo') 10 1000 t 0 (by decide) (by decide)
  have class7 := fun (s : State) (hi' lo' : Nat) =>
    s.stgRange_other cmdDispatchClass7QueueLimit (hi' := hi') (lo' := lo') 1 64 t 0 (by decide) (by decide)
  have slice := fun (s : State) => s.stgRange_in cmdDispatchSliceUs (lo := 10) (hi := 1000) t 0 (by decide) (by decide) (by decide) (by decide)
  have limit := fun (s : State) => s.stgRange_in cmdDispatchClass7QueueLimit (lo := 1) (hi := 64) t 0 (by decide) (by decide) (by decide) (by decide)
  constructor
  · have e : fld w cmdDispatchSliceUs.hi cmdDispatchSliceUs.lo = _ := (defer _ _ _ (by decide) (by decide)).trans
      ((grant _ _ _ (by decide) (by decide)).trans (class7 _ _ _ (by decide) (by decide)))
    rw [e]
    exact slice _
  · have e : fld w cmdDispatchClass7QueueLimit.hi cmdDispatchClass7QueueLimit.lo = _ := (defer _ _ _ (by decide) (by decide)).trans
      (grant _ _ _ (by decide) (by decide))
    rw [e]
    exact limit _

/-! ### The commit registers of a tower -/

/-- CEL_COMMIT covers both dies (R267). -/
theorem celCommitWrite_requests (s : State) (t : Fin 4) (v : W32) (ho : s.mmioOpen t 0x10000000 = true) :
    if v.getLsbD 0 then Requested s (s.commitWrite ⟨.celCommit, t, 0, 0, 0⟩ 0x10000000 v)
        ([0, 1].flatMap fun d => [⟨.celSplit, t, d, 0, 0⟩, ⟨.celScrubCtl, t, d, 0, 0⟩]) ⟨.celCommit, t, 0, 0, 0⟩
    else { s.commitWrite ⟨.celCommit, t, 0, 0, 0⟩ 0x10000000 v with latch := s.latch } = s := by
  have upper : ∀ x m, s.regWrite ⟨.celCommit, t, 0, 0, 0⟩ x m = if bit (x &&& m) 0 then
      (s.unlatch (Loc.key ⟨.celCommit, t, 0, 0, 0⟩)).requestCommit .celCommit t 0 else s.unlatch (Loc.key ⟨.celCommit, t, 0, 0, 0⟩) :=
    fun _ _ => if_congr (and_iff_left rfl) rfl rfl
  have req := s.commitWrite_spec (v := v) ho upper rfl
  split at req
  case isTrue hv =>
    rw [if_pos hv]
    refine Requested.of_mem_iff req fun l => ?_
    simp only [commitSet, List.mem_flatMap, List.mem_cons, List.not_mem_nil, or_false, exists_eq_or_imp, exists_eq_left]
    tauto
  case isFalse hv =>
    rw [if_neg hv]
    exact req

/-- A write of the dispatchers' commit register (R11): the staged values come into range, and then they are taken. -/
theorem cmdCommitWrite_requests (s : State) (t : Fin 4) (v : W32) (ho : s.mmioOpen t 0x10000000 = true) :
    ∃ u, exec (.cmdCommitWrite t v) s = .next u ∧
      (if v.getLsbD 0 then u.commitPending .cmdCommit t 0 = true ∧ (∀ l, l.key ≠ Loc.key ⟨.cmdCommit, t, 0, 0, 0⟩ → u.reg l = s.reg l) ∧
          (∀ l ∈ commitSet .cmdCommit t 0, u.lck l = u.stg l) ∧
          (let w := u.lck ⟨.cmdDispatch, t, 0, 0, 0⟩
           10 ≤ fld w cmdDispatchSliceUs.hi cmdDispatchSliceUs.lo ∧ fld w cmdDispatchSliceUs.hi cmdDispatchSliceUs.lo ≤ 1000 ∧
           1 ≤ fld w cmdDispatchClass7QueueLimit.hi cmdDispatchClass7QueueLimit.lo ∧
           fld w cmdDispatchClass7QueueLimit.hi cmdDispatchClass7QueueLimit.lo ≤ 64) ∧
          { u with regs := s.regs, locked := s.locked, latch := s.latch, staged := s.staged } = s
       else { u with latch := s.latch } = s) := by
  have run : exec (.cmdCommitWrite t v) s = .next (if v.getLsbD 0 then
      ((s.unlatch (Loc.key ⟨.cmdCommit, t, 0, 0, 0⟩)).saneCmd t).requestCommit .cmdCommit t 0
      else s.unlatch (Loc.key ⟨.cmdCommit, t, 0, 0, 0⟩)) := by
    rw [← commit_bit]
    exact congrArg Host.Outcome.next (if_pos ho)
  refine ⟨_, run, ?_⟩
  split
  · have sane := (s.unlatch (Loc.key ⟨.cmdCommit, t, 0, 0, 0⟩)).saneCmd_stagedOnly t
    obtain ⟨⟨h1, h2⟩, h3, h4⟩ := (s.unlatch (Loc.key ⟨.cmdCommit, t, 0, 0, 0⟩)).saneCmd_dispatch t
    generalize (s.unlatch (Loc.key ⟨.cmdCommit, t, 0, 0, 0⟩)).saneCmd t = y at sane h1 h2 h3 h4 ⊢
    obtain ⟨taken, -, waits, still, rest⟩ := y.requestCommit_spec .cmdCommit t 0
    have staged : ∀ l, (y.requestCommit .cmdCommit t 0).stg l = y.stg l := fun l =>
      congrArg (fun m => SMap.get l.r.resetWord m l.key) (y.requestCommit_staged .cmdCommit t 0)
    have dispatch := taken ⟨.cmdDispatch, t, 0, 0, 0⟩ (mem_commitSet_cmdCommit.mpr (.inr rfl))
    have regs := congrArg State.regs sane
    refine ⟨waits, fun l hl => (still l hl).trans ?_, fun l hl => (taken l hl).trans (staged l).symm, ?_, ?_⟩
    · exact congrArg (fun m => SMap.get l.r.resetWord m l.key) regs
    · rw [dispatch]
      exact ⟨h1, h2, h3, h4⟩
    · generalize y.requestCommit .cmdCommit t 0 = u at rest
      have frame := congrArg (fun y : State => { y with regs := s.regs, locked := s.locked, latch := s.latch, staged := s.staged }) rest
      have frame' := congrArg (fun y : State => { y with regs := s.regs, locked := s.locked, latch := s.latch, staged := s.staged }) sane
      exact frame.trans frame'
  · rfl

/-! ### Check-value units -/

/-- The registers of a context that a commit makes active (R446). -/
def cvuParams : List RegName := [.cvuCtl, .cvuPoly, .cvuRun, .cvuXorout, .cvuExpect, .cvuLimit]

theorem cvuParams_key {r : RegName} (h : r ∈ cvuParams) (t u i : Nat) :
    Loc.key ⟨r, t, u, i, 0⟩ = t * 0x100000000 + RegName.unitBase .cvuCtl u + r.place.off + 0x40 * i ∧ r.place.off < 0x40 := by
  simp only [cvuParams, List.mem_cons, List.not_mem_nil, or_false] at h
  rcases h with rfl | rfl | rfl | rfl | rfl | rfl <;> simp [Loc.key, RegName.shared, RegName.unitBase, RegName.place]

/-- Two parameters of a unit lie at one place only where they are the same. -/
theorem cvuParams_key_inj {r q : RegName} (hr : r ∈ cvuParams) (hq : q ∈ cvuParams) {t u i j : Nat}
    (h : Loc.key ⟨r, t, u, i, 0⟩ = Loc.key ⟨q, t, u, j, 0⟩) : r = q ∧ i = j := by
  have offs : ∀ a ∈ cvuParams, ∀ b ∈ cvuParams, a.place.off = b.place.off → a = b := by decide
  obtain ⟨kr, or⟩ := cvuParams_key hr t u i
  obtain ⟨kq, oq⟩ := cvuParams_key hq t u j
  exact ⟨offs r hr q hq (by omega), by omega⟩

/-- A staged copy taken and made active at once. -/
def State.applyOne (s : State) (l : Loc) : State := (s.lockOne l).activate l

theorem State.reg_applyOne (s : State) (l : Loc) : (s.applyOne l).reg l = merge (s.reg l) (s.stg l) l.r.wsBits := by
  rw [State.applyOne, State.reg_activate, State.lockOne, State.lck_setLck, State.reg_setLck]
  rfl

/-- Parameters of one context made active: each takes its staged WS bits, and no other register changes. -/
theorem applyAll_spec (t u i : Nat) (rs : List RegName) (hp : ∀ r ∈ rs, r ∈ cvuParams) (hn : rs.Nodup) (s : State) :
    (∀ r ∈ rs, (rs.foldl (fun s r => s.applyOne ⟨r, t, u, i, 0⟩) s).reg ⟨r, t, u, i, 0⟩ =
      merge (s.reg ⟨r, t, u, i, 0⟩) (s.stg ⟨r, t, u, i, 0⟩) r.wsBits) ∧
    (∀ l : Loc, (∀ r ∈ rs, Loc.key ⟨r, t, u, i, 0⟩ ≠ l.key) → (rs.foldl (fun s r => s.applyOne ⟨r, t, u, i, 0⟩) s).reg l = s.reg l) := by
  induction rs generalizing s with
  | nil => exact ⟨by simp, fun _ _ => rfl⟩
  | cons a rs ih =>
    obtain ⟨ha, hrs⟩ := List.nodup_cons.mp hn
    obtain ⟨taken, others⟩ := ih (fun r hr => hp r (.tail _ hr)) hrs (s.applyOne ⟨a, t, u, i, 0⟩)
    have apart : ∀ r ∈ rs, Loc.key ⟨r, t, u, i, 0⟩ ≠ Loc.key ⟨a, t, u, i, 0⟩ := fun r hr e =>
      ha ((cvuParams_key_inj (hp r (.tail _ hr)) (hp a (.head _)) e).1 ▸ hr)
    refine ⟨fun r hr => ?_, fun l hl => ?_⟩
    · rcases List.mem_cons.mp hr with rfl | hr
      · exact (others _ apart).trans (s.reg_applyOne _)
      · rw [List.foldl_cons, taken r hr]
        exact congrArg (merge · _ _) (State.reg_activate_other _ (apart r hr))
    · exact (others l fun r hr => hl r (.tail _ hr)).trans (State.reg_activate_other _ (hl a (.head _)).symm)

/-- u is s but for active and requested register values and the contexts of check-value units. -/
def CvuOnly (s u : State) : Prop := { u with regs := s.regs, locked := s.locked, cvu := s.cvu } = s

theorem CvuOnly.refl (s : State) : CvuOnly s s := rfl
theorem CvuOnly.applyOne (s : State) (l : Loc) : CvuOnly s (s.applyOne l) := rfl
theorem CvuOnly.setCtx (s : State) (t u i : Nat) (x : CvuCtx) : CvuOnly s (s.setCtx t u i x) := rfl

theorem CvuOnly.trans {s u w : State} (h : CvuOnly s u) (g : CvuOnly u w) : CvuOnly s w := by
  unfold CvuOnly at *
  rw [← g] at h
  exact h

theorem State.setCtx_regs (s : State) (t u i : Nat) (x : CvuCtx) : (s.setCtx t u i x).regs = s.regs := rfl

/-- A context read after one is written. -/
theorem State.ctx_setCtx (s : State) (t u i : Nat) (x : CvuCtx) : (s.setCtx t u i x).ctx t u i = x := SMap.get_put_self _ _ _ _

theorem State.ctx_setCtx_other (s : State) (t u : Nat) {i j : Nat} (h : j ≠ i) (x : CvuCtx) : (s.setCtx t u i x).ctx t u j = s.ctx t u j :=
  SMap.get_put_other _ _ (by unfold cvuKey; omega)

/-- The parameters of a context made active. -/
def State.applyParams (s : State) (t u i : Nat) : State := cvuParams.foldl (fun s r => s.applyOne ⟨r, t, u, i, 0⟩) s

theorem State.applyParams_only (s : State) (t u i : Nat) : CvuOnly s (s.applyParams t u i) ∧ (s.applyParams t u i).cvu = s.cvu :=
  List.foldlRecOn cvuParams _ (motive := fun x => CvuOnly s x ∧ x.cvu = s.cvu) ⟨.refl s, rfl⟩ fun x hx r _ =>
    ⟨hx.1.trans (.applyOne x ⟨r, t, u, i, 0⟩), hx.2⟩

/-- A boundary of one context: its parameters become active, and a running value written since the last commit replaces the
running value. -/
theorem State.cvuApply_eq (s : State) (t u i : Nat) : s.cvuApply t u i =
    if (s.ctx t u i).newRun then (s.applyParams t u i).setCtx t u i
      { s.ctx t u i with run := (s.applyParams t u i).reg ⟨.cvuRun, t, u, i, 0⟩, newRun := false }
    else s.applyParams t u i := by
  have same : (s.applyParams t u i).ctx t u i = s.ctx t u i := by rw [State.ctx, (s.applyParams_only t u i).2, State.ctx]
  rw [← same]
  rfl

/-- What a context of a unit consists of: its active parameters, the staged copies, its running state. -/
def State.cvuView (s : State) (t u i : Nat) : (RegName → W64) × SMap W64 × CvuCtx :=
  (fun r => if r ∈ cvuParams then s.reg ⟨r, t, u, i, 0⟩ else 0#64, s.staged, s.ctx t u i)

theorem State.cvuApply_only (s : State) (t u i : Nat) : CvuOnly s (s.cvuApply t u i) := by
  rw [State.cvuApply_eq]
  split
  · exact (s.applyParams_only t u i).1.trans (.setCtx _ _ _ _ _)
  · exact (s.applyParams_only t u i).1

theorem State.cvuApply_regs (s : State) (t u i : Nat) : (s.cvuApply t u i).regs = (s.applyParams t u i).regs := by
  rw [State.cvuApply_eq]
  split
  · exact State.setCtx_regs _ _ _ _ _
  · rfl

/-- The parameters of a context after its boundary. -/
theorem State.reg_cvuApply (s : State) (t u i : Nat) {r : RegName} (hr : r ∈ cvuParams) :
    (s.cvuApply t u i).reg ⟨r, t, u, i, 0⟩ = merge (s.reg ⟨r, t, u, i, 0⟩) (s.stg ⟨r, t, u, i, 0⟩) r.wsBits := by
  rw [State.reg, State.cvuApply_regs]
  exact (applyAll_spec t u i cvuParams (fun _ h => h) (by decide) s).1 r hr

/-- The boundary of one context leaves every other one of its unit. -/
theorem State.cvuView_cvuApply_other (s : State) (t u : Nat) {i j : Nat} (h : j ≠ i) : (s.cvuApply t u i).cvuView t u j = s.cvuView t u j := by
  have regs : ∀ r ∈ cvuParams, (s.cvuApply t u i).reg ⟨r, t, u, j, 0⟩ = s.reg ⟨r, t, u, j, 0⟩ := by
    intro r hr
    rw [State.reg, State.cvuApply_regs]
    exact (applyAll_spec t u i cvuParams (fun _ h => h) (by decide) s).2 _ fun q hq e => h (cvuParams_key_inj hq hr e).2.symm
  have ctx : (s.cvuApply t u i).ctx t u j = s.ctx t u j := by
    have kept : (s.applyParams t u i).ctx t u j = s.ctx t u j := by rw [State.ctx, (s.applyParams_only t u i).2, State.ctx]
    rw [State.cvuApply_eq]
    split
    · rw [State.ctx_setCtx_other _ _ _ h, kept]
    · exact kept
  have staged := congrArg State.staged (s.cvuApply_only t u i)
  refine Prod.ext (funext fun r => ?_) (Prod.ext staged ctx)
  dsimp only [State.cvuView]
  split
  · exact regs r ‹_›
  · rfl

/-- A step for each of some indices, seen where only the step of one of them counts. -/
theorem foldl_seen_once {σ α β : Type} (f : σ → α → σ) (see : σ → β) {a : α} (other : ∀ s b, b ≠ a → see (f s b) = see s) {l : List α}
    (hn : l.Nodup) (ha : a ∈ l) (s : σ) : ∃ x, see x = see s ∧ see (l.foldl f s) = see (f x a) := by
  obtain ⟨p, q, rfl⟩ := List.append_of_mem ha
  have unseen : ∀ m : List α, (∀ b ∈ m, b ≠ a) → ∀ x, see (m.foldl f x) = see x := fun m hm x =>
    List.foldlRecOn m f (motive := fun y => see y = see x) rfl fun y hy b hb => (other y b (hm b hb)).trans hy
  obtain ⟨-, hq, hp⟩ := List.nodup_append.mp hn
  refine ⟨p.foldl f s, unseen p (fun b hb => hp b hb a (.head _)) s, ?_⟩
  rw [List.foldl_append, List.foldl_cons]
  exact unseen q (fun b hb e => (List.nodup_cons.mp hq).1 (e ▸ hb)) _

/-- A field whose bits a commit takes reads as the staged one. -/
theorem fld_merge_of_mask (old v m : W64) {hi lo : Nat} (h64 : hi < 64) (hl : lo ≤ hi) (hm : ∀ i, i < 64 → lo ≤ i → i ≤ hi → m.getLsbD i = true) :
    fld (merge old v m) hi lo = fld v hi lo := by
  apply Nat.eq_of_testBit_eq
  intro i
  rw [fld_testBit _ _ _ _ hl, fld_testBit _ _ _ _ hl]
  by_cases hi' : i ≤ hi - lo
  · rw [merge_getLsbD _ _ _ (by omega), hm _ (by omega) (by omega) (by omega), if_pos rfl]
  · simp [hi']

/-- A commit of a unit changes nothing beside its registers and contexts. -/
theorem State.cvuCommitAll_only (s : State) (t k : Nat) : CvuOnly s (s.cvuCommitAll t k) :=
  List.foldlRecOn (List.range 8) _ (motive := CvuOnly s) (.refl s) fun x hx j _ => hx.trans (x.cvuApply_only t k j)

/-- A commit gives each context of its unit its boundary, once (log entry 40): the context then shows what that boundary makes of it. -/
theorem State.cvuView_cvuCommitAll (s : State) (t k : Nat) {i : Nat} (hi : i < 8) :
    ∃ x : State, x.cvuView t k i = s.cvuView t k i ∧ (s.cvuCommitAll t k).cvuView t k i = (x.cvuApply t k i).cvuView t k i :=
  foldl_seen_once (fun s i => s.cvuApply t k i) (fun s => s.cvuView t k i) (fun s _ hj => s.cvuView_cvuApply_other t k hj.symm)
    List.nodup_range (List.mem_range.mpr hi) s

/-- What two machines that show one context alike have in common. -/
theorem State.cvuView_eq {s u : State} {t k i : Nat} (h : u.cvuView t k i = s.cvuView t k i) :
    (∀ r ∈ cvuParams, u.reg ⟨r, t, k, i, 0⟩ = s.reg ⟨r, t, k, i, 0⟩) ∧ u.staged = s.staged ∧ u.ctx t k i = s.ctx t k i := by
  unfold State.cvuView at h
  obtain ⟨regs, h⟩ := Prod.mk.inj h
  obtain ⟨staged, ctx⟩ := Prod.mk.inj h
  refine ⟨fun r hr => ?_, staged, ctx⟩
  have e := congrFun regs r
  rwa [if_pos hr, if_pos hr] at e

/-- The running state of a context after its boundary. -/
theorem State.ctx_cvuApply (s : State) (t k i : Nat) :
    ((s.ctx t k i).newRun = true → ((s.cvuApply t k i).ctx t k i).run = (s.cvuApply t k i).reg ⟨.cvuRun, t, k, i, 0⟩) ∧
      ((s.ctx t k i).newRun = false → ((s.cvuApply t k i).ctx t k i).run = (s.ctx t k i).run) ∧
      ((s.cvuApply t k i).ctx t k i).newRun = false := by
  have reg : (s.cvuApply t k i).reg ⟨.cvuRun, t, k, i, 0⟩ = (s.applyParams t k i).reg ⟨.cvuRun, t, k, i, 0⟩ := by
    rw [State.reg, State.cvuApply_regs, State.reg]
  have kept : (s.applyParams t k i).ctx t k i = s.ctx t k i := by rw [State.ctx, (s.applyParams_only t k i).2, State.ctx]
  rw [reg, State.cvuApply_eq]
  cases h : (s.ctx t k i).newRun with
  | true => simp [State.ctx_setCtx]
  | false => simp [kept, h]

/-- What a context of a unit has after a commit. -/
theorem State.cvuCommitAll_spec (s : State) (t k i : Nat) (hi : i < 8) :
    (s.cvuCommitAll t k).fget cvuPolyValue t k i = (s.stg ⟨.cvuPoly, t, k, i, 0⟩).toNat % 2 ^ (cvuPolyValue.hi + 1) ∧
      (s.cvuCommitAll t k).fget cvuCtlKind t k i = fld (s.stg ⟨.cvuCtl, t, k, i, 0⟩) cvuCtlKind.hi cvuCtlKind.lo ∧
      ((s.ctx t k i).newRun = true → ((s.cvuCommitAll t k).ctx t k i).run = (s.cvuCommitAll t k).reg ⟨.cvuRun, t, k, i, 0⟩) ∧
      ((s.ctx t k i).newRun = false → ((s.cvuCommitAll t k).ctx t k i).run = (s.ctx t k i).run) ∧
      ((s.cvuCommitAll t k).ctx t k i).newRun = false := by
  obtain ⟨x, before, after⟩ := s.cvuView_cvuCommitAll t k hi
  generalize s.cvuCommitAll t k = u at after ⊢
  obtain ⟨-, staged, ctx⟩ := State.cvuView_eq before
  obtain ⟨regs, -, ctx'⟩ := State.cvuView_eq after
  have active : ∀ r ∈ cvuParams, ∃ old, u.reg ⟨r, t, k, i, 0⟩ = merge old (s.stg ⟨r, t, k, i, 0⟩) r.wsBits := by
    intro r hr
    refine ⟨x.reg ⟨r, t, k, i, 0⟩, ?_⟩
    rw [regs r hr, x.reg_cvuApply t k i hr, State.stg, staged, State.stg]
  obtain ⟨poly, hpoly⟩ := active .cvuPoly (by decide)
  obtain ⟨ctl, hctl⟩ := active .cvuCtl (by decide)
  have run := x.ctx_cvuApply t k i
  rw [← ctx', ← regs _ (by decide), ctx] at run
  refine ⟨?_, ?_, run⟩
  · have e : u.fget cvuPolyValue t k i = fld (s.stg ⟨.cvuPoly, t, k, i, 0⟩) 63 0 := by
      refine (congrArg (fld · 63 0) hpoly).trans (fld_merge_of_mask _ _ _ (by omega) (by omega) ?_)
      decide
    rw [e, fld, bitsOf, pow_zero, Nat.div_one]
    rfl
  · refine (congrArg (fld · 31 30) hctl).trans (fld_merge_of_mask _ _ _ (by omega) (by omega) ?_)
    decide

/-- CVU_COMMIT_WRITE (R446): writing 1 commits; T2 and T3 have no bridge unit. -/
theorem cvuCommitWrite_commits (s : State) (c : CvuRef) (v : W32) : (v.getLsbD 0 = false → exec (.cvuCommitWrite c v) s = .next s) ∧
    (∀ t : Fin 4, 2 ≤ t.val → exec (.cvuCommitWrite (.bridge t) v) s = .next s) ∧
    (v.getLsbD 0 = true → (∀ t : Fin 4, c = .bridge t → t.val < 2) →
      exec (.cvuCommitWrite c v) s = .next (s.cvuCommitAll (cvuOf c).1 (cvuOf c).2)) := by
  have run : ∀ c, exec (.cvuCommitWrite c v) s = if (cvuOf c).2 = 136 ∧ 2 ≤ (cvuOf c).1 then .next s
      else if v.getLsbD 0 then .next (s.cvuCommitAll (cvuOf c).1 (cvuOf c).2) else .next s := fun _ => rfl
  refine ⟨fun hv => ?_, fun t ht => ?_, fun hv hc => ?_⟩
  · rw [run, hv, if_neg Bool.false_ne_true, ite_self]
  · rw [run, if_pos ⟨rfl, ht⟩]
  · have there : ¬ ((cvuOf c).2 = 136 ∧ 2 ≤ (cvuOf c).1) := by
      rintro ⟨hk, ht⟩
      cases c with
      | cluster t c => simp only [cvuOf] at hk; omega
      | port t p => simp only [cvuOf] at hk; omega
      | bridge t => exact absurd (hc t rfl) (not_lt.mpr ht)
    rw [run, if_neg there, if_pos hv]

end Sys2Proof.Machine
end

section
/-! PROOF. The registers whose writes have an effect of their own (R180, R261, R262, R465), and REGISTER_WRITE as a whole. -/

namespace Sys2Proof.Machine

open Sys2Proof.Claims

/-! ### Tallies -/

/-- A store whose values are changed alike. -/
theorem SMap.get_map {α β : Type} (f : α → β) (d : α) (m : SMap α) (k : Nat) :
    SMap.get (f d) (m.map fun e => (e.1, f e.2)) k = f (SMap.get d m k) := by
  induction m with
  | nil => rfl
  | cons e m ih =>
    obtain ⟨j, v⟩ := e
    simp only [List.map_cons, SMap.get, ih]
    split <;> rfl

/-- The end of a tally's cycle. -/
theorem Tally.complete_eq_settled (y : Tally) : y.complete = settled y := by
  unfold Tally.complete settled Tally.armed
  simp only [Bool.and_eq_true, bne_iff_ne, ne_eq, Bool.not_eq_true', decide_eq_true_eq, and_assoc]

/-- A wait that a tally's state serves. -/
theorem served_eq (k : Pkt) (t c n : Nat) (y : Tally) : served k t c n y =
    if k.waits.contains waitTally ∧ tallyMet k.words t c n y then { k with waits := k.waits.filter (· ≠ waitTally) } else k := by
  unfold served
  refine if_congr ?_ rfl rfl
  simp only [waitServed, tallyMet, Bool.and_eq_true, decide_eq_true_eq, and_assoc, Bool.beq_eq_decide_eq]

/-- A tally changed, and the waits that it then serves. -/
theorem State.modTally_becomes (s : State) (t c n : Nat) (f : Tally → Tally) :
    TallyBecomes s (s.modTally t c n f) t c n (f (s.tally t c n)) := by
  have clu : (s.modTally t c n f).clu t c = { s.clu t c with tallies := SMap.put default (s.clu t c).tallies n (f (s.tally t c n)) } :=
    s.clu_modClu t c fun x => { x with tallies := SMap.put default x.tallies n (f (s.tally t c n)) }
  refine ⟨s.tally_modTally t c n f, fun m hm => ?_, ?_, fun j hj => SMap.get_put_other _ _ hj, fun q => ?_, rfl⟩
  · rw [State.tally, clu]
    exact SMap.get_put_other _ _ hm
  · rw [clu]
  · have e := SMap.get_map (fun x : Queue => { x with running := x.running.map fun k => served k t c n (f (s.tally t c n)) }) default s.queues q
    refine Eq.trans ?_ e
    simp only [served_eq]
    rfl

/-- A SET of a tally (R156, R157). -/
theorem State.setT_becomes (s : State) (t c n : Nat) (count target : W32) (auto : Bool) : TallyBecomes s (s.setT t c n count target auto) t c n
    (settled { s.tally t c n with count := count, target := target, auto := auto, done := false }) := by
  rw [← Tally.complete_eq_settled]
  exact s.modTally_becomes t c n fun y => (y.set count target auto).complete

/-- A tally after a write of its registers: a SET with the other half unchanged; the auto bit changes alone (R180). -/
def tallyWritten (y : Tally) : TallyWrite → Tally
  | .val v => settled { y with count := BitVec.ofNat 32 v.toNat, target := BitVec.ofNat 32 (v.toNat / 2 ^ 32), done := false }
  | .count v => settled { y with count := v, done := false }
  | .target v => settled { y with target := v, done := false }
  | .ctl v => { y with auto := v.getLsbD 1, sat := y.sat && !v.getLsbD 3 }

theorem State.tallyWrite_becomes (s : State) (t c n : Nat) (a : TallyWrite) :
    TallyBecomes s (s.tallyWrite t c n a) t c n (tallyWritten (s.tally t c n) a) := by
  cases a with
  | val v => exact s.setT_becomes t c n (BitVec.ofNat 32 v.toNat) (BitVec.ofNat 32 (v.toNat / 2 ^ 32)) (s.tally t c n).auto
  | count v => exact s.setT_becomes t c n v (s.tally t c n).target (s.tally t c n).auto
  | target v => exact s.setT_becomes t c n (s.tally t c n).count v (s.tally t c n).auto
  | ctl v => exact s.modTally_becomes t c n fun y => { y with auto := v.getLsbD 1, sat := y.sat && !v.getLsbD 3 }

theorem exec_tallyRegisterWrite (s : State) (r : CluRef) (n : Fin 128) (a : TallyWrite) (ho : s.mmioOpen r.t (r.c * 0x100000) = true) :
    exec (.tallyRegisterWrite r n a) s = .next (s.tallyWrite r.t r.c n a) :=
  congrArg Host.Outcome.next (if_pos ho)

/-! ### Flip masks -/

/-- A write of a whole register of RW bits alone, as the flip masks are (R261, R262). -/
theorem State.regWrite_flipmask (s : State) {l : Loc} (h : l.r = .celFlipmask ∨ l.r = .shfFlipmask) (v : W64) :
    (∀ i, i < 64 → ((s.regWrite l v (BitVec.allOnes 64)).reg l).getLsbD i = writtenBit l.r (s.reg l) v 0 64 i) ∧
      (∀ k, k.key ≠ l.key → (s.regWrite l v (BitVec.allOnes 64)).reg k = s.reg k) ∧
      { s.regWrite l v (BitVec.allOnes 64) with regs := s.regs, latch := s.latch } = s := by
  have takes : takesWrites l = true := by
    unfold takesWrites
    split <;> simp_all
  have no_ws : l.r.wsBits = 0#64 := by
    rcases h with h | h <;> rw [h] <;> rfl
  have value : laneValue 8 0 v = v := by
    refine BitVec.eq_of_getLsbD_eq fun i hi => ?_
    rw [laneValue_getLsbD _ _ _ hi]
    simp [hi]
  have mask : laneMask 8 0 = BitVec.allOnes 64 := by decide
  have w := s.regWrite_spec takes (laneValue 8 0 v) (laneMask 8 0)
  have bits := fun i (hi : i < 64) => w.reg_bit hi
  rw [value, mask] at w bits
  exact ⟨bits, w.reg_other, w.frame_of_no_ws no_ws⟩

end Sys2Proof.Machine

open Sys2Proof Sys2Proof.Machine Sys2Proof.Claims

/-- Settles O55: accesses of registers without an effect of their own follow the access codes; the commit, tally, flip-mask and
log writes are taken one by one. -/
theorem registerWritesFollowTheirAccessCodes : Obligations.RegisterWritesFollowTheirAccessCodes := by
  intro s
  have commit := fun (l : Loc) off v => s.commitWrite_spec (l := l) (off := off) (v := v)
  refine ⟨fun rq _ _ v _ _ h ht => registerWrite_follows_codes h ht rq v,
    fun rq _ v _ _ hl hk ha hlk _ _ ht _ => registerWrite_pair hl hk ha hlk ht rq v,
    fun rq _ _ v h => exec_registerWrite_nowhere h rq v,
    fun r v ho => ⟨_, rfl, commit ⟨.arrCommit, r.t, r.c, 0, 0⟩ _ v ho (fun _ _ => rfl) rfl⟩,
    fun t v ho => ⟨⟨_, rfl, celCommitWrite_requests s t v ho⟩, ⟨_, rfl, commit ⟨.panCommit, t, 0, 0, 0⟩ _ v ho (fun _ _ => rfl) rfl⟩,
      ⟨_, rfl, commit ⟨.hbmCommit, t, 0, 0, 0⟩ _ v ho (fun _ _ => rfl) rfl⟩,
      ⟨_, rfl, commit ⟨.lnkCommit, t, 0, 0, 0⟩ _ v ho (fun _ _ => rfl) rfl⟩,
      ⟨_, rfl, commit ⟨.pwrCommit, t, 0, 0, 0⟩ _ v ho (fun _ _ => rfl) rfl⟩, cmdCommitWrite_requests s t v ho⟩,
    fun c v => ?_, fun r n a ho => ⟨_, exec_tallyRegisterWrite s r n a ho, ?_⟩,
    fun t d b v ho => ⟨_, congrArg Host.Outcome.next (if_pos ho), s.regWrite_flipmask (.inl rfl) v⟩,
    fun r v ho => ⟨_, congrArg Host.Outcome.next (if_pos ho), s.regWrite_flipmask (.inr rfl) v⟩, fun v => ⟨_, rfl, rfl, rfl, rfl⟩⟩
  · obtain ⟨zero, nowhere, commits⟩ := cvuCommitWrite_commits s c v
    refine ⟨zero, nowhere, fun hv hc => ⟨_, commits hv hc, s.cvuCommitAll_spec _ _, ?_⟩⟩
    have only := s.cvuCommitAll_only (cvuOf c).1 (cvuOf c).2
    generalize s.cvuCommitAll (cvuOf c).1 (cvuOf c).2 = u at only
    have mem := congrArg State.mem only
    have clusters := congrArg State.clusters only
    have queues := congrArg State.queues only
    exact ⟨mem, clusters, queues⟩
  · cases a <;> exact s.tallyWrite_becomes _ _ _ _

end

section
/-! PROOF. A write through BAR2 that a check-value unit of the bridge takes (R351, R447, R448, R460): the close of a context can log a
mismatch, and with in-band interrupts enabled an IBI then leaves the block beside the AER entry. -/

namespace Sys2Proof.Machine

/-- The bridge of tower 0 with its host, in-band interrupts enabled. Context 0 of the bridge's check-value unit takes one byte written
through slot 1, which is not valid, and checks it against a value that this byte does not give. -/
def checkedBridge : State :=
  let m : Module := { Module.init with phase := 8, ready := true, bridge := some 0, linkUp := true, ibi := true }
  let s : State := { State.reset with mod := m }
  ((((s.fset cvuCtlKind 2 0 136).fset cvuCtlModule 1 0 136).fset cvuCtlCheck 1 0 136).fset cvuLimitBytes 1 0 136).fset cvuExpectValue 0 0 136

/-- The host reaches the module, firmware is not being taken from it, and slot 1 is not valid. -/
theorem checkedBridge_serves : checkedBridge.hostUp = true ∧ checkedBridge.staged? = false ∧ checkedBridge.slotModule 0 1 = none := by
  decide +kernel

/-- What has left the block after a command. -/
def Out.sent : Out → List OutMsg
  | .next u => u.out
  | _ => []

/-- The write ends with an AER entry, and the mismatch that it closes the context with has raised an IBI. -/
theorem checkedBridge_write_sends : Out.sent (exec (.bar2Access 1 0 (.write [0x5A#8])) checkedBridge) = [.aer, .ibi] := by
  decide +kernel

end Sys2Proof.Machine

open Sys2Proof Sys2Proof.Machine Sys2Proof.Claims

/-- Refutes O37: a write through a slot that is not valid can send more than its AER entry, the IBI of a check-value mismatch. -/
theorem not_theBridgeServesTheHost : ¬ Obligations.TheBridgeServesTheHost := by
  intro h
  obtain ⟨up, unstaged, invalid⟩ := checkedBridge_serves
  obtain ⟨-, -, noSlot, -⟩ := h checkedBridge 0 1 0 1 [0x5A#8] rfl (by decide) (by decide)
  obtain ⟨-, u, run, -, out⟩ := noSlot up unstaged invalid
  have sends := checkedBridge_write_sends
  rw [run, Out.sent, out] at sends
  exact absurd sends (by decide +kernel)

end

section
/-! PROOF. A CLUSTER reset that cuts a command short in the queue of its own packet (R431), in a machine whose store of queues is not
in canonical form. The statement speaks of every state, and lets one packet run in two queues. -/

namespace Sys2Proof.Machine

open Sys2Proof.Claims

/-- With no reset in progress, one begins at once (R368). -/
theorem State.beginReset_of_none {s : State} (h : s.mod.waiting = []) (scope target : Nat) (act : State → State) :
    s.beginReset scope target act =
      { s := act (s.modMod fun m => { m with waiting := [(scope, target, m.aonStamp)] }), waits := [(resetWait scope target).code] } := by
  simp only [State.beginReset, h, List.find?_nil, List.filter_nil, List.map_nil, List.contains_nil, List.any_eq_true, Bool.false_eq_true,
    and_false, exists_false, if_false, List.map_id', State.modMod]
  simp

/-- A cluster without counts cut short has none to fold (R121). -/
theorem State.cutCounts_of_none {s : State} {t c : Nat} (h : (s.clu t c).acc = []) :
    s.cutCounts t c = (s.modClu t c fun x => { x with acc := [] }).drawn 1 := by
  simp only [State.cutCounts, h, List.foldl_nil, ite_self]

/-- A RESET of cluster 0 of tower 0. -/
def resetPkt : Pkt := { (default : Pkt) with id := 5, words := BitVec.ofNat 64 0x60 :: List.replicate 7 0#64 }

/-- A TALLY_WAIT on tally 0 of that cluster, which has begun. -/
def tallyPkt : Pkt := { (default : Pkt) with id := 9, words := BitVec.ofNat 64 0x31 :: List.replicate 7 0#64, begun := true, waits := [waitTally] }

/-- The store of queues lists queue 7 before queue 3, and the RESET runs in both. -/
def crossedQueues : State :=
  { State.reset with queues := [(7, { (default : Queue) with running := [resetPkt, tallyPkt] }), (3, { (default : Queue) with running := [resetPkt] })] }

theorem crossedQueues_due : Due crossedQueues (7 : Fin 1024) 0x60 resetPkt :=
  ⟨by decide +kernel, by decide +kernel, by decide +kernel, by simp [crossedQueues, State.reset], ⟨rfl, rfl⟩, rfl⟩

theorem crossedQueues_once : ∀ e ∈ crossedQueues.queues, ∀ x ∈ e.2.running, x.id = resetPkt.id → x = resetPkt := by
  decide +kernel

/-- The machine as the reset's work leaves it. -/
def crossedQueues_cut : State :=
  let s := crossedQueues.modMod fun m => { m with waiting := [(0, 0, m.aonStamp)] }
  s.clearCluster 0 0

/-- The queue that a command leaves a packet of some number in. -/
def Out.queueOf (id : Nat) : Out → Option Nat
  | .next u => (u.running? id).map Prod.fst
  | _ => none

theorem crossedQueues_work : exec (.clusterReset 7 resetPkt.words) crossedQueues =
    .next (crossedQueues.settleWork 7 resetPkt { s := crossedQueues_cut, waits := [(resetWait 0 0).code] }) := by
  have scope : rsScope resetPkt.words = 0 := by decide +kernel
  have legal : crossedQueues.checkReset 7 resetPkt.words = (0, 0) := by decide +kernel
  have target : rsTarget resetPkt.words = 0 := by decide +kernel
  have work : State.workReset 7 resetPkt.words resetPkt crossedQueues = { s := crossedQueues_cut, waits := [(resetWait 0 0).code] } := by
    simp only [State.workReset, legal, target, scope, ne_eq, not_true, if_false]
    rw [State.beginReset_of_none rfl]
    rfl
  change Host.Outcome.next (if rsScope resetPkt.words = 0 then _ else _) = _
  rw [if_pos scope, ← work]
  exact congrArg Host.Outcome.next (State.runPkt_due _ crossedQueues_due)

/-- The cut TALLY_WAIT leaves queue 7, which then stands behind queue 3 in the store: the RESET's number names the packet of queue 3. -/
theorem crossedQueues_moves : Out.queueOf resetPkt.id (exec (.clusterReset 7 resetPkt.words) crossedQueues) = some 3 := by
  have none_cut : ((((crossedQueues.modMod fun m => { m with waiting := [(0, 0, m.aonStamp)] }).commitArr 0 0).cutCommands 0 0).clu 0 0).acc = [] := by
    decide +kernel
  rw [crossedQueues_work, crossedQueues_cut, State.clearCluster, State.cutCounts_of_none none_cut]
  decide +kernel

end Sys2Proof.Machine

open Sys2Proof Sys2Proof.Machine Sys2Proof.Claims

/-- Refutes O45: in a store of queues out of order, a packet that runs in two queues changes its queue when a reset cuts another
command of the first one short. -/
theorem not_resetsBeginAndEnd : ¬ Obligations.ResetsBeginAndEnd := by
  intro h
  have begins := h.1 crossedQueues 7 resetPkt (.clusterReset 7 resetPkt.words) 0 (by simp) crossedQueues_due (by decide +kernel) rfl rfl
    crossedQueues_once
  obtain ⟨-, -, -, legal⟩ := begins
  obtain ⟨-, cluster, -⟩ := legal (.inr ⟨by decide +kernel, fun _ => by decide +kernel, by decide +kernel, fun h => absurd h (by decide)⟩)
  obtain ⟨u, run, ⟨k, here, -⟩, -⟩ := cluster rfl rfl
  have moved := crossedQueues_moves
  rw [run, Out.queueOf, here] at moved
  have same : (7 : Nat) = 3 := Option.some.inj moved
  omega

end

section
/-! PROOF. What health events, ended commands and trained ports leave alone: each operation keeps a view of the machine that leaves out
the fields it may write. -/

namespace Sys2Proof.Machine

open Sys2Proof.Claims

/-- What every step of a fold keeps, the fold keeps. -/
theorem foldl_keeps {σ α β : Type} (see : σ → β) {f : σ → α → σ} (h : ∀ s a, see (f s a) = see s) (l : List α) (s : σ) :
    see (l.foldl f s) = see s :=
  List.foldlRecOn l f (motive := fun x => see x = see s) rfl fun x hx a _ => (h x a).trans hx

/-- What a view leaves out counts for nothing in what two machines that it shows alike have in common. -/
theorem keeps_of {σ α : Type} {view : σ → σ} (f : σ → α) {s u : σ} (h : view u = view s) (hf : ∀ x, f (view x) = f x := by intro; rfl) :
    f u = f s := by
  rw [← hf u, h, hf]

/-! ### The event log (R463) -/

/-- An entry is among the newest n of the log. -/
def Newest (n : Nat) (e : LogEnt) (s : State) : Prop := e ∈ s.mod.log.rtake n

theorem Newest.mem {n : Nat} {e : LogEnt} {s : State} (h : Newest n e s) : e ∈ s.mod.log := List.mem_of_mem_drop h

theorem Newest.of_log {n : Nat} {e : LogEnt} {s u : State} (h : Newest n e s) (hl : u.mod.log = s.mod.log) : Newest n e u := by
  rwa [Newest, hl]

/-- The ring with one entry more: its newest ones are those of before, and the new one. -/
theorem rtake_ring {α : Type} (l : List α) (e : α) {n : Nat} (h : n < 1024) : ((l ++ [e]).drop (l.length + 1 - 1024)).rtake (n + 1) = l.rtake n ++ [e] := by
  simp only [List.rtake, List.drop_drop, List.length_drop, List.length_append, List.length_singleton]
  rw [show l.length + 1 - 1024 + (l.length + 1 - (l.length + 1 - 1024) - (n + 1)) = l.length - n by omega,
    List.drop_append_of_le_length (by omega)]

theorem State.logAt_log (s : State) (at_ code sev src : Nat) (d : List Nat) : (s.logAt at_ code sev src d).mod.log =
    (s.mod.log ++ [(⟨s.mod.newest + 1, code, sev, src, BitVec.ofNat 64 at_, d.map (BitVec.ofNat 32)⟩ : LogEnt)]).drop
      (s.mod.log.length + 1 - 1024) := by
  unfold State.logAt
  split <;> simp only [State.emit_mod, State.modMod_mod, Module.alert]

/-- An event is the newest entry. -/
theorem State.logAt_newest (s : State) (at_ code sev src : Nat) (d : List Nat) :
    Newest 1 ⟨s.mod.newest + 1, code, sev, src, BitVec.ofNat 64 at_, d.map (BitVec.ofNat 32)⟩ (s.logAt at_ code sev src d) := by
  rw [Newest, State.logAt_log, rtake_ring _ _ (by omega)]
  simp

theorem State.logEvent_newest (s : State) (code sev src : Nat) (d : List Nat) :
    Newest 1 ⟨s.mod.newest + 1, code, sev, src, BitVec.ofNat 64 (s.stamp src), d.map (BitVec.ofNat 32)⟩ (s.logEvent code sev src d) :=
  s.logAt_newest _ code sev src d

/-- One event more pushes an entry back by one. -/
theorem Newest.logEvent {n : Nat} {e : LogEnt} {s : State} (h : Newest n e s) (hn : n < 1024) (code sev src : Nat) (d : List Nat) :
    Newest (n + 1) e (s.logEvent code sev src d) := by
  rw [Newest, State.logEvent, State.logAt_log, rtake_ring _ _ hn]
  exact List.mem_append_left _ h

theorem Newest.succ {n : Nat} {e : LogEnt} {s : State} (h : Newest n e s) : Newest (n + 1) e s :=
  List.drop_subset_drop_left _ (by omega) h

/-! ### Health (R428, R435 to R438) -/

/-- The machine but for its event log, its health, its inventory records and what has left it. -/
def State.sansHealth (s : State) : State :=
  { s with
    mod := { s.mod with log := [], newest := 0, alertN := true, health := .good, stateEvent := false, trigEvent := false, shown := 0#14
                        sticky := 0#14, invA := none, invB := none, invCurB := false }
    out := [] }

theorem State.logAt_sansHealth (s : State) (at_ code sev src : Nat) (d : List Nat) : (s.logAt at_ code sev src d).sansHealth = s.sansHealth := by
  unfold State.logAt
  split <;> rfl

theorem State.logEvent_sansHealth (s : State) (code sev src : Nat) (d : List Nat) : (s.logEvent code sev src d).sansHealth = s.sansHealth :=
  s.logAt_sansHealth _ code sev src d

theorem State.writeInventory_sansHealth (s : State) : s.writeInventory.sansHealth = s.sansHealth := by
  unfold State.writeInventory State.modMod
  dsimp only
  split <;> rfl

theorem State.setHealth_sansHealth (s : State) (h : Health) : (s.setHealth h).sansHealth = s.sansHealth := by
  unfold State.setHealth
  dsimp only
  split
  · rfl
  · split <;> exact (State.writeInventory_sansHealth _).trans (State.logEvent_sansHealth _ _ _ _ _)

theorem State.rehealth_sansHealth (s : State) : s.rehealth.sansHealth = s.sansHealth := by
  unfold State.rehealth
  split
  · rfl
  · exact State.setHealth_sansHealth _ _

theorem State.trigger_sansHealth (s : State) (i : Nat) : (s.trigger i).sansHealth = s.sansHealth := State.rehealth_sansHealth _

/-- What health reads of the log is written by its events alone. -/
theorem State.writeInventory_log (s : State) : s.writeInventory.mod.log = s.mod.log ∧ s.writeInventory.mod.sticky = s.mod.sticky := by
  unfold State.writeInventory State.modMod
  dsimp only
  split <;> exact ⟨rfl, rfl⟩

theorem State.logEvent_sticky (s : State) (code sev src : Nat) (d : List Nat) : (s.logEvent code sev src d).mod.sticky = s.mod.sticky := by
  unfold State.logEvent State.logAt
  split <;> rfl

/-- A change of the health state logs one event. -/
theorem Newest.setHealth {n : Nat} {e : LogEnt} {s : State} (h : Newest n e s) (hn : n < 1024) (g : Health) : Newest (n + 1) e (s.setHealth g) := by
  unfold State.setHealth
  dsimp only
  split
  · exact h.succ
  · have logged := Newest.logEvent (s := s.modMod fun m => { m with health := g, stateEvent := true }) h hn 0x0003 1 s.mod.lead
    split <;> exact (logged _).of_log (State.writeInventory_log _).1

theorem Newest.rehealth {n : Nat} {e : LogEnt} {s : State} (h : Newest n e s) (hn : n < 1024) : Newest (n + 1) e s.rehealth := by
  unfold State.rehealth
  split
  · exact h.succ
  · exact Newest.setHealth (s := s.modMod fun m => { m with trigEvent := m.trigEvent || (s.triggers &&& ~~~m.shown) != 0, shown := s.triggers }) h hn _

theorem Newest.trigger {n : Nat} {e : LogEnt} {s : State} (h : Newest n e s) (hn : n < 1024) (i : Nat) : Newest (n + 1) e (s.trigger i) :=
  Newest.rehealth (s := s.modMod fun m => { m with sticky := m.sticky ||| (1#14 <<< i) }) h hn

theorem State.rehealth_sticky (s : State) : s.rehealth.mod.sticky = s.mod.sticky := by
  unfold State.rehealth State.setHealth
  dsimp only
  split
  · rfl
  · split
    · rfl
    · split <;> exact (State.writeInventory_log _).2.trans (State.logEvent_sticky _ _ _ _ _)

/-! ### Commands that end (R357, R372) -/

/-- The machine but for its queues and the count of free values. -/
def State.sansQueues (s : State) : State := { s with queues := [], free := 0 }

theorem State.complete_sansQueues (s : State) (id st detail clamp : Nat) : (s.complete id st detail clamp).sansQueues = s.sansQueues := by
  unfold State.complete State.finish
  split
  · rfl
  · dsimp only
    split <;> rfl

theorem State.arrived_sansQueues (s : State) (w : Wait) : (s.arrived w).sansQueues = s.sansQueues := by
  refine foldl_keeps State.sansQueues (fun x p => ?_) _ s
  dsimp only
  split
  · exact x.complete_sansQueues _ _ _ _
  · rfl

theorem State.abandon_sansQueues (s : State) (w : Wait) : (s.abandon w).sansQueues = s.sansQueues :=
  (State.arrived_sansQueues _ w).trans
    (foldl_keeps State.sansQueues (f := fun (x : State) (e : Nat × Pkt) => x.signal e.2.id stLost 0) (fun _ _ => rfl) _ s)

theorem State.abandonTower_sansQueues (s : State) (t : Nat) : (s.abandonTower t).sansQueues = s.sansQueues :=
  (foldl_keeps State.sansQueues (fun _ _ => (State.abandon_sansQueues _ _).trans (State.abandon_sansQueues _ _)) _ _).trans
    (foldl_keeps State.sansQueues (fun x w => x.arrived_sansQueues w) _ s)

/-! ### Ports that train (R329, R348) -/

/-- The machine but for its ports, its registers and the bridge's place. -/
def State.sansPorts (s : State) : State := { s with ports := [], regs := [], mod := { s.mod with bridge := none } }

theorem State.portMode_sansPorts (s : State) (t p : Nat) (m : PortMode) : (s.portMode t p m).sansPorts = s.sansPorts := by
  unfold State.portMode
  split <;> rfl

theorem State.trainPorts_sansPorts (s : State) (t : Nat) : (s.trainPorts t).sansPorts = s.sansPorts := by
  refine foldl_keeps State.sansPorts (fun x p => ?_) _ s
  dsimp only
  split
  · exact x.portMode_sansPorts _ _ _
  · rfl

/-- The machine but for its ports and the bridge's place. -/
def State.sansBridge (s : State) : State := { s with ports := [], mod := { s.mod with bridge := none } }

theorem State.setBridge_sansBridge (s : State) (t : Nat) : (s.setBridge t).sansBridge = s.sansBridge := by
  have pair (x : State) (t : Nat) (f : Port → Port) : ([0, 1].foldl (fun (x : State) p => x.modPort t p f) x).sansBridge = x.sansBridge :=
    foldl_keeps State.sansBridge (f := fun x p => x.modPort t p f) (fun _ _ => rfl) _ x
  unfold State.setBridge
  split
  · rfl
  · have place (x : State) : (x.modMod fun m => { m with bridge := some t }).sansBridge = x.sansBridge := rfl
    simp only [place, pair]

/-- Of the registers, a port's change of state touches its own status alone. -/
theorem State.portMode_reg (s : State) (t p : Nat) (m : PortMode) {l : Loc} (h : l.key ≠ Loc.key ⟨.lnkPortStatus, t, 0, p, 0⟩) :
    (s.portMode t p m).reg l = s.reg l := by
  unfold State.portMode
  split
  · rfl
  · exact State.reg_fset_other _ lnkPortStatusEvent 1 t 0 p 0 h

/-! ### The budgets (R391) -/

/-- A tower's budget register is no port's status, and no other tower's budget. -/
theorem pwrBudget_key (t x p : Nat) : Loc.key ⟨.pwrBudget, t, 0, 0, 0⟩ ≠ Loc.key ⟨.lnkPortStatus, x, 0, p, 0⟩ := by
  simp only [Loc.key, RegName.shared, RegName.unitBase, RegName.place, Bool.false_eq_true, if_false]
  omega

theorem pwrBudget_key_inj {t x : Nat} (h : t ≠ x) : Loc.key ⟨.pwrBudget, t, 0, 0, 0⟩ ≠ Loc.key ⟨.pwrBudget, x, 0, 0, 0⟩ := by
  simp only [Loc.key, RegName.shared, RegName.unitBase, RegName.place, Bool.false_eq_true, if_false]
  omega

/-- The default module budget of a variant (Table 00-1). -/
def Variant.budget : Variant → Nat
  | .x => 5600
  | .s => 3200

theorem RegFileOnly.foldl {α : Type} {f : State → α → State} (h : ∀ s a, RegFileOnly s (f s a)) (l : List α) (s : State) :
    RegFileOnly s (l.foldl f s) :=
  List.foldlRecOn l f (motive := RegFileOnly s) (.refl s) fun x hx a _ => hx.trans (h x a)

theorem State.defaultBudgets_only (s : State) : RegFileOnly s s.defaultBudgets := by
  unfold State.defaultBudgets
  exact RegFileOnly.foldl (fun _ _ => (RegFileOnly.setReg _ _ _).trans (RegFileOnly.setReg _ _ _)) _ s

theorem State.defaultBudgets_module (s : State) {t : Nat} (h : t < 4) : s.defaultBudgets.fget pwrBudgetModuleW t = s.mod.variant.budget := by
  let f (x : State) (t : Nat) : State :=
    (x.fset pwrBudgetModuleW s.mod.variant.budget t).fset pwrBudgetTowerW (if (x.tower t).fence ≠ 0 then 0 else s.mod.variant.budget / 4) t
  have other (x : State) (b : Nat) (hb : b ≠ t) : (f x b).fget pwrBudgetModuleW t = x.fget pwrBudgetModuleW t :=
    congrArg (fld · 31 16) (((x.fset pwrBudgetModuleW _ b).reg_fset_other pwrBudgetTowerW _ b 0 0 0 (pwrBudget_key_inj hb.symm)).trans
      (x.reg_fset_other pwrBudgetModuleW _ b 0 0 0 (pwrBudget_key_inj hb.symm)))
  obtain ⟨x, -, e⟩ := foldl_seen_once f (fun x => x.fget pwrBudgetModuleW t) other List.nodup_range (List.mem_range.mpr h) s
  have own : (f x t).fget pwrBudgetModuleW t = s.mod.variant.budget % 2 ^ 16 := by
    simp only [f, State.fget, State.fset, pwrBudgetModuleW, pwrBudgetTowerW, State.reg_setReg]
    rw [fld_setFld_other _ _ _ _ _ _ (by omega) (by omega) (by omega) (by omega), fld_setFld _ _ _ _ (by omega) (by omega)]
  have small : s.mod.variant.budget % 2 ^ 16 = s.mod.variant.budget := by
    cases s.mod.variant <;> rfl
  have unfolded : s.defaultBudgets = (List.range 4).foldl f s := by
    unfold State.defaultBudgets
    cases hv : s.mod.variant <;> simp only [f, hv, Variant.budget]
  rw [unfolded, e, own, small]

end Sys2Proof.Machine
end

section
/-! PROOF. Cold resets, clocks and stamps, and a tower that is fenced off (R30, R40 to R45, R421, R439). -/

namespace Sys2Proof.Machine

open Sys2Proof.Claims

/-! ### The end of phase 3 (R348, R421, R422) -/

/-- The machine but for the phase of bring-up. -/
def State.sansPhase (s : State) : State := { s with mod := { s.mod with phase := 0 } }

/-- Every tower has a lock, or is fenced off. -/
def State.allLocked (s : State) : Bool := (List.range 4).all fun t => (s.tower t).fence ≠ 0 || s.mod.pllPhase.getD t false

/-- The ports of the towers that are not fenced off train, and the bridge's pair becomes the endpoint. -/
def State.startTraining (s : State) : State :=
  (List.range 4).foldl (fun (s : State) t => if (s.tower t).fence ≠ 0 then s else s.trainPorts t)
    ((s.modMod fun m => { m with phase := 3 }).setBridge (if (s.tower 0).fence ≠ 0 then 1 else 0))

theorem State.clocksDone_eq (s : State) :
    s.clocksDone = if s.mod.phase ≠ 2 ∨ s.leadsGone = true ∨ (!s.allLocked) = true then s else s.startTraining := rfl

theorem State.startTraining_sansPorts (s : State) : s.startTraining.sansPorts = (s.modMod fun m => { m with phase := 3 }).sansPorts := by
  refine (foldl_keeps State.sansPorts (fun x t => ?_) _ _).trans
    (keeps_of State.sansPorts (State.setBridge_sansBridge _ _))
  split
  · rfl
  · exact x.trainPorts_sansPorts t

theorem State.clocksDone_sansPorts (s : State) : s.clocksDone.sansPorts.sansPhase = s.sansPorts.sansPhase := by
  rw [State.clocksDone_eq]
  split
  · rfl
  · exact (congrArg State.sansPhase s.startTraining_sansPorts).trans rfl

theorem State.clocksDone_phase (s : State) (h : s.mod.phase = 2) :
    s.clocksDone.mod.phase = if s.allLocked = true then (if s.leadsGone = true then 2 else 3) else 2 := by
  have phase : s.startTraining.mod.phase = 3 :=
    keeps_of (fun x => x.mod.phase) s.startTraining_sansPorts
  rw [State.clocksDone_eq]
  by_cases ha : s.allLocked = true <;> by_cases hl : s.leadsGone = true <;> simp [h, ha, hl, phase]

theorem State.trainPorts_budget (s : State) (t x : Nat) : (s.trainPorts x).fget pwrBudgetTowerW t = s.fget pwrBudgetTowerW t := by
  refine foldl_keeps (fun y : State => y.fget pwrBudgetTowerW t) (fun y p => ?_) _ s
  dsimp only
  split
  · exact congrArg (fld · 15 0) (y.portMode_reg x p .training (pwrBudget_key t x p))
  · rfl

/-- Training touches no budget. -/
theorem State.clocksDone_budget (s : State) (t : Nat) : s.clocksDone.fget pwrBudgetTowerW t = s.fget pwrBudgetTowerW t := by
  rw [State.clocksDone_eq]
  split
  · rfl
  · refine (foldl_keeps (fun y : State => y.fget pwrBudgetTowerW t) (fun y x => ?_) _ _).trans
      (keeps_of (fun y => y.fget pwrBudgetTowerW t) (State.setBridge_sansBridge (s.modMod fun m => { m with phase := 3 }) _))
    split
    · rfl
    · exact y.trainPorts_budget t x

/-! ### A tower that is fenced off (R439 to R441) -/

/-- The machine but for the lead role. -/
def State.sansLead (s : State) : State := { s with mod := { s.mod with lead := 0 } }

theorem State.passLead_sansLead (s : State) (t : Nat) : (s.passLead t).sansLead = s.sansLead := by
  unfold State.passLead
  split <;> rfl

/-- A tower is emptied, its packets end, and the resets in it are given up. -/
def State.emptyTower (s : State) (t : Nat) : State := ((((s.clearTower t).portsDown t).bridgeOff t).cutQueues t true).loseResets t

/-- A tower as it is fenced off. -/
def Tower.fenceOff (w : Tower) (cause : Nat) : Tower :=
  { w with fence := cause, on := false, inTower := false, transitStop := false, hot := [], aligned := false }

/-- A tower is marked as fenced off, and its budget becomes 0. -/
def State.markFence (s : State) (t cause : Nat) : State := (s.modTower t fun w => w.fenceOff cause).fset pwrBudgetTowerW 0 t

/-- What follows once a tower is marked. -/
def State.fenceEnd (s : State) (t cause : Nat) : State :=
  let s3 := ((s.abandonTower t).passLead t).logEvent 0x0021 2 t [cause]
  if s3.leadsGone then s3.setHealth .failed else s3.trigger 6

theorem State.fenceTower_eq {s : State} {t : Nat} (h : (s.tower t).fence = 0) (cause : Nat) :
    s.fenceTower t cause = ((s.emptyTower t).markFence t cause).fenceEnd t cause :=
  if_neg (not_not.mpr h)

/-- The machine but for its health, its queues and the lead role. -/
def State.sansEnds (s : State) : State := s.sansHealth.sansLead.sansQueues

theorem State.fenceEnd_sansEnds (s : State) (t cause : Nat) : (s.fenceEnd t cause).sansEnds = s.sansEnds := by
  have abandoned : (s.abandonTower t).sansEnds = s.sansEnds := keeps_of State.sansEnds (s.abandonTower_sansQueues t)
  have led : ((s.abandonTower t).passLead t).sansEnds = s.sansEnds := (keeps_of State.sansEnds (State.passLead_sansLead _ t)).trans abandoned
  have logged := (keeps_of State.sansEnds (State.logEvent_sansHealth ((s.abandonTower t).passLead t) 0x0021 2 t [cause])).trans led
  unfold State.fenceEnd
  dsimp only
  split
  · exact (keeps_of State.sansEnds (State.setHealth_sansHealth _ _)).trans logged
  · exact (keeps_of State.sansEnds (State.trigger_sansHealth _ _)).trans logged

/-- A tower that runs is fenced off with its cause, its dies switched off and its budget 0. -/
theorem State.fenceTower_spec {s : State} {t : Nat} (h : (s.tower t).fence = 0) (cause : Nat) :
    ((s.fenceTower t cause).tower t).fence = cause ∧ ((s.fenceTower t cause).tower t).on = false ∧
      (s.fenceTower t cause).fget pwrBudgetTowerW t = 0 := by
  rw [State.fenceTower_eq h]
  generalize s.emptyTower t = x
  have ends := (x.markFence t cause).fenceEnd_sansEnds t cause
  have tower : (x.markFence t cause).tower t = (x.tower t).fenceOff cause := x.tower_modTower t (fun w => w.fenceOff cause)
  rw [keeps_of (fun y => y.tower t) ends, keeps_of (fun y => y.fget pwrBudgetTowerW t) ends, tower]
  exact ⟨rfl, rfl, State.fget_fset _ pwrBudgetTowerW 0 t 0 0 0 (by decide) (by decide)⟩

/-! ### The commands -/

/-- A tower that is powered, not fenced off, and locked. -/
theorem State.clocked_iff (s : State) (t : Nat) :
    s.clocked t = true ↔ (s.tower t).on = true ∧ (s.tower t).fence = 0 ∧ s.mod.pllPhase.getD t false = true := by
  simp [State.clocked, State.powered, and_assoc]

theorem State.powered_iff (s : State) (t : Nat) : s.powered t = true ↔ (s.tower t).on = true ∧ (s.tower t).fence = 0 := by
  simp [State.powered]

/-- The module right after a cold reset, before its default budgets. -/
def State.coldModule (s : State) (straps : Straps) : State :=
  let boots := (max (match s.mod.invA with | some r => r.bootCount | none => 0) (match s.mod.invB with | some r => r.bootCount | none => 0)) + 1
  { State.reset with
    pending := s.pending, free := s.free, mem := { State.reset.mem with host := s.mem.host }, out := s.out
    mod :=
      { Module.init with
        variant := s.mod.variant, straps := straps, pwrEn := s.mod.pwrEn, perstN := s.mod.perstN, vinMv := s.mod.vinMv, invA := s.mod.invA
        invB := s.mod.invB, invCurB := s.mod.invCurB, nor := s.mod.nor, helper := s.mod.helper, certs := s.mod.certs, bootCount := boots
        log := [⟨1, 1, 0, 0, 0#64, [BitVec.ofNat 32 boots]⟩] } }

/-- A cold reset empties the module and keeps what lies outside it, its records and its flash (R30). -/
structure Blank (s : State) (straps : Straps) (u : State) : Prop where
  pending : u.pending = s.pending
  emptied : u.clusters = [] ∧ u.queues = [] ∧ u.towers = [] ∧ u.reqs = []
  mem : u.mem.hbm = [] ∧ u.mem.host = s.mem.host
  kept : u.mod.straps = straps ∧ u.mod.invA = s.mod.invA ∧ u.mod.invB = s.mod.invB ∧ u.mod.nor = s.mod.nor
  stopped : u.mod.phase = 0 ∧ u.mod.ready = false ∧ u.mod.railsOn = false ∧ u.mod.moduleId = none
  log : ∃ e, u.mod.log = [e] ∧ e.code = 1 ∧ e.seq = 1
  budget : ∀ t, t < 4 → u.fget pwrBudgetModuleW t = s.mod.variant.budget

theorem RegFileOnly.seen {α : Type} {s u : State} (h : RegFileOnly s u) (f : State → α)
    (hf : ∀ a b c d, f { u with regs := a, staged := b, locked := c, latch := d } = f u := by intros; rfl) : f u = f s := h.proj f hf

theorem State.afterCold_blank (s : State) (straps : Straps) : Blank s straps (s.afterCold straps) := by
  have only : RegFileOnly (s.coldModule straps) (s.afterCold straps) := (s.coldModule straps).defaultBudgets_only
  have budget : ∀ t, t < 4 → (s.afterCold straps).fget pwrBudgetModuleW t = s.mod.variant.budget := fun t ht =>
    (s.coldModule straps).defaultBudgets_module ht
  generalize s.afterCold straps = u at only budget
  have mod : u.mod = (s.coldModule straps).mod := only.seen State.mod
  have mem : u.mem = (s.coldModule straps).mem := only.seen State.mem
  refine ⟨only.seen State.pending, ⟨only.seen State.clusters, only.seen State.queues, only.seen State.towers, only.seen State.reqs⟩, ?_, ?_, ?_, ?_,
    budget⟩ <;> simp only [mod, mem]
  · exact ⟨rfl, rfl⟩
  · exact ⟨rfl, rfl, rfl, rfl⟩
  · exact ⟨rfl, rfl, rfl, rfl⟩
  · exact ⟨_, rfl, rfl, rfl⟩

/-- Free values drawn before a cold reset leave no trace. -/
theorem Blank.of_drawn {s u : State} {n : Nat} {straps : Straps} (h : Blank (s.drawn n) straps u) : Blank s straps u := by
  obtain ⟨pending, emptied, mem, kept, stopped, log, budget⟩ := h
  exact ⟨pending, emptied, mem, kept, stopped, log, budget⟩

theorem coldReset_spec (s : State) (ns : Nat) (straps : Straps) :
    (10000 ≤ ns → ∃ u, exec (.coldReset ns straps) s = .next u ∧ Blank s straps u) ∧
    (ns < 10000 → ∃ u, exec (.coldReset ns straps) s = .next u ∧ (Blank s straps u ∨ u = { s with free := s.free + 1 })) := by
  refine ⟨fun h => ⟨_, if_pos h, s.afterCold_blank straps⟩, fun h => ⟨_, if_neg (Nat.not_le.mpr h), ?_⟩⟩
  split
  · exact .inl ((s.drawn 1).afterCold_blank straps).of_drawn
  · exact .inr rfl

/-- PLL_HOLDOVER. -/
theorem pllHoldover_spec (s : State) (t : Fin 4) (h4 : s.mod.holdover.length = 4) (hc : s.clocked t = true) (hn : s.mod.holdover.getD t false = false) :
    ∃ u, exec (.pllHoldover t) s = .next u ∧ u.mod.holdover.getD t false = true ∧ u.fget hltClkStatusHoldoverSeen t = 1 ∧
      (∃ e ∈ u.mod.log, e.code = 0x0016 ∧ e.source = t.val ∧ e.detail = [1#32]) ∧ u.towers = s.towers := by
  let s1 := (s.modMod fun m => { m with holdover := m.holdover.set t true }).fset hltClkStatusHoldoverSeen 1 t
  have run : exec (.pllHoldover t) s = .next (s1.logEvent 0x0016 1 t [1]).rehealth := if_neg (not_or.mpr ⟨by simp [hc], by simp only [hn]; decide⟩)
  have frame := (State.rehealth_sansHealth (s1.logEvent 0x0016 1 t [1])).trans (s1.logEvent_sansHealth 0x0016 1 t [1])
  have logged := (s1.logEvent_newest 0x0016 1 t [1]).rehealth (by omega)
  refine ⟨_, run, ?_, ?_, ⟨_, logged.mem, rfl, rfl, rfl⟩, keeps_of (s := s1) State.towers frame⟩
  · rw [keeps_of (fun x => x.mod.holdover.getD t false) frame]
    simp [s1, State.modMod, h4]
  · rw [keeps_of (fun x => x.fget hltClkStatusHoldoverSeen t) frame]
    exact State.fget_fset _ hltClkStatusHoldoverSeen 1 t 0 0 0 (by decide) (by decide)

theorem pllHoldoverExit_spec (s : State) (t : Fin 4) (h4 : s.mod.holdover.length = 4) (h : s.mod.holdover.getD t false = true) :
    ∃ u, exec (.pllHoldoverExit t) s = .next u ∧ u.mod.holdover.getD t false = false ∧
      (∃ e ∈ u.mod.log, e.code = 0x0016 ∧ e.source = t.val ∧ e.detail = [0#32]) ∧ u.towers = s.towers := by
  let s1 := s.modMod fun m => { m with holdover := m.holdover.set t false }
  have run : exec (.pllHoldoverExit t) s = .next (s1.logEvent 0x0016 1 t [0]).rehealth := if_neg (by simp only [h]; decide)
  have frame := (State.rehealth_sansHealth (s1.logEvent 0x0016 1 t [0])).trans (s1.logEvent_sansHealth 0x0016 1 t [0])
  have logged := (s1.logEvent_newest 0x0016 1 t [0]).rehealth (by omega)
  refine ⟨_, run, ?_, ⟨_, logged.mem, rfl, rfl, rfl⟩, keeps_of (s := s1) State.towers frame⟩
  rw [keeps_of (fun x => x.mod.holdover.getD t false) frame]
  simp [s1, State.modMod, h4]

/-- Stamp and fraction together hold 96 bits. -/
theorem Tower.fine_setFine (w : Tower) (n : Nat) : (w.setFine n).fine = n % 2 ^ 96 := by
  simp only [Tower.fine, Tower.setFine, BitVec.toNat_ofNat]
  omega

/-- A tower after a TELE cycle: its count, and what the cycle adds to the budget window. -/
def Tower.cycled (w : Tower) (n : Nat) (mj : ℚ) : Tower := { w.setFine n with windowMj := w.windowMj + mj }

theorem Tower.fine_cycled (w : Tower) (n : Nat) (mj : ℚ) : (w.cycled n mj).fine = n % 2 ^ 96 := Tower.fine_setFine w n

theorem Tower.cycled_keeps (w : Tower) (n : Nat) (mj : ℚ) : (w.cycled n mj).rate = w.rate ∧ (w.cycled n mj).grants = w.grants := ⟨rfl, rfl⟩

/-- A TELE cycle adds one count, adjusted by at most 100 ppm (R41, R42). -/
theorem Tower.cycle_adds (w : Tower) (mj : ℚ) : ∃ a : Int, -429496 ≤ a ∧ a ≤ 429496 ∧ (w.rate + w.steer = 0 → a = 0) ∧
    ((w.cycled (w.fine + w.tickStep) mj).fine : Int) = ((w.fine : Int) + 2 ^ 32 + a) % 2 ^ 96 := by
  refine ⟨max (-ppm100) (min ppm100 (w.rate + w.steer)), by simp [ppm100], by simp [ppm100], fun h => by simp [h, ppm100], ?_⟩
  rw [Tower.fine_cycled]
  simp only [Tower.tickStep, ppm100]
  omega

/-- The island's count goes with the lead tower's cycles. -/
def State.countCycle (s : State) (t : Nat) : State := if s.mod.lead = t then s.modMod fun m => { m with aonStamp := m.aonStamp + 1 } else s

theorem State.countCycle_mod (s : State) (t : Nat) :
    ∃ m, s.countCycle t = { s with mod := m } ∧ m.aonStamp = if s.mod.lead = t then s.mod.aonStamp + 1 else s.mod.aonStamp := by
  unfold State.countCycle
  split <;> exact ⟨_, rfl, rfl⟩

theorem execStampTick_eq (s : State) (t : Fin 4) : exec (.stampTick t) s =
    if (!s.clocked t) = true ∨ (s.tower t).inTower = true then .next (s.countCycle t)
    else .next ((s.countCycle t).modTower t fun w => w.cycled (w.fine + w.tickStep) (s.grantedMw t / 200000000)) := rfl

theorem stampTick_spec (s : State) (t : Fin 4) : ∃ u, exec (.stampTick t) s = .next u ∧
    u.mod.aonStamp = (if s.mod.lead = t.val then s.mod.aonStamp + 1 else s.mod.aonStamp) ∧ u.mem = s.mem ∧ u.regs = s.regs ∧
    (∀ x, x ≠ t.val → u.tower x = s.tower x) ∧ (¬ s.clocked t = true ∨ (s.tower t).inTower = true → u.towers = s.towers) ∧
    (s.clocked t = true → (s.tower t).inTower = false → ∃ a : Int, -429496 ≤ a ∧ a ≤ 429496 ∧ ((s.tower t).rate + (s.tower t).steer = 0 → a = 0) ∧
      ((u.tower t).fine : Int) = (((s.tower t).fine : Int) + 2 ^ 32 + a) % 2 ^ 96 ∧ (u.tower t).rate = (s.tower t).rate ∧
      (u.tower t).grants = (s.tower t).grants) := by
  obtain ⟨m, counted, count⟩ := s.countCycle_mod t
  rw [execStampTick_eq, counted]
  generalize s.grantedMw t / 200000000 = mj
  split
  case isTrue held => exact ⟨_, rfl, count, rfl, rfl, fun _ _ => rfl, fun _ => rfl, fun hc hi => by simp [hc, hi] at held⟩
  case isFalse runs =>
    refine ⟨_, rfl, count, rfl, rfl, fun x hx => State.tower_modTower_other _ hx _,
      fun h => absurd (h.imp_left fun hc => by simpa using hc) runs, fun _ _ => ?_⟩
    obtain ⟨a, low, high, zero, fine⟩ := (s.tower t).cycle_adds mj
    rw [State.tower_modTower]
    exact ⟨a, low, high, zero, fine, Tower.cycled_keeps _ _ mj⟩

/-- A step of this size against a tower's difference from the lead. -/
def Tower.against (w l : Tower) (size : Int) : Int := if w.fine < l.fine then size else if l.fine < w.fine then -size else 0

theorem Tower.against_spec (w l : Tower) {size : Int} (h : 0 < size) : (w.against l size).natAbs ≤ size.natAbs ∧
    (w.fine < l.fine → 0 < w.against l size) ∧ (l.fine < w.fine → w.against l size < 0) ∧ (w.fine = l.fine → w.against l size = 0) := by
  unfold Tower.against
  refine ⟨?_, fun g => ?_, fun g => ?_, fun g => ?_⟩
  · split
    · exact le_rfl
    · split <;> simp
  · rwa [if_pos g]
  · rw [if_neg (by omega), if_pos g]
    omega
  · rw [if_neg (by omega), if_neg (by omega)]

/-- STAMP_TOWER_STEER: the lead's rate, and a step against the tower's own difference. -/
theorem stampTowerSteer_spec (s : State) (t : Fin 4) (hl : s.mod.lead ≠ t.val) (hc : s.clocked t = true) (hi : (s.tower t).inTower = false) :
    ∃ u d, exec (.stampTowerSteer t) s = .next u ∧ u.tower t = { s.tower t with rate := (s.tower s.mod.lead).rate, steer := d } ∧ d.natAbs ≤ 429496 ∧
      ((s.tower t).fine < (s.tower s.mod.lead).fine → 0 < d) ∧ ((s.tower s.mod.lead).fine < (s.tower t).fine → d < 0) ∧
      ((s.tower t).fine = (s.tower s.mod.lead).fine → d = 0) := by
  let l := s.tower s.mod.lead
  let d := (s.tower t).against l (1 + (s.free1 % 429496 : Nat))
  have run : exec (.stampTowerSteer t) s = .next ((s.modTower t fun w => { w with rate := l.rate, steer := d }).drawn 1) := if_neg (by simp [hl, hc, hi])
  obtain ⟨bound, signs⟩ := (s.tower t).against_spec l (size := 1 + (s.free1 % 429496 : Nat)) (by omega)
  exact ⟨_, d, run, s.tower_modTower t fun w => { w with rate := l.rate, steer := d }, by omega, signs⟩

/-- PLL_LOCK or its timeout has nothing to do outside phase 3's wait, for a tower that is off, and for one that is locked. -/
theorem pll_idle (s : State) (t : Fin 4) (h : s.mod.phase ≠ 2 ∨ (!s.powered t) = true ∨ s.mod.pllPhase.getD t false = true) :
    exec (.pllLock t) s = .next s ∧ exec (.pllLockTimeout t) s = .next s := ⟨if_pos h, if_pos h⟩

/-- A tower with the island's count (R45). -/
def Tower.loadCount (w : Tower) (n : Nat) : Tower := { w with stamp := BitVec.ofNat 64 n, frac := 0#32 }

/-- The module with a tower's PLL locked; after a MODULE_WARM the tower takes the island's count (R45). -/
def State.lockPll (s : State) (t : Nat) : State :=
  let s1 := s.modMod fun m => { m with pllPhase := m.pllPhase.set t true }
  if s.mod.warm then s1.modTower t fun w => w.loadCount s.mod.aonStamp else s1

theorem State.lockPll_mod (s : State) (t : Nat) : (s.lockPll t).mod = { s.mod with pllPhase := s.mod.pllPhase.set t true } := by
  unfold State.lockPll
  dsimp only
  split <;> rfl

theorem State.lockPll_stamp (s : State) (t : Nat) :
    ((s.lockPll t).tower t).stamp = if s.mod.warm = true then BitVec.ofNat 64 s.mod.aonStamp else (s.tower t).stamp := by
  unfold State.lockPll
  dsimp only
  split
  · exact congrArg Tower.stamp (State.tower_modTower _ t fun w => w.loadCount s.mod.aonStamp)
  · rfl

theorem State.lockPll_fence (s : State) (t x : Nat) : ((s.lockPll t).tower x).fence = (s.tower x).fence := by
  unfold State.lockPll
  dsimp only
  split
  · by_cases h : x = t
    · subst h
      rw [State.tower_modTower]
      rfl
    · exact congrArg Tower.fence (State.tower_modTower_other _ h _)
  · rfl

theorem State.lockPll_allLocked (s : State) (t : Fin 4) (h4 : s.mod.pllPhase.length = 4) : (s.lockPll t).allLocked =
    (List.range 4).all fun x => decide ((s.tower x).fence ≠ 0 ∨ x = t.val) || s.mod.pllPhase.getD x false := by
  refine congrArg (List.all (List.range 4)) (funext fun x => ?_)
  rw [State.lockPll_mod, State.lockPll_fence]
  have inside : t.val < s.mod.pllPhase.length := by omega
  by_cases h : x = t.val
  · subst h
    simp [inside]
  · simp [h, Ne.symm h]

/-- PLL_LOCK ends phase 3 when it was the last tower's (R421). -/
theorem pllLock_spec (s : State) (t : Fin 4) (hp : s.mod.phase = 2) (hu : s.powered t = true) (hn : s.mod.pllPhase.getD t false = false)
    (h4 : s.mod.pllPhase.length = 4) : ∃ u, exec (.pllLock t) s = .next u ∧ u.mod.pllPhase = s.mod.pllPhase.set t true ∧
      (u.tower t).stamp = (if s.mod.warm = true then BitVec.ofNat 64 s.mod.aonStamp else (s.tower t).stamp) ∧
      u.mod.phase = if ((List.range 4).all fun x => decide ((s.tower x).fence ≠ 0 ∨ x = t.val) || s.mod.pllPhase.getD x false) = true then
        (if (s.tower 0).fence ≠ 0 ∧ (s.tower 1).fence ≠ 0 then 2 else 3) else 2 := by
  have run : exec (.pllLock t) s = .next (s.lockPll t).clocksDone := if_neg (not_or.mpr ⟨not_not.mpr hp, by rw [hu, hn]; decide⟩)
  have frame := (s.lockPll t).clocksDone_sansPorts
  have gone : ((s.lockPll t).leadsGone = true) = ((s.tower 0).fence ≠ 0 ∧ (s.tower 1).fence ≠ 0) := by
    simp [State.leadsGone, State.lockPll_fence]
  refine ⟨_, run, ?_, ?_, ?_⟩
  · rw [keeps_of (view := fun x : State => x.sansPorts.sansPhase) (fun x : State => x.mod.pllPhase) frame, State.lockPll_mod]
  · rw [keeps_of (view := fun x : State => x.sansPorts.sansPhase) (fun x : State => (x.tower t).stamp) frame, State.lockPll_stamp]
  · rw [State.clocksDone_phase _ (by rw [State.lockPll_mod]; exact hp), State.lockPll_allLocked s t h4]
    simp only [gone]

/-- PLL_LOCK_TIMEOUT fences the tower off (R421, R433). -/
theorem pllLockTimeout_spec (s : State) (t : Fin 4) (hp : s.mod.phase = 2) (hu : s.powered t = true) (hn : s.mod.pllPhase.getD t false = false) :
    ∃ u, exec (.pllLockTimeout t) s = .next u ∧ (u.tower t).fence = (if s.mod.warm = true then 4 else 1) ∧ (u.tower t).on = false ∧
      u.fget pwrBudgetTowerW t = 0 := by
  have run : exec (.pllLockTimeout t) s = .next (s.fenceTower t (if s.mod.warm then 4 else 1)).clocksDone :=
    if_neg (not_or.mpr ⟨not_not.mpr hp, by rw [hu, hn]; decide⟩)
  have frame := (s.fenceTower t (if s.mod.warm then 4 else 1)).clocksDone_sansPorts
  obtain ⟨fence, off, budget⟩ := State.fenceTower_spec ((s.powered_iff t).mp hu).2 (if s.mod.warm then 4 else 1)
  have tower := keeps_of (view := fun x : State => x.sansPorts.sansPhase) (fun x : State => x.tower t) frame
  exact ⟨_, run, (congrArg Tower.fence tower).trans fence, (congrArg Tower.on tower).trans off, (State.clocksDone_budget _ t).trans budget⟩

end Sys2Proof.Machine

open Sys2Proof Sys2Proof.Machine Sys2Proof.Claims

/-- Settles O51, command by command. -/
theorem resetsAndClocks : Obligations.ResetsAndClocks := by
  intro s t ns straps
  dsimp only
  have cold : ∀ u, Blank s straps u → u.pending = s.pending ∧ u.clusters = [] ∧ u.queues = [] ∧ u.towers = [] ∧ u.reqs = [] ∧ u.mem.hbm = [] ∧
      u.mem.host = s.mem.host ∧ u.mod.straps = straps ∧ u.mod.invA = s.mod.invA ∧ u.mod.invB = s.mod.invB ∧ u.mod.nor = s.mod.nor ∧ u.mod.phase = 0 ∧
      u.mod.ready = false ∧ u.mod.railsOn = false ∧ u.mod.moduleId = none ∧ (∃ e, u.mod.log = [e] ∧ e.code = 1 ∧ e.seq = 1) ∧
      ∀ x, x < 4 → u.fget pwrBudgetModuleW x = s.mod.variant.budget := by
    rintro u ⟨pending, ⟨c, q, w, r⟩, ⟨hbm, host⟩, ⟨st, a, b, nor⟩, ⟨ph, rd, ra, id⟩, log, budget⟩
    exact ⟨pending, c, q, w, r, hbm, host, st, a, b, nor, ph, rd, ra, id, log, budget⟩
  have clocked := s.clocked_iff t
  have powered := s.powered_iff t
  obtain ⟨long, short⟩ := coldReset_spec s ns straps
  refine ⟨fun h => (long h).imp fun u hu => hu.imp_right (cold u), fun h => (short h).imp fun u hu => hu.imp_right (Or.imp_left (cold u)), rfl,
    fun h4 => ⟨fun h => if_pos ?_,
    fun h hn => pllHoldover_spec s t h4 (clocked.mpr h) hn, fun h => if_pos (by rw [h]; decide), pllHoldoverExit_spec s t h4⟩, ?_, fun h => if_pos ?_,
    fun hl hr hi => ?_, fun h => pll_idle s t ?_, fun hp on fence hn h4 => ⟨?_, ?_⟩⟩
  · rw [← clocked] at h
    simpa using h
  · obtain ⟨u, run, count, mem, regs, others, held, tick⟩ := stampTick_spec s t
    refine ⟨u, run, count, mem, regs, others, fun h => held (by rwa [clocked]), fun hr hi => ?_⟩
    obtain ⟨a, low, high, zero, fine, rate, grants⟩ := tick (clocked.mpr hr) hi
    exact ⟨a, low, high, zero, fine, rate, grants⟩
  · rw [← clocked] at h
    simpa using h
  · obtain ⟨u, d, run, tower, bound, up, down, still⟩ := stampTowerSteer_spec s t hl (clocked.mpr hr) hi
    refine ⟨u, run, ?_⟩
    rw [tower]
    exact ⟨rfl, rfl, bound, up, down, still⟩
  · rw [← powered] at h
    simpa using h
  · exact pllLock_spec s t hp (powered.mpr ⟨on, fence⟩) (Bool.eq_false_iff.mpr hn) h4
  · exact pllLockTimeout_spec s t hp (powered.mpr ⟨on, fence⟩) (Bool.eq_false_iff.mpr hn)

end

section
/-! PROOF. What the memories' own work leaves alone (R231 to R260, R303 to R316): reads, writes and repairs touch memories, registers,
health and a tower's own records of them. -/

namespace Sys2Proof.Machine

open Sys2Proof.Claims

/-- What a view shows alike, all that is read through it shows alike. -/
theorem keeps_by {σ β α : Type} {view : σ → β} (g : β → α) (f : σ → α) {s u : σ} (h : view u = view s)
    (hf : ∀ x, g (view x) = f x := by intro; rfl) :
    f u = f s := by
  rw [← hf u, h, hf]

/-- A tower but for its records of repairs, errors, class counts and lookups. -/
def Tower.core (w : Tower) : Tower :=
  { w with
    uncorrTimes := [], clsBytes := [], demoted := [], repairQ := [], usedSpares := [], badSpares := [], hbmRepairs := [], deadFilter := []
    deadLog := [], missUnpinned := 0, accUnpinned := 0, domRet := [] }

/-- The machine but for its memories, its registers, its health, its corrected errors and the towers' records. -/
def State.core (s : State) : State × (Nat → Tower) :=
  ({ s.sansHealth with free := 0, regs := [], mem := State.reset.mem, towers := [], mod := { s.sansHealth.mod with ceNow := 0 } }, fun t => (s.tower t).core)

theorem State.core_of_sansHealth {s u : State} (h : u.sansHealth = s.sansHealth) : u.core = s.core :=
  keeps_of State.core h

theorem State.logEvent_core (s : State) (code sev src : Nat) (d : List Nat) : (s.logEvent code sev src d).core = s.core :=
  State.core_of_sansHealth (s.logEvent_sansHealth code sev src d)

theorem State.trigger_core (s : State) (i : Nat) : (s.trigger i).core = s.core := State.core_of_sansHealth (s.trigger_sansHealth i)

theorem State.rehealth_core (s : State) : s.rehealth.core = s.core := State.core_of_sansHealth s.rehealth_sansHealth

theorem State.modMem_core (s : State) (f : Mem → Mem) : (s.modMem f).core = s.core := rfl

theorem State.setReg_core (s : State) (l : Loc) (v : W64) : (s.setReg l v).core = s.core := rfl

theorem State.fset_core (s : State) (f : Fld) (v t u i j : Nat) : (s.fset f v t u i j).core = s.core := rfl

theorem State.bump_core (s : State) (f : Fld) (n t u i j : Nat) : (s.bump f n t u i j).core = s.core := rfl

theorem State.drawn_core (s : State) (n : Nat) : (s.drawn n).core = s.core := rfl

theorem State.ce_core (s : State) (n : Nat) : (s.ce n).core = s.core := by
  unfold State.ce
  split <;> rfl

/-- A tower's records may change. -/
theorem State.modTower_core (s : State) (t : Nat) {f : Tower → Tower} (h : (f (s.tower t)).core = (s.tower t).core) : (s.modTower t f).core = s.core := by
  refine Prod.ext rfl (funext fun x => ?_)
  by_cases hx : x = t
  · subst hx
    exact (congrArg Tower.core (s.tower_modTower x f)).trans h
  · exact congrArg Tower.core (s.tower_modTower_other hx f)

theorem State.core_ite {c : Prop} [Decidable c] {a b s : State} (ha : a.core = s.core) (hb : b.core = s.core) : (if c then a else b).core = s.core := by
  split
  · exact ha
  · exact hb

theorem Tower.core_ite {c : Prop} [Decidable c] {a b w : Tower} (ha : a.core = w.core) (hb : b.core = w.core) : (if c then a else b).core = w.core := by
  split
  · exact ha
  · exact hb

/-- Corrected errors are counted twice: in their register and by the health manager. -/
theorem State.corrected_core (s : State) (f : Fld) (n m t u i j : Nat) : ((s.bump f n t u i j).ce m).core = s.core :=
  (State.ce_core _ _).trans (State.bump_core _ _ _ _ _ _ _)

/-! ### HBM (R303 to R316) -/

theorem State.failChannel_core (s : State) (t stack ch : Nat) : (s.failChannel t stack ch).core = s.core := by
  unfold State.failChannel
  split
  · rfl
  · exact (State.trigger_core _ _).trans (State.logEvent_core _ _ _ _ _)

theorem State.hbmBad_core (s : State) (t un src syn par : Nat) : (s.hbmBad t un src syn par).core = s.core := by
  have logged (x : State) (h : x.core = s.core) (c : Bool) (l : Loc) (v : W64) : (if c = true then x else x.setReg l v).core = s.core :=
    State.core_ite h h
  unfold State.hbmBad
  dsimp only
  generalize hx : (if State.flag _ _ _ _ _ _ = true then s.bump hbmErrCntUncorrectable 1 t 0 (hbmPlace (un * 32)).stack else _) = x
  have kept {f : Tower → Tower} (h : (f (x.tower t)).core = (x.tower t).core) : (x.modTower t f).core = s.core :=
    (x.modTower_core t h).trans (hx ▸ logged _ (s.bump_core hbmErrCntUncorrectable 1 t 0 (hbmPlace (un * 32)).stack 0) _ _ _)
  exact State.core_ite ((State.failChannel_core _ _ _ _).trans (kept rfl)) (kept rfl)

theorem State.unitFetch_core (s : State) (t un src : Nat) : (s.unitFetch t un src).2.2.core = s.core := by
  unfold State.unitFetch
  have counted (c : Bool) (st : Nat) : (if c = true then (s.bump hbmErrCntCorrected 1 t 0 st).ce 1 else s).core = s.core :=
    State.core_ite (State.corrected_core _ _ _ _ _ _ _ _) rfl
  exact State.core_ite ((State.hbmBad_core _ _ _ _ _ _).trans (counted _ _)) (counted _ _)

theorem State.unitStore_core (s : State) (t un : Nat) (d : BitVec 256) (poison : Bool) : (s.unitStore t un d poison).core = s.core := rfl

theorem State.unitWrite_core (s : State) (t un : Nat) (d : HbmData) : (s.unitWrite t un d).core = s.core := by
  unfold State.unitWrite
  split
  · rfl
  · split
    · exact State.unitStore_core _ _ _ _ _
    · exact (State.unitStore_core _ _ _ _ _).trans ((State.bump_core _ _ _ _ _ _ _).trans (State.unitFetch_core _ _ _ _))

theorem State.account_core (s : State) (t unit cls bytes : Nat) : (s.account t unit cls bytes).core = s.core := by
  have counted (x : State) (h : x.core = s.core) (a b : Fld) (i : Nat) (c : Bool) :
      (if c = true then (x.bump a bytes t 0 i cls).bump b 1 t 0 i cls else x.bump a bytes t 0 i cls).core = s.core := by
    have own := (State.bump_core x a bytes t 0 i cls).trans h
    exact State.core_ite ((State.bump_core _ _ _ _ _ _ _).trans own) own
  unfold State.account
  dsimp only
  generalize hx : s.modTower t _ = x
  have own : x.core = s.core := hx ▸ State.modTower_core s t rfl
  exact State.core_ite (counted x own _ _ _ _) (counted x own _ _ _ _)

theorem State.drainWrites_core (n : Nat) (s : State) (t st pc : Nat) : (State.drainWrites n s t st pc).core = s.core := by
  induction n generalizing s with
  | zero => rfl
  | succ n ih =>
    unfold State.drainWrites
    split
    · rfl
    · exact (ih _).trans ((State.account_core _ _ _ _ _).trans ((State.unitWrite_core _ _ _ _).trans (State.modMem_core _ _)))

theorem State.hbmWrite_core (s : State) (t un cls : Nat) (d : HbmData) : (s.hbmWrite t un cls d).core = s.core := by
  unfold State.hbmWrite
  dsimp only
  split
  · rfl
  · split
    · exact State.bump_core _ _ _ _ _ _ _
    · refine (State.modMem_core _ _).trans ?_
      split
      · rfl
      · exact State.drainWrites_core _ _ _ _ _

theorem State.lineStore_core (s : State) (t line cls : Nat) (bs : List (Nat × BitVec 9)) : (s.lineStore t line cls bs).core = s.core :=
  foldl_keeps State.core (fun x _ => x.hbmWrite_core _ _ _ _) _ s

/-! ### The cellars' rows (R231 to R260) -/

theorem State.rowErrors_core (s : State) (t die bay prow src : Nat) (rs : List ByteRead) : (s.rowErrors t die bay prow src rs).core = s.core := by
  have fixed (n : Nat) : (if n = 0 then s else (s.bump celErrCntCorrected n t die).ce n).core = s.core :=
    State.core_ite rfl (State.corrected_core _ _ _ _ _ _ _ _)
  unfold State.rowErrors
  dsimp only
  generalize hx : (if (rs.filter ByteRead.corrected).length = 0 then s else _) = x
  have own : x.core = s.core := hx ▸ fixed _
  have bad := (State.bump_core x celErrCntUncorrectable (rs.filter ByteRead.bad).length t die 0 0).trans own
  exact State.core_ite own (State.core_ite bad ((State.setReg_core _ _ _).trans bad))

theorem State.queueRepair_core (s : State) (t die bay row : Nat) : (s.queueRepair t die bay row).core = s.core := by
  unfold State.queueRepair
  exact State.modTower_core s t (Tower.core_ite rfl rfl)

theorem State.rowRead_core (s : State) (t die bay row src : Nat) : (s.rowRead t die bay row src).2.core = s.core := by
  unfold State.rowRead
  dsimp only
  generalize hx : (if s.validBits t die bay row = 0#3 ∨ s.validBits t die bay row = 7#3 then s else _) = x
  have copies : x.core = s.core := hx ▸ State.core_ite rfl (State.corrected_core _ _ _ _ _ _ _ _)
  generalize s.rowCells t die bay (s.physRow t die bay row) = rs
  split
  · have errors := (x.rowErrors_core t die bay (s.physRow t die bay row) src rs).trans copies
    exact State.core_ite ((State.queueRepair_core _ _ _ _ _).trans errors) errors
  · exact copies

theorem State.rowWrite_core (s : State) (t die bay row : Nat) (bs : List (Nat × BitVec 9)) : (s.rowWrite t die bay row bs).core = s.core := by
  unfold State.rowWrite
  exact State.core_ite rfl ((State.modMem_core _ _).trans (State.core_ite (State.setReg_core _ _ _) rfl))

theorem State.wakeDie_core (s : State) (t die bay : Nat) : (s.wakeDie t die bay).core = s.core := State.modTower_core s t rfl

theorem State.shelfPuts_core (s : State) (t c : Nat) (bs : List (Nat × BitVec 9)) : (s.shelfPuts t c bs).core = s.core :=
  foldl_keeps State.core (f := fun (s : State) (b : Nat × BitVec 9) => s.shelfPut t c b.1 b.2)
    (fun _ _ => (State.modMem_core _ _).trans (State.core_ite (State.setReg_core _ _ _) rfl)) bs s

theorem State.spareFlags_core (s : State) (t die bay : Nat) : (s.spareFlags t die bay).core = s.core := by
  unfold State.spareFlags
  dsimp only
  have high (n w : Nat) : (if n = 820 then (((s.fset celStatusSpareHigh 1 t die).logEvent 0x0024 1 t [w, 1]).trigger 1) else s).core = s.core := by
    split
    · exact (State.trigger_core _ _).trans ((State.logEvent_core _ _ _ _ _).trans (State.fset_core _ _ _ _ _ _ _))
    · rfl
  split
  · exact (State.rehealth_core _).trans ((State.logEvent_core _ _ _ _ _).trans ((State.fset_core _ _ _ _ _ _ _).trans (high _ _)))
  · exact high _ _

theorem State.retireRow_core (s : State) (t die bay row : Nat) : (s.retireRow t die bay row).core = s.core := by
  unfold State.retireRow
  dsimp only
  split
  · exact State.fset_core _ _ _ _ _ _ _
  · exact (State.spareFlags_core _ _ _ _).trans ((State.modTower_core _ _ rfl).trans ((State.modMem_core _ _).trans (State.drawn_core _ _)))

/-! ### Reads of HBM lines -/

theorem State.hbmRead_core (s : State) (t un : Nat) : (s.hbmRead t un).2.core = s.core := by
  unfold State.hbmRead
  dsimp only
  split
  · exact s.drawn_core 32
  · exact s.unitFetch_core t un 0

theorem State.hbmReadC_core (s : State) (t un cls : Nat) : (s.hbmReadC t un cls).2.core = s.core := by
  have read := s.hbmRead_core t un
  unfold State.hbmReadC
  exact State.core_ite read ((State.account_core _ _ _ _ _).trans read)

theorem State.lineFetch_core (s : State) (t line cls : Nat) : (s.lineFetch t line cls).2.core = s.core :=
  foldl_keeps (fun a : List (BitVec 9) × State => a.2.core)
    (f := fun a i => (a.1 ++ (a.2.hbmReadC t (line * 4 + i) cls).1, (a.2.hbmReadC t (line * 4 + i) cls).2))
    (fun a i => a.2.hbmReadC_core t (line * 4 + i) cls) (List.range 4) ([], s)

/-! ### The pantry (R268 to R302) -/

theorem State.writeBack_core (s : State) (t half set w : Nat) (l : PLine) : (s.writeBack t half set w l).core = s.core := by
  have read : (s.wayRead t half set w).2.core = s.core := State.rowRead_core _ _ _ _ _ _
  unfold State.writeBack
  split
  · rfl
  · exact (State.bump_core _ _ _ _ _ _ _).trans ((State.lineStore_core _ _ _ _ _).trans read)

theorem State.evict_core (s : State) (t half set w : Nat) : (s.evict t half set w).core = s.core := by
  unfold State.evict
  split
  · rfl
  · exact (State.modMem_core _ _).trans (State.writeBack_core _ _ _ _ _ _)

theorem State.wayWrite_core (s : State) (t half set w : Nat) (bs : List (Nat × BitVec 9)) : (s.wayWrite t half set w bs).core = s.core :=
  State.rowWrite_core _ _ _ _ _ _

theorem State.setWay_core (s : State) (t half set w : Nat) (l : Option PLine) : (s.setWay t half set w l).core = s.core := rfl

theorem State.panErr_core (s : State) (t line cause : Nat) (bs : List (BitVec 9)) : (s.panErr t line cause bs).core = s.core :=
  State.core_ite (State.setReg_core _ _ _) rfl

theorem State.mergeLine_core (s : State) (t half set w cls : Nat) : (s.mergeLine t half set w cls).core = s.core := by
  unfold State.mergeLine
  split
  · rfl
  case h_2 l _ =>
    have fetched := s.lineFetch_core t l.line cls
    generalize s.lineFetch t l.line cls = p at fetched
    exact (State.setWay_core _ _ _ _ _ _).trans ((State.wayWrite_core _ _ _ _ _ _).trans ((State.panErr_core _ _ _ _ _).trans fetched))

theorem State.limitPartials_core (s : State) (t half : Nat) : (s.limitPartials t half).core = s.core := by
  unfold State.limitPartials
  dsimp only
  split
  · rfl
  · split
    · rfl
    · exact (State.bump_core _ _ _ _ _ _ _).trans (State.mergeLine_core _ _ _ _ _ _)

theorem State.deadTouch_core (s : State) (t line req : Nat) (read : Bool) : (s.deadTouch t line req read).core = s.core := by
  unfold State.deadTouch
  dsimp only
  generalize hx : s.modTower t _ = x
  have own : x.core = s.core := hx ▸ State.modTower_core s t rfl
  exact State.core_ite (State.core_ite own (State.core_ite ((State.modTower_core x t rfl).trans own)
    ((State.bump_core x _ _ _ _ _ _).trans own))) rfl

theorem State.lookupCost_core (s : State) (t half cls : Nat) (pinned miss : Bool) : (s.lookupCost t half cls pinned miss).core = s.core := by
  unfold State.lookupCost
  exact State.core_ite (s.account_core t _ cls 128) ((State.modTower_core _ t rfl).trans (s.account_core t _ cls 128))

theorem State.pickWay_core (s : State) (t half set : Nat) (far : Bool) : (s.pickWay t half set far).2.core = s.core := by
  unfold State.pickWay
  dsimp only
  split
  · split <;> rfl
  · rfl

/-- A line placed, or not: the machine after it, and the one told. -/
theorem State.place_core (s : State) (t half set line : Nat) (far : Option Nat) (st : LineState) (bs : List (Nat × BitVec 9)) :
    (s.place t half set line far st bs).2.core = s.core ∧ ∀ u, (s.place t half set line far st bs).1 = some u → u.core = s.core := by
  have picked := s.pickWay_core t half set far.isSome
  unfold State.place
  generalize s.pickWay t half set far.isSome = p at picked
  obtain ⟨_ | w, s1⟩ := p
  · exact ⟨(State.bump_core _ _ _ _ _ _ _).trans picked, fun _ h => absurd h nofun⟩
  · have gone := (s1.evict_core t half set w).trans picked
    dsimp only
    generalize hx : (if st = .part ∧ (!decide (bs.length = 128)) = true then (s1.evict t half set w).limitPartials t half else s1.evict t half set w) = s3
    have limited : s3.core = s.core := hx ▸ State.core_ite ((State.limitPartials_core _ _ _).trans gone) gone
    have put (l : Option PLine) : ((s3.wayWrite t half set w bs).setWay t half set w l).core = s.core :=
      (State.setWay_core _ t half set w l).trans ((State.wayWrite_core _ t half set w bs).trans limited)
    exact ⟨put _, fun u h => Option.some.inj h ▸ put _⟩

theorem State.panWrite_core (s : State) (t line cls : Nat) (bs : List (Nat × BitVec 9)) : (s.panWrite t line cls bs).core = s.core := by
  have touched := s.deadTouch_core t line 0 false
  unfold State.panWrite
  dsimp only
  generalize s.deadTouch t line 0 false = s0 at touched
  have looked (half : Nat) (pinned miss : Bool) (n : Nat) : ((s0.lookupCost t half cls pinned miss).bump panHcntCount 1 t 0 half n).core = s.core :=
    (State.bump_core _ _ _ _ _ _ _).trans ((s0.lookupCost_core t half cls pinned miss).trans touched)
  split
  · rfl
  · split
    · exact (State.setWay_core _ _ _ _ _ _).trans ((State.wayWrite_core _ _ _ _ _ _).trans (looked _ _ _ _))
    · split
      · exact (State.lineStore_core _ _ _ _ _).trans ((State.bump_core _ _ _ _ _ _ _).trans (looked _ _ _ _))
      · have placed := State.place_core ((s0.lookupCost t (s.panSet t line).1 cls false true).bump panHcntCount 1 t 0 (s.panSet t line).1 1) t
          (s.panSet t line).1 (s.panSet t line).2 line none .part bs
        split
        case h_1 s2 x hp =>
          rw [hp] at placed
          exact (placed.2 s2 rfl).trans (looked _ _ _ _)
        case h_2 s2 hp =>
          rw [hp] at placed
          exact (State.lineStore_core _ _ _ _ _).trans (placed.1.trans (looked _ _ _ _))

theorem State.flushWays_core (s : State) (t : Nat) (p : Nat → Nat → Nat → Bool) : (s.flushWays t p).core = s.core :=
  foldl_keeps State.core (fun x _ => x.evict_core _ _ _ _) _ s

/-! ### What the core shows -/

theorem State.clu_of_core {s u : State} (h : u.core = s.core) (t c : Nat) : u.clu t c = s.clu t c :=
  keeps_by (fun x => x.1.clu t c) (fun x => x.clu t c) h

theorem State.spare_of_core {s u : State} (h : u.core = s.core) (t row : Nat) : u.spare t row = s.spare t row :=
  keeps_by (fun x => SMap.get 0xFF (x.2 t).spares row) (fun x => x.spare t row) h

theorem State.lostPos_of_core {s u : State} (h : u.core = s.core) (t : Nat) : (u.tower t).lostPos = (s.tower t).lostPos :=
  keeps_by (fun x => (x.2 t).lostPos) (fun x => (x.tower t).lostPos) h

end Sys2Proof.Machine
end

section
/-! PROOF. Bring-up from training to READY (R42, R422 to R427, R437). -/

namespace Sys2Proof.Machine

open Sys2Proof.Claims

/-- What a step makes for its own element, and no step unmakes, holds of every element after a fold. -/
theorem foldl_makes {σ α : Type} {f : σ → α → σ} {P : α → σ → Prop}
    (own : ∀ s a, P a (f s a)) (keep : ∀ s a b, P a s → P a (f s b)) (l : List α) :
    ∀ s, ∀ a ∈ l, P a (l.foldl f s) := by
  induction l with
  | nil => exact fun _ _ h => absurd h List.not_mem_nil
  | cons b l ih =>
    intro s a ha
    obtain rfl | hl := List.mem_cons.mp ha
    · exact List.foldlRecOn l f (motive := P a) (own s a) fun x hx c _ => keep x a c hx
    · exact ih _ a hl

/-! ### Channels that failed training (R310, R422) -/

theorem chanFail_key (t u i j : Nat) : Loc.key ⟨.hbmChanFail, t, 0, i, 0⟩ ≠ Loc.key ⟨.hbmStatus, u, 0, j, 0⟩ := by
  simp only [Loc.key, RegName.shared, RegName.unitBase, RegName.place, Bool.false_eq_true, if_false]
  omega

/-- The bit of a channel that fails is set, and no other is cleared. -/
theorem State.failChannel_reg {s : State} {t stack ch : Nat} (h : s.chanFailed t stack ch = false) (x y : Nat) :
    (s.failChannel t stack ch).reg ⟨.hbmChanFail, x, 0, y, 0⟩ =
      if Loc.key ⟨.hbmChanFail, x, 0, y, 0⟩ = Loc.key ⟨.hbmChanFail, t, 0, stack, 0⟩
        then s.reg ⟨.hbmChanFail, x, 0, y, 0⟩ ||| (1#64 <<< ch) else s.reg ⟨.hbmChanFail, x, 0, y, 0⟩ := by
  let l : Loc := ⟨.hbmChanFail, t, 0, stack, 0⟩
  let s2 := (s.setReg l (s.reg l ||| (1#64 <<< ch))).bump hbmStatusFailed 1 t 0 stack
  have told : ((s2.logEvent 0x0022 2 t [stack, ch]).trigger 3).sansHealth = s2.sansHealth :=
    (State.trigger_sansHealth _ _).trans (State.logEvent_sansHealth _ _ _ _ _)
  have run : s.failChannel t stack ch = (s2.logEvent 0x0022 2 t [stack, ch]).trigger 3 := if_neg (by simp [h])
  rw [run, keeps_of (fun z => z.reg ⟨.hbmChanFail, x, 0, y, 0⟩) told]
  refine (State.reg_bump_other _ hbmStatusFailed 1 t 0 stack 0 (chanFail_key x t y stack)).trans ?_
  split
  case isTrue hk =>
    have here : s.reg l = s.reg ⟨.hbmChanFail, x, 0, y, 0⟩ := congrArg (SMap.get _ s.regs) hk.symm
    have put (v : W64) : (s.setReg l v).reg ⟨.hbmChanFail, x, 0, y, 0⟩ = v := (congrArg (SMap.get _ _) hk).trans (s.reg_setReg l v)
    rw [put, here]
  case isFalse hk => exact s.reg_setReg_other hk _

theorem State.chanFailed_failChannel_self (s : State) {t stack ch : Nat} (h : ch < 64) : (s.failChannel t stack ch).chanFailed t stack ch = true := by
  by_cases hf : s.chanFailed t stack ch = true
  · rw [State.failChannel, if_pos hf]
    exact hf
  · rw [State.chanFailed, State.failChannel_reg (Bool.eq_false_iff.mpr hf), if_pos rfl, bit]
    simp [h]

theorem State.chanFailed_failChannel {s : State} {x y c : Nat} (h : s.chanFailed x y c = true) (t stack ch : Nat) :
    (s.failChannel t stack ch).chanFailed x y c = true := by
  by_cases hf : s.chanFailed t stack ch = true
  · have same : s.failChannel t stack ch = s := if_pos hf
    exact (congrArg (fun z => z.chanFailed x y c) same).trans h
  · rw [State.chanFailed, State.failChannel_reg (Bool.eq_false_iff.mpr hf)]
    split
    · rw [bit, BitVec.getLsbD_or]
      exact Bool.or_eq_true_iff.mpr (.inl h)
    · exact h

theorem trainingComplete_spec (s : State) (failed : List (Nat × Nat × Nat)) (h : s.mod.phase = 3) :
    ∃ u, exec (.trainingComplete failed) s = .next u ∧ u.mod.phase = 4 ∧
      ∀ e ∈ failed, e.1 < 4 → (s.tower e.1).fence = 0 → e.2.1 < 8 → e.2.2 < 32 → u.chanFailed e.1 e.2.1 e.2.2 = true := by
  refine ⟨_, if_neg (not_not.mpr h), rfl, fun e he ht hf hs hc => ?_⟩
  let fs := failed.filter fun e => decide (e.1 < 4) && (s.tower e.1).fence = 0 && decide (e.2.1 < 8) && decide (e.2.2 < 32)
  have all := foldl_makes (f := fun (s : State) (e : Nat × Nat × Nat) => s.failChannel e.1 e.2.1 e.2.2)
    (P := fun e s => e.2.2 < 64 → s.chanFailed e.1 e.2.1 e.2.2 = true) (fun s _ h => s.chanFailed_failChannel_self h)
    (fun _ _ b hx h => State.chanFailed_failChannel (hx h) b.1 b.2.1 b.2.2) fs s
  exact all e (List.mem_filter.mpr ⟨he, by simp [ht, hf, hs, hc]⟩) (by omega)

/-! ### The memory test (R423, R424) -/

theorem memoryTest_spec (s : State) (f : TestFindings) (h : s.mod.phase = 4) :
    ∃ u, exec (.memoryTest f) s = .next u ∧ u.mod.phase = 5 ∧ u.mem.shelf = [] ∧ u.mem.cells = [] ∧ u.mem.valid = [] ∧
      u.mem.hbm = (if s.mod.warm then s.mem.hbm else []) ∧ u.mem.remap = s.mem.remap ∧ u.towers = s.towers ∧
      ∃ g, u.mod.findings = some g ∧ (s.mod.warm = true → g.hbm = []) ∧ ∀ e ∈ f.shelves, e.1 < 4 → (s.tower e.1).fence = 0 → e ∈ g.shelves :=
  ⟨_, if_neg (not_not.mpr h), rfl, rfl, rfl, rfl, rfl, rfl, rfl, _, rfl, fun hw => if_pos hw,
    fun _ he ht hf => List.mem_filter.mpr ⟨he, by simp [ht, hf]⟩⟩

/-! ### The end of the waves (R426, R422) -/

/-- The machine but for its ports, their flits and the phase of bring-up. -/
def State.sansWaves (s : State) : State := { s with reqs := [], ports := [], regs := [], mod := { s.mod with bridge := none, phase := 0, transit := [] } }

theorem State.portClose_sansWaves (s : State) (t p : Nat) (m : PortMode) : (s.portClose t p m).sansWaves = s.sansWaves := by
  let k := portKey t p
  let s1 : State := { s with reqs := s.reqs.map fun (r : Req) => if r.stage = .sent k then { r with stage := .done, status := stFaultLink } else r }
  let s2 := s1.modMod fun m => { m with transit := m.transit.filter fun f => f.port ≠ k }
  have closed : (s.portClose t p m).sansWaves = (s2.portMode t p m).sansWaves := rfl
  exact closed.trans ((keeps_of (view := State.sansPorts) State.sansWaves (s2.portMode_sansPorts t p m)).trans rfl)

theorem State.wavesEnd_sansWaves (s : State) : s.wavesEnd.sansWaves = s.sansWaves := by
  unfold State.wavesEnd
  split
  · have closed := foldl_keeps State.sansWaves (f := fun (s : State) k =>
      if (s.port (k / 8) (k % 8)).mode = .training then s.portClose (k / 8) (k % 8) .down else s) (fun x k => by
        split
        · exact x.portClose_sansWaves _ _ _
        · rfl) (List.range 32) s
    generalize (List.range 32).foldl _ s = x at closed
    exact keeps_of (view := State.sansWaves) (fun y => (y.modMod fun m => { m with phase := 7 }).sansWaves) closed
  · rfl

theorem State.wavesEnd_phase (s : State) : s.wavesEnd.mod.phase = s.mod.phase ∨ s.wavesEnd.mod.phase = 7 := by
  unfold State.wavesEnd
  split
  · exact .inr rfl
  · exact .inl rfl

/-! ### Soft repair (R425, R429) -/

theorem State.repairRow_core (s : State) (t die bay prow : Nat) : (s.repairRow t die bay prow).core = s.core := by
  unfold State.repairRow
  dsimp only
  generalize hx : (if prow < dataRows then s else _) = x
  have marked : x.core = s.core := hx ▸ State.core_ite rfl (State.modTower_core s t rfl)
  split
  · exact (State.retireRow_core _ _ _ _ _).trans marked
  · exact marked

theorem State.repairHbm_core (s : State) (t : Nat) (f : TestFindings) : (s.repairHbm t f).core = s.core :=
  foldl_keeps State.core (fun x _ => State.core_ite (State.modTower_core x t rfl) (State.failChannel_core _ _ _ _)) _ s

theorem State.repairTriggers_core (s : State) (t : Nat) : (s.repairTriggers t).core = s.core := by
  have absent (c : Bool) : (if c = true then s.trigger 0 else s).core = s.core := State.core_ite (s.trigger_core 0) rfl
  unfold State.repairTriggers
  exact State.core_ite ((State.trigger_core _ _).trans (absent _)) (absent _)

theorem State.modClus_tower (g : Nat → Cluster → Cluster) (t x : Nat) (l : List Nat) (s : State) :
    (l.foldl (fun (s : State) c => s.modClu t c (g c)) s).tower x = s.tower x := 
  foldl_keeps (fun y : State => y.tower x) (f := fun (s : State) c => s.modClu t c (g c)) (fun _ _ => rfl) l s

/-- Repair of a tower touches no other. -/
theorem State.placeClusters_tower_other (s : State) {t x : Nat} (h : x ≠ t) (lost : List Nat) : (s.placeClusters t lost).tower x = s.tower x := by
  unfold State.placeClusters
  exact (State.tower_modTower_other _ h _).trans ((State.modClus_tower _ t x _ _).trans (State.tower_modTower_other _ h _))

/-- The places that are lost. -/
theorem State.placeClusters_lostPos (s : State) (t : Nat) (lost : List Nat) : ((s.placeClusters t lost).tower t).lostPos = lost := by
  unfold State.placeClusters
  rw [State.tower_modTower]
  exact congrArg Tower.lostPos ((State.modClus_tower _ t t _ _).trans (State.tower_modTower _ t _))

/-- Repair of a tower: no other tower's core changes. -/
theorem State.repairTower_core_other (s : State) (f : TestFindings) {t x : Nat} (h : x ≠ t) : ((s.repairTower f t).tower x).core = (s.tower x).core := by
  have rows (l : List (Nat × Nat × Nat × Nat)) : (l.foldl (fun (s : State) e => s.repairRow t e.2.1 e.2.2.1 e.2.2.2) s).core = s.core :=
    foldl_keeps State.core (fun y e => y.repairRow_core t e.2.1 e.2.2.1 e.2.2.2) l s
  have seen {u v : State} (hc : u.core = v.core) : (u.tower x).core = (v.tower x).core := keeps_by (fun y => y.2 x) (fun y => (y.tower x).core) hc
  unfold State.repairTower
  refine (seen (State.repairTriggers_core _ t)).trans ?_
  rw [State.placeClusters_tower_other _ h]
  exact seen ((State.repairHbm_core _ t f).trans (rows _))

/-- The failing shelves of a tower are lost places of it. -/
theorem State.repairTower_lostPos (s : State) {f : TestFindings} {e : Nat × Nat × Nat} (he : e ∈ f.shelves) (hr : e.2.1 < 8) (hc : e.2.2 < 17) :
    17 * e.2.1 + e.2.2 ∈ ((s.repairTower f e.1).tower e.1).lostPos := by
  unfold State.repairTower
  rw [State.lostPos_of_core (State.repairTriggers_core _ e.1), State.placeClusters_lostPos]
  refine List.mem_filter.mpr ⟨List.mem_range.mpr (by omega), ?_⟩
  simp only [Bool.or_eq_true]
  exact .inl (.inl (List.any_eq_true.mpr ⟨e, he, by simp⟩))

theorem State.compareTower_core (s : State) (t : Nat) (old : InvTower) : (s.compareTower t old).core = s.core := by
  have fresh (l : List Nat) (k : Nat) (g h : Nat → Nat) (x : State) : (l.foldl (fun (s : State) p => s.newDefect t k (g p) (h p)) x).core = x.core :=
    foldl_keeps State.core (fun y p => y.logEvent_core _ _ _ _) l x
  have gone (l : List Nat) (k : Nat) (g h : Nat → Nat) (x : State) : (l.foldl (fun (s : State) p => s.oldDefect t k (g p) (h p)) x).core = x.core :=
    foldl_keeps State.core (fun y p => y.logEvent_core _ _ _ _) l x
  have clusters (x : State) : (x.compareClusters t old).core = x.core := by
    unfold State.compareClusters
    refine (foldl_keeps State.core (fun y p => (State.drawn_core _ 1).trans (y.logEvent_core _ _ _ _)) _ _).trans ?_
    exact (gone _ _ _ _ _).trans (fresh _ _ _ _ _)
  have masks (x : State) (k n : Nat) (a b : List Nat) : (x.compareMasks t k n a b).core = x.core :=
    foldl_keeps State.core (fun y i => (gone _ _ _ _ _).trans (fresh _ _ _ _ _)) _ x
  have phases (x : State) : (x.comparePhases t old).core = x.core := by
    unfold State.comparePhases
    dsimp only
    split
    · exact foldl_keeps State.core (fun y p => y.logEvent_core _ _ _ _) _ x
    · split
      · exact (State.drawn_core _ 1).trans (State.logEvent_core _ _ _ _ _)
      · rfl
  have rows (x : State) (now : InvTower) : (x.compareRows t now old).core = x.core := by
    have upper : (if old.retiredU + 16 < now.retiredU then x.newDefect t 5 0 now.retiredU else x).core = x.core :=
      State.core_ite (State.logEvent_core _ _ _ _ _) rfl
    exact State.core_ite ((State.logEvent_core _ _ _ _ _).trans upper) upper
  unfold State.compareTower
  exact (rows _ _).trans ((phases _).trans ((masks _ _ _ _ _).trans ((masks _ _ _ _ _).trans (clusters s))))

/-- The comparison with the record changes no tower. -/
theorem State.compareInventory_core (s : State) (x : Nat) : (s.compareInventory.tower x).core = (s.tower x).core := by
  have seen {u v : State} (hc : u.core = v.core) : (u.tower x).core = (v.tower x).core := keeps_by (fun y => y.2 x) (fun y => (y.tower x).core) hc
  have compared (g : State → Nat → InvTower) (l : List Nat) (y : State) : (l.foldl (fun (s : State) t =>
      if (s.tower t).fence ≠ 0 then s else s.compareTower t (g s t)) y).core = y.core :=
    foldl_keeps State.core (fun z t => State.core_ite rfl (z.compareTower_core t _)) l y
  have foreign (c : Bool) : ((if c = true then (s.logEvent 0x0006 1 s.mod.lead []).modMod fun m => { m with bootCount := 1 } else s).tower x).core =
      (s.tower x).core := by
    split
    · show ((s.logEvent 0x0006 1 s.mod.lead []).tower x).core = _
      exact seen (State.logEvent_core s 0x0006 1 s.mod.lead [])
    · rfl
  unfold State.compareInventory
  dsimp only
  split
  · exact (seen (State.core_ite (State.trigger_core _ 7) rfl)).trans ((seen (compared (fun _ _ => _) _ _)).trans (foreign _))
  · exact (seen (compared (fun _ _ => _) _ _)).trans (foreign _)

theorem softRepair_idle (s : State) (h : s.mod.phase ≠ 5 ∨ s.mod.findings = none) : exec .softRepair s = .next s := by
  show execSoftRepair s = _
  unfold execSoftRepair
  split
  case h_1 f hp hf => simp [hp, hf] at h
  case h_2 => rfl

theorem Tower.lostPos_of_core {w v : Tower} (h : w.core = v.core) : w.lostPos = v.lostPos := keeps_of Tower.lostPos h

theorem Tower.fence_of_core {w v : Tower} (h : w.core = v.core) : w.fence = v.fence := keeps_of Tower.fence h

/-- Soft repair of a tower that is not fenced off. -/
def State.repairUp (s : State) (f : TestFindings) (t : Nat) : State := if (s.tower t).fence ≠ 0 then s else s.repairTower f t

theorem State.repairUp_core_other (s : State) (f : TestFindings) {t x : Nat} (h : x ≠ t) : ((s.repairUp f t).tower x).core = (s.tower x).core := by
  unfold State.repairUp
  split
  · rfl
  · exact s.repairTower_core_other f h

/-- Soft repair of all towers. -/
def State.repairAll (s : State) (f : TestFindings) : State := (List.range 4).foldl (fun s t => s.repairUp f t) s

theorem State.repairAll_lostPos (s : State) {f : TestFindings} {e : Nat × Nat × Nat} (he : e ∈ f.shelves) (ht : e.1 < 4)
    (hf : (s.tower e.1).fence = 0) (hr : e.2.1 < 8) (hc : e.2.2 < 17) : 17 * e.2.1 + e.2.2 ∈ ((s.repairAll f).tower e.1).lostPos := by
  obtain ⟨x, before, after⟩ := foldl_seen_once (fun s t => s.repairUp f t) (fun y => (y.tower e.1).core)
    (fun y b hb => y.repairUp_core_other f hb.symm) List.nodup_range (List.mem_range.mpr ht) s
  have up : x.repairUp f e.1 = x.repairTower f e.1 := if_neg (not_not.mpr ((Tower.fence_of_core before).trans hf))
  have kept : ((s.repairAll f).tower e.1).lostPos = ((x.repairUp f e.1).tower e.1).lostPos := Tower.lostPos_of_core after
  rw [kept, up]
  exact x.repairTower_lostPos he hr hc

/-- The findings repaired and compared with the record, the waves begin. -/
def State.beginWaves (s : State) (f : TestFindings) : State := (s.repairAll f).compareInventory.modMod fun m => { m with phase := 6, findings := none }

theorem State.beginWaves_lostPos (s : State) (f : TestFindings) (t : Nat) :
    ((s.beginWaves f).tower t).lostPos = ((s.repairAll f).tower t).lostPos := by
  unfold State.beginWaves
  have compared := (s.repairAll f).compareInventory_core t
  generalize (s.repairAll f).compareInventory = x at compared
  exact Tower.lostPos_of_core compared

theorem softRepair_eq (s : State) (f : TestFindings) (hp : s.mod.phase = 5) (hf : s.mod.findings = some f) :
    exec .softRepair s = .next (s.beginWaves f).wavesEnd := by
  show execSoftRepair s = _
  unfold execSoftRepair
  rw [hp, hf]
  rfl

theorem softRepair_spec (s : State) (f : TestFindings) (hp : s.mod.phase = 5) (hf : s.mod.findings = some f) :
    ∃ u, exec .softRepair s = .next u ∧ (u.mod.phase = 6 ∨ u.mod.phase = 7) ∧ u.mod.findings = none ∧
      ∀ e ∈ f.shelves, e.1 < 4 → (s.tower e.1).fence = 0 → e.2.1 < 8 → e.2.2 < 17 → 17 * e.2.1 + e.2.2 ∈ (u.tower e.1).lostPos := by
  have waves := (s.beginWaves f).wavesEnd_sansWaves
  refine ⟨_, softRepair_eq s f hp hf, (s.beginWaves f).wavesEnd_phase, keeps_of (fun x => x.mod.findings) waves, fun e he ht hfence hr hc => ?_⟩
  rw [keeps_of (fun y => (y.tower e.1).lostPos) waves, s.beginWaves_lostPos f e.1]
  exact s.repairAll_lostPos he ht hfence hr hc

/-! ### The self-test of a cluster (R426) -/

/-- A logical cluster stands where its test says, but for the places that a spare of value 8, which replaces no column, confuses. -/
theorem State.phys_of_logical {s : State} {t row col c : Nat} (hc : col < 17) (h : s.logical t (17 * row + col) = some c) (hr : row < 8)
    (h8 : col ≠ 8 ∨ s.spare t row ≠ 8) : gridRow c = row ∧ s.phys t c = 17 * row + col := by
  have hrow : (17 * row + col) / 17 = row := by omega
  have hcol : (17 * row + col) % 17 = col := by omega
  simp only [State.logical, hrow, hcol] at h
  have place : ∀ k, k ≠ 8 → k ≤ 16 → c = (if k ≤ 7 then row * 8 + k else 64 + row * 8 + (k - 9)) → gridRow c = row ∧ gridCol c = k := by
    intro k hk hl hv
    unfold gridRow gridCol
    split at hv <;> split <;> omega
  by_cases hs : col = 8
  · rw [if_pos hs] at h
    split at h
    case isTrue low =>
      obtain ⟨grow, gcol⟩ := place _ (by omega) low (Option.some.inj h).symm
      exact ⟨grow, by rw [State.phys, grow, gcol, if_pos rfl, hs]⟩
    case isFalse => exact absurd h nofun
  · rw [if_neg hs] at h
    split at h
    case isTrue => exact absurd h nofun
    case isFalse own =>
      obtain ⟨grow, gcol⟩ := place col hs (by omega) (Option.some.inj h).symm
      exact ⟨grow, by rw [State.phys, grow, gcol, if_neg own]⟩

theorem State.clu_modClu_other (s : State) {t c d : Nat} (h : d ≠ c) (f : Cluster → Cluster) : (s.modClu t c f).clu t d = s.clu t d :=
  SMap.get_put_other _ _ (by unfold cluKey; omega)

/-- A cluster is lost, with its place. -/
def State.loseTested (s : State) (t c : Nat) : State :=
  ((s.modClu t c fun x => { x with absent := true, dom := .lost }).modTower t fun w => { w with lostPos := w.lostPos ++ [s.phys t c] }).logEvent
    0x0020 1 t [s.phys t c, c]

/-- The row's spare stands in, and its wave comes. -/
def State.standInHot (s : State) (t d : Nat) : State := (s.standIn t d).modTower t fun w => { w with hot := w.hot ++ [d] }

theorem State.failSelfTest_eq (s : State) (t c : Nat) : s.failSelfTest t c =
    if s.phys t c % 17 = 8 then (((s.loseTested t c).putSpare t (gridRow c) 0xFE).abandon (.wake t c)).trigger 0
    else match (s.loseTested t c).rowLost t (gridRow c) with
      | some d => (s.loseTested t c).standInHot t d
      | none => ((s.loseTested t c).abandon (.wake t c)).trigger 0 := rfl

theorem State.loseTested_clu (s : State) (t c d : Nat) :
    (s.loseTested t c).clu t d = if d = c then { s.clu t c with absent := true, dom := .lost } else s.clu t d := by
  unfold State.loseTested
  rw [State.clu_of_core (State.logEvent_core _ _ _ _ _)]
  refine (congrArg (SMap.get Cluster.init · (cluKey t d)) (State.modTower_clusters _ _ _)).trans ?_
  split
  case isTrue h =>
    subst h
    exact s.clu_modClu t d _
  case isFalse h => exact s.clu_modClu_other h _

theorem State.loseTested_lostPos (s : State) (t c : Nat) : ((s.loseTested t c).tower t).lostPos = (s.tower t).lostPos ++ [s.phys t c] := by
  unfold State.loseTested
  rw [State.lostPos_of_core (State.logEvent_core _ _ _ _ _), State.tower_modTower]
  rfl

theorem State.loseTested_spare (s : State) (t c row : Nat) : (s.loseTested t c).spare t row = s.spare t row := by
  unfold State.loseTested
  rw [State.spare_of_core (State.logEvent_core _ _ _ _ _), State.spare, State.tower_modTower]
  rfl

/-- The commands that waited for a lost cluster end, and the module is degraded. -/
theorem State.giveUp_keeps (s : State) (t c : Nat) : (∀ d, ((s.abandon (.wake t c)).trigger 0).clu t d = s.clu t d) ∧
    (((s.abandon (.wake t c)).trigger 0).tower t) = s.tower t := by
  have told := State.trigger_sansHealth (s.abandon (.wake t c)) 0
  have ended := s.abandon_sansQueues (.wake t c)
  exact ⟨fun d => (keeps_of (fun x => x.clu t d) told).trans (keeps_of (fun x => x.clu t d) ended),
    (keeps_of (fun x => x.tower t) told).trans (keeps_of (fun x => x.tower t) ended)⟩

/-- The spare's column, empty rows in its bay, and the cluster back, waiting for its wave. -/
def State.takeSpare (s : State) (t d : Nat) : State :=
  (((s.putSpare t (gridRow d) (gridCol d)).clearRows t fun _ bay _ => bay = 17 * gridRow d + 8).modClu t d fun x =>
    { x with absent := false, dom := .retention, selfTested := false }).modTower t fun w => { w with hot := w.hot ++ [d] }

theorem State.standInHot_eq (s : State) (t d : Nat) :
    s.standInHot t d = (s.flushWays t fun half set w => s.wayBay t half set w = s.phys t d).takeSpare t d := rfl

theorem State.takeSpare_tower (s : State) (t d : Nat) : (s.takeSpare t d).tower t =
    { s.tower t with spares := SMap.put 0xFF (s.tower t).spares (gridRow d) (gridCol d), hot := (s.tower t).hot ++ [d] } := by
  have placed : ((s.putSpare t (gridRow d) (gridCol d)).clearRows t fun _ bay _ => bay = 17 * gridRow d + 8).tower t =
      { s.tower t with spares := SMap.put 0xFF (s.tower t).spares (gridRow d) (gridCol d) } :=
    s.tower_modTower t fun w => { w with spares := SMap.put 0xFF w.spares (gridRow d) (gridCol d) }
  unfold State.takeSpare
  generalize State.clearRows _ _ _ = x at placed
  have back (f : Cluster → Cluster) : (x.modClu t d f).tower t = x.tower t := rfl
  rw [State.tower_modTower, back, placed]

theorem State.takeSpare_clu (s : State) (t d : Nat) : ((s.takeSpare t d).clu t d).absent = false := by
  unfold State.takeSpare
  generalize State.clearRows _ _ _ = x
  have kept (y : State) (f : Tower → Tower) : (y.modTower t f).clu t d = y.clu t d := rfl
  rw [kept, State.clu_modClu]

/-- What a spare that stands in leaves: the lost places as they were, its own column, and the cluster back. -/
theorem State.standInHot_keeps (s : State) (t d : Nat) : ((s.standInHot t d).tower t).lostPos = (s.tower t).lostPos ∧
    ((s.standInHot t d).clu t d).absent = false ∧ (s.standInHot t d).spare t (gridRow d) = gridCol d := by
  have flushed := s.flushWays_core t fun half set w => s.wayBay t half set w = s.phys t d
  rw [State.standInHot_eq, State.spare, State.takeSpare_tower]
  exact ⟨State.lostPos_of_core flushed t, State.takeSpare_clu _ t d, SMap.get_put_self _ _ _ _⟩

theorem State.failSelfTest_lostPos (s : State) (t c : Nat) : s.phys t c ∈ ((s.failSelfTest t c).tower t).lostPos := by
  have here : s.phys t c ∈ ((s.loseTested t c).tower t).lostPos := by
    rw [State.loseTested_lostPos]
    exact List.mem_append_right _ (List.mem_singleton.mpr rfl)
  rw [State.failSelfTest_eq]
  split
  · rw [(State.giveUp_keeps _ t c).2, State.putSpare, State.tower_modTower]
    exact here
  · split
    case h_1 d _ => rwa [((s.loseTested t c).standInHot_keeps t d).1]
    case h_2 => rwa [((s.loseTested t c).giveUp_keeps t c).2]

/-- Without a free spare the cluster is absent. -/
theorem State.failSelfTest_absent {s : State} {t c : Nat} (hp : s.phys t c % 17 ≠ 8) (hs : s.spare t (gridRow c) ≠ 0xFF) :
    ((s.failSelfTest t c).clu t c).absent = true ∧ ((s.failSelfTest t c).clu t c).dom = .lost := by
  have none_ : (s.loseTested t c).rowLost t (gridRow c) = none := if_pos (.inl (by rwa [State.loseTested_spare]))
  rw [State.failSelfTest_eq, if_neg hp, none_]
  dsimp only
  rw [((s.loseTested t c).giveUp_keeps t c).1 c, State.loseTested_clu, if_pos rfl]
  exact ⟨rfl, rfl⟩

/-- A free spare takes the place of the only cluster that its row lacks. -/
theorem State.rowLost_loseTested {s : State} {t c : Nat} (hc : c < 128) (hp : s.phys t c ≠ 17 * gridRow c + 8) (hs : s.spare t (gridRow c) = 0xFF)
    (hl : 17 * gridRow c + 8 ∉ (s.tower t).lostPos) (ha : ∀ d, d < 128 → gridRow d = gridRow c → (s.clu t d).absent = false) :
    (s.loseTested t c).rowLost t (gridRow c) = some c := by
  have free : ¬ ((s.loseTested t c).spare t (gridRow c) ≠ 0xFF ∨ (((s.loseTested t c).tower t).lostPos.contains (17 * gridRow c + 8)) = true) := by
    rw [State.loseTested_spare, State.loseTested_lostPos]
    simp [hs, hl, Ne.symm hp]
  rw [State.rowLost, if_neg free]
  have only (d : Nat) (hd : d < 128) (h : (gridRow d = gridRow c && ((s.loseTested t c).clu t d).absent) = true) : d = c := by
    by_contra hne
    rw [State.loseTested_clu, if_neg hne] at h
    simp only [Bool.and_eq_true, decide_eq_true_eq] at h
    exact absurd h.2 (by rw [ha d hd h.1]; decide)
  have mine : (gridRow c = gridRow c && ((s.loseTested t c).clu t c).absent) = true := by
    rw [State.loseTested_clu, if_pos rfl]
    simp
  cases found : (List.range 128).find? fun d => gridRow d = gridRow c && ((s.loseTested t c).clu t d).absent with
  | none => exact absurd mine (List.find?_eq_none.mp found c (List.mem_range.mpr hc))
  | some d => rw [only d (List.mem_range.mp (List.mem_of_find?_eq_some found)) (by simpa using List.find?_some found)]

theorem State.failSelfTest_replaced {s : State} {t c : Nat} (hc : c < 128) (h8 : s.phys t c % 17 ≠ 8) (hp : s.phys t c ≠ 17 * gridRow c + 8)
    (hs : s.spare t (gridRow c) = 0xFF) (hl : 17 * gridRow c + 8 ∉ (s.tower t).lostPos)
    (ha : ∀ d, d < 128 → gridRow d = gridRow c → (s.clu t d).absent = false) :
    ((s.failSelfTest t c).clu t c).absent = false ∧ (s.failSelfTest t c).spare t (gridRow c) = gridCol c := by
  rw [State.failSelfTest_eq, if_neg h8, State.rowLost_loseTested hc hp hs hl ha]
  exact ((s.loseTested t c).standInHot_keeps t c).2

theorem clusterSelfTest_eq (s : State) (t : Fin 4) (row : Fin 8) (col : Fin 17) (pass : Bool) {c : Nat} (h : s.logical t (17 * row + col) = some c) :
    exec (.clusterSelfTest t row col pass) s =
      if (!s.powered t) = true ∨ (s.clu t c).dom ≠ .waking ∨ (s.clu t c).selfTested = true then .next s
      else if pass = true then .next (s.modClu t c fun x => { x with selfTested := true }) else .next (s.failSelfTest t c).wavesEnd := by
  show execClusterSelfTest t row col pass s = _
  unfold execClusterSelfTest
  rw [h]

theorem clusterSelfTest_none {s : State} {t : Fin 4} {row : Fin 8} {col : Fin 17} (h : s.logical t (17 * row + col) = none) (pass : Bool) :
    exec (.clusterSelfTest t row col pass) s = .next s := by
  show execClusterSelfTest t row col pass s = _
  unfold execClusterSelfTest
  rw [h]

theorem clusterSelfTest_spec {s : State} {t : Fin 4} {row : Fin 8} {col : Fin 17} {c : Nat} (h : s.logical t (17 * row + col) = some c)
    (hu : s.powered t = true) (hd : (s.clu t c).dom = .waking) (hn : (s.clu t c).selfTested = false) :
    exec (.clusterSelfTest t row col true) s = .next (s.modClu t c fun y => { y with selfTested := true }) ∧
    ∃ u, exec (.clusterSelfTest t row col false) s = .next u ∧ (s.spare t row ≠ 8 → 17 * row.val + col.val ∈ (u.tower t).lostPos) ∧
      (c < 128 → gridRow c = row.val → col.val ≠ 8 → s.spare t row ≠ 0xFF → (u.clu t c).absent = true ∧ (u.clu t c).dom = .lost) ∧
      (c < 128 → gridRow c = row.val → col.val ≠ 8 → s.spare t row = 0xFF → 17 * row.val + 8 ∉ (s.tower t).lostPos →
        (∀ d, d < 128 → gridRow d = row.val → (s.clu t d).absent = false) → (u.clu t c).absent = false ∧ u.spare t row = gridCol c) := by
  have tested : ¬ ((!s.powered t) = true ∨ (s.clu t c).dom ≠ .waking ∨ (s.clu t c).selfTested = true) := by simp [hu, hd, hn]
  have waves := (s.failSelfTest t c).wavesEnd_sansWaves
  have tower := keeps_of (fun x => x.tower t) waves
  have clu := keeps_of (fun x => x.clu t c) waves
  have spare := keeps_of (fun x => x.spare t row) waves
  have place (h8 : col.val ≠ 8 ∨ s.spare t row ≠ 8) := State.phys_of_logical col.isLt h row.isLt h8
  refine ⟨by rw [clusterSelfTest_eq s t row col true h, if_neg tested, if_pos rfl], (s.failSelfTest t c).wavesEnd,
    by rw [clusterSelfTest_eq s t row col false h, if_neg tested, if_neg Bool.false_ne_true], fun h8 => ?_, fun hc _ h8 hs => ?_,
    fun hc hr h8 hs hl ha => ?_⟩
  · rw [tower, ← (place (.inr h8)).2]
    exact s.failSelfTest_lostPos t c
  · obtain ⟨grow, phys⟩ := place (.inl h8)
    rw [clu]
    exact State.failSelfTest_absent (by omega) (by rwa [grow])
  · obtain ⟨grow, phys⟩ := place (.inl h8)
    rw [clu, spare]
    rw [← grow] at hs hl ha ⊢
    exact State.failSelfTest_replaced hc (by omega) (by omega) hs hl ha

/-! ### READY (R42, R427, R428) -/

/-- The machine but for its health, its queues, its measurements, its root and the resets it waits for. -/
def State.sansReady (s : State) : State :=
  { s with
    queues := [], free := 0, out := []
    mod := { s.sansHealth.mod with meas := [], rootId := none, rootDes := false, rootHops := 0, isRoot := false, parent := none, waiting := [] } }

/-- The towers' stamps aligned to the lead's (R42). -/
def State.alignStamps (s : State) (l : Tower) : State :=
  (List.range 4).foldl (fun (s : State) t => s.modTower t fun w => { w with stamp := l.stamp, frac := l.frac, rate := l.rate, aligned := true }) s

theorem State.alignStamps_tower (s : State) (l : Tower) {t : Nat} (h : t < 4) :
    ((s.alignStamps l).tower t).stamp = l.stamp ∧ ((s.alignStamps l).tower t).aligned = true := by
  obtain ⟨x, -, after⟩ := foldl_seen_once
    (fun (s : State) t => s.modTower t fun w => { w with stamp := l.stamp, frac := l.frac, rate := l.rate, aligned := true }) (fun y => y.tower t) (fun y b hb => y.tower_modTower_other hb.symm _) List.nodup_range (List.mem_range.mpr h) s
  have own : (s.alignStamps l).tower t = { x.tower t with stamp := l.stamp, frac := l.frac, rate := l.rate, aligned := true } :=
    after.trans (x.tower_modTower t fun w => { w with stamp := l.stamp, frac := l.frac, rate := l.rate, aligned := true })
  rw [own]
  exact ⟨rfl, rfl⟩

theorem State.alignStamps_keeps (s : State) (l : Tower) : (s.alignStamps l).mod = s.mod ∧ (s.alignStamps l).mem = s.mem :=
  ⟨foldl_keeps State.mod (f := fun (s : State) t => s.modTower t fun w => { w with stamp := l.stamp, frac := l.frac, rate := l.rate, aligned := true })
      (fun _ _ => rfl) _ s,
    foldl_keeps State.mem (f := fun (s : State) t => s.modTower t fun w => { w with stamp := l.stamp, frac := l.frac, rate := l.rate, aligned := true })
      (fun _ _ => rfl) _ s⟩

/-- The module is READY, and nothing waits for bring-up any more. -/
def State.markReady (s : State) : State :=
  s.modMod fun m => { m with ready := true, phase := 8, warm := false, bootMs := (m.aonStamp - m.bootStart) / 200000 }

/-- READY is logged, and health is computed, recorded and measured. -/
def State.tellReady (s : State) : State :=
  let s3 := ((s.logEvent 0x0002 0 s.mod.lead [s.mod.bootMs, s.mod.test]).rehealth).writeInventory
  ((s3.extend 9 s3.inventory.bytes).electRoot).finishReset 5 0

theorem State.tellReady_sansReady (s : State) : s.tellReady.sansReady = s.sansReady := by
  unfold State.tellReady
  dsimp only
  generalize h3 : ((s.logEvent 0x0002 0 s.mod.lead [s.mod.bootMs, s.mod.test]).rehealth).writeInventory = s3
  have told : s3.sansHealth = s.sansHealth :=
    h3 ▸ (State.writeInventory_sansHealth _).trans ((State.rehealth_sansHealth _).trans (State.logEvent_sansHealth _ _ _ _ _))
  have ended (x : State) : (x.finishReset 5 0).sansReady = x.sansReady :=
    (keeps_of State.sansReady (State.arrived_sansQueues _ (resetWait 5 0))).trans rfl
  have elected (x : State) : x.electRoot.sansReady = x.sansReady := by
    unfold State.electRoot
    generalize List.foldl _ _ _ = best
    cases best <;> rfl
  have measured (x : State) (d : List Byte) : (x.extend 9 d).sansReady = x.sansReady := rfl
  exact (ended _).trans ((elected _).trans ((measured _ _).trans (keeps_of State.sansReady told)))

/-- The event of READY is in the log. -/
theorem State.tellReady_log (s : State) : ∃ e ∈ s.tellReady.mod.log, e.code = 0x0002 := by
  unfold State.tellReady
  dsimp only
  have logged := (s.logEvent_newest 0x0002 0 s.mod.lead [s.mod.bootMs, s.mod.test]).rehealth (by omega)
  generalize (s.logEvent 0x0002 0 s.mod.lead [s.mod.bootMs, s.mod.test]).rehealth = s2 at logged
  have recorded := logged.of_log s2.writeInventory_log.1
  generalize s2.writeInventory = s3 at recorded
  have elected (x : State) : x.electRoot.mod.log = x.mod.log := by
    unfold State.electRoot
    generalize List.foldl _ _ _ = best
    cases best <;> rfl
  have ended (x : State) : (x.finishReset 5 0).mod.log = x.mod.log := keeps_of (fun y => y.mod.log) (State.arrived_sansQueues _ (resetWait 5 0))
  refine ⟨_, (recorded.of_log ?_).mem, rfl⟩
  exact (ended _).trans (elected _)

theorem State.finishReset_waiting (s : State) (scope target : Nat) (w : Nat × Nat × Nat) (h : w ∈ (s.finishReset scope target).mod.waiting) :
    ¬ (w.1 = scope ∧ w.2.1 = target) := by
  have kept : (s.finishReset scope target).mod.waiting = s.mod.waiting.filter fun w => !(w.1 = scope && w.2.1 = target) :=
    keeps_of (fun y => y.mod.waiting) (State.arrived_sansQueues _ (resetWait scope target))
  rw [kept, List.mem_filter] at h
  rw [not_and_or]
  simpa using h.2

theorem ready_eq (s : State) (hp : s.mod.phase = 7) (hs : s.portsSettled = true) :
    exec .ready s = .next (s.alignStamps (s.tower s.mod.lead)).markReady.tellReady := if_neg (by simp [hp, hs])

theorem ready_spec (s : State) (hp : s.mod.phase = 7) (hs : s.portsSettled = true) :
    ∃ u, exec .ready s = .next u ∧ u.mod.ready = true ∧ u.mod.phase = 8 ∧
    u.mod.warm = false ∧ u.mod.bootMs = (s.mod.aonStamp - s.mod.bootStart) / 200000 ∧ u.mem = s.mem ∧
    (∀ x, x < 4 → (u.tower x).stamp = (s.tower s.mod.lead).stamp ∧ (u.tower x).aligned = true) ∧
    (∃ e ∈ u.mod.log, e.code = 0x0002) ∧ ∀ w ∈ u.mod.waiting, ¬ (w.1 = 5 ∧ w.2.1 = 0) := by
  have aligned := fun x => s.alignStamps_tower (s.tower s.mod.lead) (t := x)
  obtain ⟨mod, mem⟩ := s.alignStamps_keeps (s.tower s.mod.lead)
  rw [ready_eq s hp hs]
  generalize s.alignStamps (s.tower s.mod.lead) = s1 at aligned mod mem
  have told := s1.markReady.tellReady_sansReady
  refine ⟨_, rfl, keeps_of (fun x => x.mod.ready) told, keeps_of (fun x => x.mod.phase) told, keeps_of (fun x => x.mod.warm) told,
    (keeps_of (fun x => x.mod.bootMs) told).trans (by rw [← mod]; rfl), (keeps_of State.mem told).trans mem, fun x hx => ?_,
    s1.markReady.tellReady_log, fun w hw => State.finishReset_waiting _ 5 0 w hw⟩
  rw [keeps_of (fun y => y.tower x) told]
  exact aligned x hx

/-! ### Correctable errors by the hour (R437) -/

theorem ceTrendWindow_spec (s : State) (h : s.mod.ready = true) : ∃ u, exec .ceTrendWindow s = .next u ∧ u.mod.ceLast = s.mod.ceNow ∧ u.mod.ceNow = 0 ∧
    u.mem = s.mem ∧ u.mod.ceOver = (if s.mod.ceThreshold < s.mod.ceNow then min 255 (s.mod.ceOver + 1) else 0) ∧
    (s.mod.ceWindows ≤ u.mod.ceOver → u.mod.sticky.getLsbD 5 = true) ∧ (u.mod.ceOver < s.mod.ceWindows → u.mod.sticky = s.mod.sticky) := by
  let runs := if s.mod.ceThreshold < s.mod.ceNow then min 255 (s.mod.ceOver + 1) else 0
  let s1 := s.modMod fun m => { m with ceLast := s.mod.ceNow, ceOver := runs, ceNow := 0 }
  have run : exec .ceTrendWindow s = .next (if s.mod.ceWindows ≤ runs ∧ s.mod.sticky.getLsbD 5 = false
      then (s1.logEvent 0x0026 1 s1.mod.lead [s.mod.ceNow]).trigger 5 else s1) := if_neg (by simp [h])
  rw [run]
  by_cases hc : s.mod.ceWindows ≤ runs ∧ s.mod.sticky.getLsbD 5 = false
  · rw [if_pos hc]
    have logged := s1.logEvent_sticky 0x0026 1 s1.mod.lead [s.mod.ceNow]
    have frame := (State.trigger_sansHealth (s1.logEvent 0x0026 1 s1.mod.lead [s.mod.ceNow]) 5).trans
      (s1.logEvent_sansHealth 0x0026 1 s1.mod.lead [s.mod.ceNow])
    generalize s1.logEvent 0x0026 1 s1.mod.lead [s.mod.ceNow] = s2 at logged frame
    have count : (s2.trigger 5).mod.ceOver = runs := keeps_of (fun x => x.mod.ceOver) frame
    have raised : (s2.trigger 5).mod.sticky = s2.mod.sticky ||| (1#14 <<< 5) :=
      State.rehealth_sticky (s2.modMod fun m => { m with sticky := m.sticky ||| (1#14 <<< 5) })
    refine ⟨_, rfl, keeps_of (fun x => x.mod.ceLast) frame, keeps_of (fun x => x.mod.ceNow) frame, keeps_of (s := s1) State.mem frame, count,
      fun _ => ?_, fun hlt => ?_⟩
    · rw [raised, BitVec.getLsbD_or]
      exact Bool.or_eq_true_iff.mpr (.inr (by decide))
    · rw [count] at hlt
      exact absurd hc.1 (Nat.not_le.mpr hlt)
  · rw [if_neg hc]
    exact ⟨_, rfl, rfl, rfl, rfl, rfl, fun hle => eq_true_of_ne_false fun h5 => hc ⟨hle, h5⟩, fun _ => rfl⟩

end Sys2Proof.Machine

open Sys2Proof Sys2Proof.Machine Sys2Proof.Claims

/-- Settles O53, command by command. -/
theorem bringUpReachesReady : Obligations.BringUpReachesReady := by
  intro s f failed t row col pass
  dsimp only
  refine ⟨fun h => if_pos h, trainingComplete_spec s failed, fun h => if_pos h, memoryTest_spec s f, softRepair_idle s, softRepair_spec s f,
    fun h => clusterSelfTest_none h pass, fun c h => ⟨fun idle => ?_, fun on fence hd hn =>
      clusterSelfTest_spec h ((s.powered_iff t).mpr ⟨on, fence⟩) hd hn⟩, fun h => if_pos (by simpa using h), ready_spec s,
    fun h => if_pos (by simp [h]), ceTrendWindow_spec s⟩
  rw [clusterSelfTest_eq s t row col pass h, if_pos (.inr idle)]

end

section
/-! PROOF. SB_PWR_EN is the baseboard's alone (R31): whatever a stopped command or its completion entry writes, its level stays. -/

namespace Sys2Proof.Machine

open Sys2Proof.Claims

theorem State.pwrEn_of_core {s u : State} (h : u.core = s.core) : u.mod.pwrEn = s.mod.pwrEn :=
  keeps_by (fun x => x.1.mod.pwrEn) (fun x => x.mod.pwrEn) h

theorem State.pwrEn_ite {c : Prop} [Decidable c] {a b s : State} (ha : a.mod.pwrEn = s.mod.pwrEn) (hb : b.mod.pwrEn = s.mod.pwrEn) :
    (if c then a else b).mod.pwrEn = s.mod.pwrEn := by
  split
  · exact ha
  · exact hb

/-! ### Registers -/

theorem State.tallyWrite_pwrEn (s : State) (t c n : Nat) (a : TallyWrite) : (s.tallyWrite t c n a).mod.pwrEn = s.mod.pwrEn := by
  cases a <;> rfl

theorem State.requestCommit_pwrEn (s : State) (r : RegName) (t u : Nat) : (s.requestCommit r t u).mod.pwrEn = s.mod.pwrEn :=
  foldl_keeps (fun x : State => x.mod.pwrEn) (f := fun (s : State) l => s.lockOne l) (fun _ _ => rfl) (commitSet r t u) s

theorem State.stgRange_pwrEn (s : State) (f : Fld) (lo hi t i : Nat) : (s.stgRange f lo hi t i).mod.pwrEn = s.mod.pwrEn :=
  State.pwrEn_ite rfl rfl

theorem State.saneQueue_pwrEn (s : State) (t i : Nat) : (s.saneQueue t i).mod.pwrEn = s.mod.pwrEn := by
  have sane := ((s.stgRange cmdQcfgSizeLog2 4 16 t i).stgRange_pwrEn cmdQcfgCsizeLog2 4 16 t i).trans (s.stgRange_pwrEn cmdQcfgSizeLog2 4 16 t i)
  unfold State.saneQueue
  dsimp only
  exact State.pwrEn_ite (foldl_keeps (fun x : State => x.mod.pwrEn) (f := fun (x : State) l => x.setStg l (x.reg l)) (fun _ _ => rfl) _ s)
    (State.pwrEn_ite sane sane)

theorem State.saneCmd_pwrEn (s : State) (t : Nat) : (s.saneCmd t).mod.pwrEn = s.mod.pwrEn := by
  have queues := foldl_keeps (fun x : State => x.mod.pwrEn) (f := fun (s : State) i => s.saneQueue t i) (fun x i => x.saneQueue_pwrEn t i)
    (List.range 256) s
  unfold State.saneCmd
  rw [State.stgRange_pwrEn, State.stgRange_pwrEn, State.stgRange_pwrEn, State.stgRange_pwrEn]
  exact queues

theorem CvuOnly.mod {s u : State} (h : CvuOnly s u) : u.mod = s.mod := by
  have same := congrArg State.mod h
  exact same

theorem State.cvuCommitAll_pwrEn (s : State) (t u : Nat) : (s.cvuCommitAll t u).mod.pwrEn = s.mod.pwrEn :=
  congrArg Module.pwrEn (s.cvuCommitAll_only t u).mod

theorem State.doorbell_pwrEn (s : State) (q : Nat) (tail : W32) : (s.doorbell q tail).mod.pwrEn = s.mod.pwrEn :=
  State.pwrEn_ite rfl (State.pwrEn_ite rfl rfl)

theorem State.putChead_pwrEn (s : State) (q : Nat) (v : W32) : (s.putChead q v).mod.pwrEn = s.mod.pwrEn := State.pwrEn_ite rfl rfl

theorem State.writeCodes_pwrEn (s : State) (l : Loc) (v mask : W64) : (s.writeCodes l v mask).mod.pwrEn = s.mod.pwrEn := by
  have staged (c : Prop) [Decidable c] (w : W64) : (if c then s else s.setStg l w).mod.pwrEn = s.mod.pwrEn := State.pwrEn_ite rfl rfl
  exact State.pwrEn_ite (staged _ _) (staged _ _)

theorem State.regWrite_pwrEn (s : State) (l : Loc) (v mask : W64) : (s.regWrite l v mask).mod.pwrEn = s.mod.pwrEn := by
  have latch : (s.unlatch l.key).mod.pwrEn = s.mod.pwrEn := rfl
  have commit (r : RegName) (u : Nat) := ((s.unlatch l.key).requestCommit_pwrEn r l.t u).trans latch
  unfold State.regWrite
  dsimp only
  split
  · exact State.tallyWrite_pwrEn _ _ _ _ _
  · exact State.pwrEn_ite latch (State.tallyWrite_pwrEn _ _ _ _ _)
  · exact State.pwrEn_ite (commit _ _) latch
  · exact State.pwrEn_ite (commit _ _) latch
  · exact State.pwrEn_ite (commit _ _) latch
  · exact State.pwrEn_ite (commit _ _) latch
  · exact State.pwrEn_ite (commit _ _) latch
  · exact State.pwrEn_ite ((State.requestCommit_pwrEn _ _ _ _).trans (State.saneCmd_pwrEn _ _)) latch
  · exact State.pwrEn_ite (commit _ _) latch
  · exact State.pwrEn_ite (State.cvuCommitAll_pwrEn _ _ _) latch
  · exact latch
  · exact State.pwrEn_ite latch (State.doorbell_pwrEn _ _ _)
  · exact State.pwrEn_ite latch (State.putChead_pwrEn _ _ _)
  · exact State.pwrEn_ite latch latch
  · exact State.pwrEn_ite latch latch
  · exact State.pwrEn_ite latch latch
  · exact latch
  · exact State.pwrEn_ite latch (((s.unlatch l.key).writeCodes_pwrEn l v mask).trans latch)

theorem State.mmioWrite_pwrEn (s : State) (t off : Nat) (bs : List (Nat × Byte)) : (s.mmioWrite t off bs).mod.pwrEn = s.mod.pwrEn := by
  unfold State.mmioWrite
  exact foldl_keeps (fun x : State => x.mod.pwrEn) (fun _ _ => State.regWrite_pwrEn _ _ _ _) _ s

/-! ### Bytes written at an address -/

theorem State.writePiece_pwrEn (s : State) (g : Agent) (ga : Nat) (bs : List (Nat × BitVec 9)) (n : Nat) :
    (s.writePiece g ga bs n).s.mod.pwrEn = s.mod.pwrEn := by
  unfold State.writePiece
  split
  · exact State.pwrEn_of_core (State.panWrite_core _ _ _ _ _)
  · exact State.pwrEn_of_core ((State.rowWrite_core _ _ _ _ _ _).trans (State.wakeDie_core _ _ _ _))
  · exact State.pwrEn_of_core (State.shelfPuts_core _ _ _ _)
  · exact State.mmioWrite_pwrEn _ _ _ _
  · rfl
  · rfl
  · rfl
  · rfl

theorem State.writeAt_pwrEn (f : Nat) (s : State) (g : Agent) (ga : Nat) (bs : List (Option (BitVec 9))) :
    (State.writeAt f s g ga bs).s.mod.pwrEn = s.mod.pwrEn := by
  induction f generalizing s ga bs with
  | zero => rfl
  | succ f ih =>
    have piece (c : Bool) (part : List (Nat × BitVec 9)) (k : Nat) :
        (if c = true then (⟨0, ga, s⟩ : Put) else s.writePiece g ga part k).s.mod.pwrEn = s.mod.pwrEn := by
      split
      · rfl
      · exact s.writePiece_pwrEn g ga part k
    unfold State.writeAt
    dsimp only
    generalize hr : (if List.isEmpty _ = true then (⟨0, ga, s⟩ : Put) else s.writePiece g ga _ _) = r
    have own : r.s.mod.pwrEn = s.mod.pwrEn := hr ▸ piece _ _ _
    split
    · rfl
    · split <;> exact (ih _ _ _).trans own

theorem State.gwriteM_pwrEn (s : State) (g : Agent) (a : W64) (bs : List (Option (BitVec 9))) : (s.gwriteM g a bs).s.mod.pwrEn = s.mod.pwrEn :=
  State.writeAt_pwrEn _ s g _ bs

theorem State.cwriteB_pwrEn (s : State) (g : Agent) (a : W64) (bs : List Byte) : (s.cwriteB g a bs).s.mod.pwrEn = s.mod.pwrEn := by
  unfold State.cwriteB State.cwriteM
  split
  · split <;> rfl
  · dsimp only
    split <;> exact s.gwriteM_pwrEn g a _

/-! ### Packets and remote accesses -/

theorem State.sendPkt_pwrEn (s : State) (pkt : LinkPkt) : (s.sendPkt pkt).2.mod.pwrEn = s.mod.pwrEn := by
  unfold State.sendPkt
  split
  · rfl
  · split
    · rfl
    · dsimp only
      split <;> rfl

theorem State.launchReq_pwrEn (s : State) (r : Req) : (s.launchReq r).mod.pwrEn = s.mod.pwrEn := by
  unfold State.launchReq
  dsimp only
  split
  · rfl
  case h_2 d _ =>
    have sent := s.sendPkt_pwrEn (s.reqPkt r d)
    split <;> (rename_i hp; rw [hp] at sent; exact sent)

theorem State.issueRemote_pwrEn (s : State) (g : Agent) : (s.issueRemote g).2.mod.pwrEn = s.mod.pwrEn := by
  unfold State.issueRemote
  dsimp only
  have loads (z : State) := foldl_keeps (fun x : State => x.mod.pwrEn) (f := fun (x : State) (e : Nat × Nat) =>
    if x.reqs.any fun r => r.owner = g.owner && r.addr.toNat = e.1 then x else (x.launchReq (x.mkReq e.1 (.load e.2) g.cls g.owner g.t)).newId)
    (fun x e => State.pwrEn_ite rfl (x.launchReq_pwrEn _)) s.needs z
  have stores (z : State) := foldl_keeps (fun x : State => x.mod.pwrEn) (f := fun (x : State) (e : Nat × List (Option (BitVec 9))) =>
    (x.launchReq (x.mkReq e.1 (.store e.2) g.cls g.owner g.t)).newId) (fun x e => x.launchReq_pwrEn _) s.sends z
  exact (stores _).trans (loads _)

/-! ### Teams that are stopped -/

theorem State.lineBack_pwrEn (s : State) (t c launch : Nat) (l : CLine) : (s.lineBack t c launch l).mod.pwrEn = s.mod.pwrEn := by
  unfold State.lineBack
  dsimp only
  split
  · rfl
  · split
    · exact State.launchReq_pwrEn _ _
    · rfl
    · rfl
    · rfl
    · exact s.gwriteM_pwrEn _ _ _

theorem State.endTeam_pwrEn (s : State) (t c : Nat) : (s.endTeam t c).mod.pwrEn = s.mod.pwrEn := by
  unfold State.endTeam State.flushCache
  split
  · rfl
  case h_2 tm _ => exact foldl_keeps (fun x : State => x.mod.pwrEn) (fun x l => x.lineBack_pwrEn t c tm.launch l) (s.clu t c).cache s

/-- A cluster as the teams of a launch stop: its saved teams of that launch go, and so does its team. -/
def State.stopTeam (s : State) (id : Nat) (e : Nat × Cluster) : State :=
  let t := e.1 / 128
  let c := e.1 % 128
  let s0 := s.modClu t c fun x => { x with saved := x.saved.filter fun v => v.team.launch ≠ id }
  match e.2.team with
  | some tm =>
    if tm.launch = id then
      let s1 := (List.range 64).foldl (fun s k => s.clearBunch (bunchKey t c (k / 16) (k % 16))) s0
      let s2 := { s1 with reqs := s1.reqs.filter fun r => match r.owner with | .bunch k => k / 64 ≠ cluKey t c | _ => true }
      s2.endTeam t c
    else s0
  | none => s0

theorem State.stopTeams_eq (s : State) (id : Nat) : s.stopTeams id = s.clusters.foldl (fun x e => x.stopTeam id e) s := rfl

theorem State.clearBunches_pwrEn (s : State) (key : Nat → Nat) (l : List Nat) :
    (l.foldl (fun (s : State) k => s.clearBunch (key k)) s).mod.pwrEn = s.mod.pwrEn :=
  foldl_keeps (fun x : State => x.mod.pwrEn) (f := fun (s : State) k => s.clearBunch (key k)) (fun _ _ => rfl) l s

theorem State.stopTeam_pwrEn (s : State) (id : Nat) (e : Nat × Cluster) : (s.stopTeam id e).mod.pwrEn = s.mod.pwrEn := by
  have forgotten (f : Cluster → Cluster) : (s.modClu (e.1 / 128) (e.1 % 128) f).mod.pwrEn = s.mod.pwrEn := rfl
  have filtered (x : State) (rs : List Req) : ({ x with reqs := rs } : State).mod.pwrEn = x.mod.pwrEn := rfl
  unfold State.stopTeam
  dsimp only
  generalize hx : s.modClu (e.1 / 128) (e.1 % 128) _ = x
  have own : x.mod.pwrEn = s.mod.pwrEn := hx ▸ forgotten _
  split
  · split
    · have cleared := x.clearBunches_pwrEn (fun k => bunchKey (e.1 / 128) (e.1 % 128) (k / 16) (k % 16)) (List.range 64)
      generalize List.foldl _ x (List.range 64) = y at cleared
      exact (State.endTeam_pwrEn _ _ _).trans ((filtered _ _).trans (cleared.trans own))
    · exact own
  · exact own

theorem State.stopTeams_pwrEn (s : State) (id : Nat) : (s.stopTeams id).mod.pwrEn = s.mod.pwrEn := by
  rw [State.stopTeams_eq]
  exact foldl_keeps (fun x : State => x.mod.pwrEn) (f := fun x e => x.stopTeam id e) (fun x e => x.stopTeam_pwrEn id e) s.clusters s

theorem State.releaseCmd_pwrEn (s : State) (id : Nat) : (s.releaseCmd id).mod.pwrEn = s.mod.pwrEn :=
  foldl_keeps (fun x : State => x.mod.pwrEn) (f := fun (s : State) t => s.release t (cmdReq id)) (fun _ _ => rfl) (List.range 4) s

theorem State.complete_pwrEn (s : State) (id st detail clamp : Nat) : (s.complete id st detail clamp).mod.pwrEn = s.mod.pwrEn :=
  keeps_of (fun x => x.mod.pwrEn) (s.complete_sansQueues id st detail clamp)

theorem State.stopPkt_pwrEn (s : State) (q id st detail : Nat) : (s.stopPkt q id st detail).mod.pwrEn = s.mod.pwrEn :=
  (State.releaseCmd_pwrEn _ _).trans ((State.complete_pwrEn _ _ _ _ _).trans rfl)

/-- A started packet of a queue completes with RESOURCE_LOST. -/
def State.cutPkt (s : State) (e : Nat × Pkt) : State := ((s.stopTeams e.2.id).dropLaunch e.2.id).stopPkt e.1 e.2.id stLost 0

/-- The queues of a tower, whose next packets are accepted anew. -/
def State.disown (s : State) (t : Nat) : State :=
  { s with
    queues := s.queues.map fun q =>
      (q.1, if qTower q.1 = t then { q.2 with next := q.2.next.map fun (k : Pkt) => { k with accepted := false } } else q.2) }

/-- The started packets of a tower's queues. -/
def State.startedOf (s : State) (t : Nat) : List (Nat × Pkt) :=
  (s.queues.filter fun q => qTower q.1 = t).flatMap fun q => q.2.running.map fun k => (q.1, k)

theorem State.cutQueues_eq (s : State) (t : Nat) (resets : Bool) :
    s.cutQueues t resets = ((s.startedOf t).filter fun e => resets || hOpcode e.2.words ≠ 0x60).foldl State.cutPkt (s.disown t) := rfl

theorem State.cutPkt_pwrEn (s : State) (e : Nat × Pkt) : (s.cutPkt e).mod.pwrEn = s.mod.pwrEn := by
  have dropped (x : State) : (x.dropLaunch e.2.id).mod.pwrEn = x.mod.pwrEn := rfl
  exact (State.stopPkt_pwrEn _ _ _ _ _).trans ((dropped _).trans (s.stopTeams_pwrEn e.2.id))

theorem State.cutQueues_pwrEn (s : State) (t : Nat) (resets : Bool) : (s.cutQueues t resets).mod.pwrEn = s.mod.pwrEn := by
  rw [State.cutQueues_eq]
  exact foldl_keeps (fun x : State => x.mod.pwrEn) (fun x e => x.cutPkt_pwrEn e) _ (s.disown t)

/-! ### Completion entries -/

theorem State.vendorEntry_pwrEn (s : State) (r : Reply) (bs : List Byte) : (s.vendorEntry r bs).mod.pwrEn = s.mod.pwrEn := by
  unfold State.vendorEntry State.vendorDone
  split
  · rfl
  · split <;> rfl

theorem State.raise_pwrEn (s : State) (q : Nat) : (s.raise q).mod.pwrEn = s.mod.pwrEn := by
  unfold State.raise
  split <;> rfl

theorem State.putEntry_pwrEn (s : State) (q : Nat) (c : Compl) : (s.putEntry q c).mod.pwrEn = s.mod.pwrEn := by
  have written (g : Agent) (a : W64) (bs : List Byte) : (if (s.cwriteB g a bs).st = 0 then ((s.cwriteB g a bs).s.issueRemote g).2 else s).mod.pwrEn =
      s.mod.pwrEn := State.pwrEn_ite ((State.issueRemote_pwrEn _ _).trans (State.cwriteB_pwrEn _ _ _ _)) rfl
  unfold State.putEntry
  exact State.pwrEn_ite ((State.raise_pwrEn _ _).trans (written _ _ _)) (written _ _ _)

theorem State.writeDone_pwrEn (s : State) (q : Nat) : (s.writeDone q).mod.pwrEn = s.mod.pwrEn := by
  unfold State.writeDone
  dsimp only
  split
  · rfl
  case h_2 c rest _ =>
    have taken : (s.modQueue q fun z => { z with done := rest }).mod.pwrEn = s.mod.pwrEn := rfl
    generalize s.modQueue q _ = s1 at taken
    split
    · split
      · exact (State.vendorEntry_pwrEn _ _ _).trans taken
      · exact taken
    · split
      · exact State.pwrEn_ite ((State.putEntry_pwrEn _ _ _).trans taken) taken
      · split
        · rfl
        · have replied : ∀ r : Option Reply, (match r with | some r => s1.sendCmp r c | none => s1).mod.pwrEn = s.mod.pwrEn
            | some r => (s1.sendPkt_pwrEn _).trans taken
            | none => taken
          exact State.pwrEn_ite (replied _) ((State.putEntry_pwrEn _ _ _).trans (replied _))

theorem State.writeAll_pwrEn (s : State) : s.writeAll.mod.pwrEn = s.mod.pwrEn := by
  unfold State.writeAll
  exact foldl_keeps (fun x : State => x.mod.pwrEn)
    (fun x q => foldl_keeps (fun x : State => x.mod.pwrEn) (f := fun (x : State) (_ : Nat) => x.writeDone q) (fun y _ => y.writeDone_pwrEn q) _ x) _ s

end Sys2Proof.Machine
end

section
/-! PROOF. The 12 V input and the rails (R31, R34, R36, R409, R410, R463). -/

namespace Sys2Proof.Machine

open Sys2Proof.Claims

theorem State.tower_of_towers {s u : State} (h : u.towers = s.towers) (t : Nat) : u.tower t = s.tower t := congrArg (SMap.get Tower.init · t) h

/-! ### The rails go off (R410, R463) -/

/-- The module right after its rails are switched off, before its default budgets. -/
def State.coldRails (s : State) : State :=
  let m := s.mod
  let keep : Module :=
    { Module.init with
      variant := m.variant, straps := m.straps, pwrEn := m.pwrEn, pwrGood := false, alertN := m.alertN, thermtripN := m.thermtripN
      perstN := m.perstN, railsOn := false, overvolt := m.overvolt, inputOk := m.inputOk, vinMv := m.vinMv, sagCount := m.sagCount
      tripped := m.tripped, aonStamp := m.aonStamp, aonTower := m.aonTower, aonUp := m.aonUp, mirrorOk := m.mirrorOk, bootCount := m.bootCount
      invA := m.invA, invB := m.invB, invCurB := m.invCurB, nor := m.nor, helper := m.helper, certs := m.certs, log := m.log
      newest := m.newest, acked := m.acked, dynAddr := m.dynAddr, eid := m.eid, ibi := m.ibi, nextId := m.nextId
      spdmLog := m.spdmLog, phase := 1 }
  { State.reset with
    pending := s.pending, free := s.free, mod := keep, mem := { State.reset.mem with host := s.mem.host }, out := s.out
    towers := (List.range 4).foldl (fun x t =>
      SMap.put Tower.init x t { Tower.init with on := false, phasesLost := (s.tower t).phasesLost }) [] }

theorem State.railsOff_eq (s : State) : s.railsOff = s.coldRails.defaultBudgets := rfl

theorem State.coldRails_tower (s : State) {t : Nat} (h : t < 4) :
    s.coldRails.tower t = { Tower.init with on := false, phasesLost := (s.tower t).phasesLost } := by
  obtain ⟨x, -, after⟩ := foldl_seen_once
    (fun (x : SMap Tower) t => SMap.put Tower.init x t { Tower.init with on := false, phasesLost := (s.tower t).phasesLost })
    (fun x => SMap.get Tower.init x t) (fun x b hb => SMap.get_put_other _ _ hb.symm) List.nodup_range (List.mem_range.mpr h) []
  exact after.trans (SMap.get_put_self _ _ _ _)

/-- What is gone when the rails are off, and what stays. -/
structure Off (s u : State) : Prop where
  stopped : u.mod.railsOn = false ∧ u.mod.pwrGood = false ∧ u.mod.ready = false
  emptied : u.clusters = [] ∧ u.mem.hbm = [] ∧ u.mem.host = s.mem.host
  kept : u.mod.nor = s.mod.nor ∧ u.mod.invA = s.mod.invA ∧ u.mod.invB = s.mod.invB
  dark : ∀ t, t < 4 → (u.tower t).on = false

theorem State.railsOff_off (s : State) : Off s s.railsOff ∧ (∀ t, t < 4 → (s.railsOff.tower t).grants = []) ∧ s.railsOff.mod.log = s.mod.log ∧
    s.railsOff.mod.overvolt = s.mod.overvolt ∧ s.railsOff.mod.pwrEn = s.mod.pwrEn := by
  have only := s.coldRails.defaultBudgets_only
  rw [State.railsOff_eq]
  generalize s.coldRails.defaultBudgets = u at only ⊢
  have mod : u.mod = s.coldRails.mod := only.seen State.mod
  have mem : u.mem = s.coldRails.mem := only.seen State.mem
  have clusters : u.clusters = s.coldRails.clusters := only.seen State.clusters
  have towers : u.towers = s.coldRails.towers := only.seen State.towers
  have tower (t : Nat) (ht : t < 4) := (State.tower_of_towers towers t).trans (s.coldRails_tower ht)
  rw [mod]
  refine ⟨⟨?_, ?_, ?_, fun t ht => congrArg Tower.on (tower t ht)⟩, fun t ht => congrArg Tower.grants (tower t ht), rfl, rfl, rfl⟩
  · rw [mod]
    exact ⟨rfl, rfl, rfl⟩
  · rw [clusters, mem]
    exact ⟨rfl, rfl, rfl⟩
  · rw [mod]
    exact ⟨rfl, rfl, rfl⟩

/-- An event leaves the records as they are. -/
theorem State.logEvent_inv (s : State) (code sev src : Nat) (d : List Nat) :
    (s.logEvent code sev src d).mod.invA = s.mod.invA ∧ (s.logEvent code sev src d).mod.invB = s.mod.invB := by
  unfold State.logEvent State.logAt
  split <;> exact ⟨rfl, rfl⟩

theorem inputOvervoltage_spec (s : State) (mv us : Nat) (hv : 13800 < mv) (hu : 100 < us) (ho : s.mod.overvolt = false) :
    ∃ u, exec (.inputOvervoltage mv us) s = .next u ∧ u.mod.overvolt = true ∧ Off s u ∧
      ∃ e ∈ u.mod.log, e.code = 0x0012 ∧ e.detail.head? = some (BitVec.ofNat 32 mv) := by
  let s1 := s.modMod fun m => { m with overvolt := true, vinMv := mv }
  have run : exec (.inputOvervoltage mv us) s = .next (s1.logEvent 0x0012 2 s.mod.lead [mv]).railsOff :=
    if_neg (not_or.mpr ⟨by omega, not_or.mpr ⟨by omega, by rw [ho]; exact Bool.false_ne_true⟩⟩)
  have logged := (s1.logEvent_newest 0x0012 2 s.mod.lead [mv]).mem
  have told := s1.logEvent_sansHealth 0x0012 2 s.mod.lead [mv]
  obtain ⟨invA, invB⟩ := s1.logEvent_inv 0x0012 2 s.mod.lead [mv]
  generalize s1.logEvent 0x0012 2 s.mod.lead [mv] = s2 at run logged told invA invB
  obtain ⟨⟨stopped, ⟨clusters, hbm, host⟩, ⟨nor, keptA, keptB⟩, dark⟩, -, log, overvolt, -⟩ := s2.railsOff_off
  have host1 : s2.mem.host = s.mem.host := keeps_of (s := s1) (fun x => x.mem.host) told
  have nor1 : s2.mod.nor = s.mod.nor := keeps_of (s := s1) (fun x => x.mod.nor) told
  have high : s2.mod.overvolt = true := keeps_of (s := s1) (fun x => x.mod.overvolt) told
  exact ⟨_, run, overvolt.trans high,
    ⟨stopped, ⟨clusters, hbm, host.trans host1⟩, ⟨nor.trans nor1, keptA.trans invA, keptB.trans invB⟩, dark⟩, _, log ▸ logged, rfl, rfl⟩

theorem State.afterCold_pwrGood (s : State) (straps : Straps) : (s.afterCold straps).mod.pwrGood = false := by
  have only : RegFileOnly (s.coldModule straps) (s.afterCold straps) := (s.coldModule straps).defaultBudgets_only
  generalize s.afterCold straps = u at only ⊢
  have mod : u.mod = (s.coldModule straps).mod := only.seen State.mod
  rw [mod]
  rfl

/-- The island without input: its log is lost, and nothing of it runs. -/
def Module.lose (m : Module) : Module := ({ m with log := [], newest := 0, aonUp := [false, false], vinMv := 0, railsOn := false } : Module).alert

theorem State.lose_off {s u : State} {straps : Straps} (h : Blank s straps u) (hp : u.mod.pwrGood = false) : Off s (u.modMod Module.lose) := by
  obtain ⟨-, ⟨clusters, -, towers, -⟩, ⟨hbm, host⟩, ⟨-, invA, invB, nor⟩, ⟨-, ready, -, -⟩, -, -⟩ := h
  exact ⟨⟨rfl, hp, ready⟩, ⟨clusters, hbm, host⟩, ⟨nor, invA, invB⟩, fun t _ => congrArg (fun x => (SMap.get Tower.init x t).on) towers⟩

theorem inputLoss_spec (s : State) :
    ∃ u, exec .inputLoss s = .next u ∧ Off s u ∧ u.mod.log = [] ∧ u.mod.newest = 0 ∧ u.mod.aonUp = [false, false] := by
  have run : exec .inputLoss s = .next ((s.afterCold s.mod.straps).modMod Module.lose) := rfl
  have off := State.lose_off (s.afterCold_blank s.mod.straps) (s.afterCold_pwrGood s.mod.straps)
  generalize s.afterCold s.mod.straps = u at off run
  exact ⟨_, run, off, rfl, rfl, rfl⟩

/-! ### Ordered stops (R409, R410) -/

theorem State.logSag_sansHealth (s : State) : s.logSag.sansHealth = s.sansHealth := by
  unfold State.logSag
  split
  · exact s.logAt_sansHealth _ _ _ _ _
  · rfl

/-- No command runs and no completion waits for its ring. -/
def Idle (s : State) : Prop := ∀ e ∈ s.queues, e.2.running = [] ∧ e.2.done = []

theorem Idle.of_queues {s u : State} (h : Idle s) (hq : u.queues = s.queues) : Idle u := by
  rwa [Idle, hq]

theorem Idle.disown {s : State} (h : Idle s) (t : Nat) : Idle (s.disown t) := by
  intro e he
  obtain ⟨q, hq, rfl⟩ := List.mem_map.mp he
  obtain ⟨running, done⟩ := h q hq
  dsimp only
  split <;> exact ⟨running, done⟩

/-- What holds of every value of a store and of its default holds of what it reads as. -/
theorem SMap.get_of_forall {α : Type} {P : α → Prop} {d : α} (hd : P d) {m : SMap α} (h : ∀ e ∈ m, P e.2) (k : Nat) : P (SMap.get d m k) := by
  induction m with
  | nil => exact hd
  | cons e m ih =>
    obtain ⟨own, rest⟩ := List.forall_mem_cons.mp h
    unfold SMap.get
    split
    · exact own
    · exact ih rest

theorem Idle.done {s : State} (h : Idle s) (q : Nat) : (s.queue q).done = [] :=
  SMap.get_of_forall (P := fun y : Queue => y.done = []) rfl (fun e he => (h e he).2) q

theorem Idle.cutQueues {s : State} (h : Idle s) (t : Nat) (resets : Bool) : s.cutQueues t resets = s.disown t := by
  have started : s.startedOf t = [] :=
    List.flatMap_eq_nil_iff.mpr fun e he => by rw [(h e (List.mem_of_mem_filter he)).1, List.map_nil]
  rw [State.cutQueues_eq, started]
  rfl

theorem Idle.writeAll {s : State} (h : Idle s) : s.writeAll = s := by
  unfold State.writeAll
  refine List.foldlRecOn _ _ (motive := fun x => x = s) rfl fun x hx q _ => ?_
  rw [hx, h.done q]
  rfl

/-- The started commands of a tower are cut short, and its grants go. -/
def State.stopTower (s : State) (t : Nat) : State := (s.cutQueues t true).modTower t fun w => { w with grants := [], grantQ := [] }

def State.stopTowers (s : State) : State := (List.range 4).foldl State.stopTower s

/-- The events of an ordered stop. -/
def State.logStop (s : State) (cause : Nat) : State := s.logSag.logEvent 0x0011 2 s.mod.lead [cause]

theorem State.orderedStop_eq {s : State} (h : s.mod.railsOn = true) (cause : Nat) :
    s.orderedStop cause = ((s.logStop cause).stopTowers).writeAll.railsOff := if_neg (by simp [h])

theorem State.stopTower_pwrEn (s : State) (t : Nat) : (s.stopTower t).mod.pwrEn = s.mod.pwrEn := by
  have cut := s.cutQueues_pwrEn t true
  unfold State.stopTower
  generalize s.cutQueues t true = x at cut ⊢
  exact cut

theorem State.stopTowers_pwrEn (s : State) : s.stopTowers.mod.pwrEn = s.mod.pwrEn :=
  foldl_keeps (fun x : State => x.mod.pwrEn) State.stopTower_pwrEn (List.range 4) s

theorem State.logStop_sansHealth (s : State) (cause : Nat) : (s.logStop cause).sansHealth = s.sansHealth :=
  (State.logEvent_sansHealth _ _ _ _ _).trans s.logSag_sansHealth

/-- With nothing to cut short, the stop tells no more than its own events. -/
theorem Idle.stopTowers {s : State} (h : Idle s) : Idle s.stopTowers ∧ s.stopTowers.mod.log = s.mod.log := by
  unfold State.stopTowers
  refine List.foldlRecOn (List.range 4) State.stopTower (motive := fun x => Idle x ∧ x.mod.log = s.mod.log) ⟨h, rfl⟩ fun x hx t _ => ?_
  obtain ⟨idle, log⟩ := hx
  unfold State.stopTower
  rw [idle.cutQueues]
  exact ⟨(idle.disown t).of_queues rfl, log⟩

theorem State.orderedStop_spec {s : State} (h : s.mod.railsOn = true) (cause : Nat) : Off (s.logStop cause).stopTowers.writeAll (s.orderedStop cause) ∧
    (∀ t, t < 4 → ((s.orderedStop cause).tower t).grants = []) ∧ (s.orderedStop cause).mod.pwrEn = s.mod.pwrEn ∧
    (Idle s → ∃ e ∈ (s.orderedStop cause).mod.log, e.code = 0x0011 ∧ e.detail.head? = some (BitVec.ofNat 32 cause)) := by
  have told := s.logStop_sansHealth cause
  have logged : ∃ e ∈ (s.logStop cause).mod.log, e.code = 0x0011 ∧ e.detail.head? = some (BitVec.ofNat 32 cause) :=
    ⟨_, (s.logSag.logEvent_newest 0x0011 2 s.mod.lead [cause]).mem, rfl, rfl⟩
  rw [State.orderedStop_eq h]
  generalize s.logStop cause = s1 at told logged
  obtain ⟨off, grants, log, -, pwrEn⟩ := s1.stopTowers.writeAll.railsOff_off
  have level : s1.mod.pwrEn = s.mod.pwrEn := keeps_of (fun x => x.mod.pwrEn) told
  refine ⟨off, grants, pwrEn.trans ((State.writeAll_pwrEn _).trans (s1.stopTowers_pwrEn.trans level)), fun idle => ?_⟩
  obtain ⟨idle1, log1⟩ := (idle.of_queues (u := s1) (keeps_of State.queues told)).stopTowers
  rwa [log, idle1.writeAll, log1]

theorem orderedStop_spec (s : State) (hs : s.mod.sagged = true) (hv : s.mod.vinMv < 9600) (hr : s.mod.railsOn = true) :
    ∃ u, exec .orderedStop s = .next u ∧ u.mod.railsOn = false ∧ u.mod.ready = false ∧
      (Idle s → ∃ e ∈ u.mod.log, e.code = 0x0011 ∧ e.detail.head? = some (BitVec.ofNat 32 1)) ∧ u.clusters = [] ∧ u.mem.hbm = [] ∧
      ∀ t, t < 4 → (u.tower t).grants = [] ∧ (u.tower t).on = false := by
  have run : exec .orderedStop s = .next (s.orderedStop 1) := congrArg Host.Outcome.next (if_pos ⟨hs, hv⟩)
  obtain ⟨⟨⟨off, -, ready⟩, ⟨clusters, hbm, -⟩, -, dark⟩, grants, -, logged⟩ := State.orderedStop_spec hr 1
  exact ⟨_, run, off, ready, logged, clusters, hbm, fun t ht => ⟨grants t ht, dark t ht⟩⟩

theorem sbPwrEnFall_spec (s : State) (he : s.mod.pwrEn = true) (hr : s.mod.railsOn = true) :
    ∃ u, exec .sbPwrEnFall s = .next u ∧ u.mod.pwrEn = false ∧ u.mod.railsOn = false ∧
      (Idle s → ∃ e ∈ u.mod.log, e.code = 0x0011 ∧ e.detail.head? = some (BitVec.ofNat 32 2)) := by
  let s1 := s.modMod fun m => { m with pwrEn := false }
  have run : exec .sbPwrEnFall s = .next (s1.orderedStop 2) := congrArg Host.Outcome.next (if_pos he)
  obtain ⟨⟨⟨off, -, -⟩, -, -, -⟩, -, pwrEn, logged⟩ := State.orderedStop_spec (s := s1) hr 2
  exact ⟨_, run, pwrEn, off, logged⟩

/-! ### Sags (R409) -/

theorem State.refillAll_rest (s : State) : { s.refillAll with towers := s.towers } = s :=
  foldl_keeps (fun x : State => { x with towers := s.towers }) (f := fun (s : State) t => s.refill t) (fun _ _ => rfl) (List.range 4) s

/-- A tower but for its reserve account. -/
def Tower.sansReserve (w : Tower) : Tower := { w with reserveMj := 0, reserveAt := 0 }

theorem State.refill_tower (s : State) (t x : Nat) : ((s.refill x).tower t).sansReserve = (s.tower t).sansReserve := by
  unfold State.refill
  dsimp only
  by_cases h : t = x
  · subst h
    rw [State.tower_modTower]
    rfl
  · rw [State.tower_modTower_other _ h]

theorem State.refillAll_tower (s : State) (t : Nat) : (s.refillAll.tower t).sansReserve = (s.tower t).sansReserve :=
  foldl_keeps (fun x : State => (x.tower t).sansReserve) (f := fun (s : State) t => s.refill t) (fun y x => y.refill_tower t x) (List.range 4) s

/-- The input has fallen: the reserve accounts are brought up to date, and the sag begins. -/
def State.beginSag (s : State) (mv : Nat) : State := s.refillAll.modMod fun m =>
  { m with sagged := true, sagStart := s.stamp s.mod.lead, sagMin := mv, sagCount := m.sagCount + 1, vinMv := mv, inputOk := false }

theorem State.beginSag_mod (s : State) (mv : Nat) : (s.beginSag mv).mod =
    { s.mod with sagged := true, sagStart := s.stamp s.mod.lead, sagMin := mv, sagCount := s.mod.sagCount + 1, vinMv := mv, inputOk := false } := by
  have rest : s.refillAll.mod = s.mod := keeps_of (view := fun x => { x with towers := s.towers }) State.mod s.refillAll_rest
  unfold State.beginSag
  rw [State.modMod_mod, rest]

theorem State.refillAll_keeps (s : State) : s.refillAll.mem = s.mem ∧ s.refillAll.regs = s.regs ∧ s.refillAll.clusters = s.clusters :=
  ⟨keeps_of (view := fun x => { x with towers := s.towers }) State.mem s.refillAll_rest,
    keeps_of (view := fun x => { x with towers := s.towers }) State.regs s.refillAll_rest,
    keeps_of (view := fun x => { x with towers := s.towers }) State.clusters s.refillAll_rest⟩

theorem State.beginSag_tower (s : State) (mv t : Nat) : ((s.beginSag mv).tower t).sansReserve = (s.tower t).sansReserve := by
  have own := s.refillAll_tower t
  unfold State.beginSag
  rw [State.tower, State.modMod_towers]
  exact own

theorem State.beginSag_keeps (s : State) (mv : Nat) :
    (s.beginSag mv).mem = s.mem ∧ (s.beginSag mv).regs = s.regs ∧ (s.beginSag mv).clusters = s.clusters := by
  have kept := s.refillAll_keeps
  unfold State.beginSag
  rw [State.modMod_mem, State.modMod_regs, State.modMod_clusters]
  exact kept

/-- A tower's event bit and count of sags. -/
def State.flagSag (s : State) (t : Nat) : State := (s.fset pwrStatusSagEvent 1 t).bump pwrSupplySags 1 t

def State.flagSags (s : State) : State := (List.range 4).foldl State.flagSag s

theorem State.flagSags_keeps (s : State) :
    s.flagSags.mod = s.mod ∧ s.flagSags.mem = s.mem ∧ s.flagSags.clusters = s.clusters ∧ s.flagSags.towers = s.towers :=
  ⟨foldl_keeps State.mod (f := State.flagSag) (fun _ _ => rfl) (List.range 4) s, foldl_keeps State.mem (f := State.flagSag) (fun _ _ => rfl) (List.range 4) s,
    foldl_keeps State.clusters (f := State.flagSag) (fun _ _ => rfl) (List.range 4) s,
    foldl_keeps State.towers (f := State.flagSag) (fun _ _ => rfl) (List.range 4) s⟩

theorem State.safetyOn_mod (s : State) (target : List Nat) : ∃ o, (s.safetyOn target).mod = { s.mod with orders := o } := ⟨_, rfl⟩

theorem State.safetyOn_keeps (s : State) (target : List Nat) : (s.safetyOn target).mem = s.mem ∧ (s.safetyOn target).regs = s.regs ∧
    (s.safetyOn target).clusters = s.clusters ∧ (s.safetyOn target).towers = s.towers := ⟨rfl, rfl, rfl, rfl⟩

theorem pwr_key {a b : RegName} (h : a = .pwrStatus ∧ b = .pwrSupply ∨ a = .pwrBudget ∧ (b = .pwrStatus ∨ b = .pwrSupply)) (t x : Nat) :
    Loc.key ⟨a, t, 0, 0, 0⟩ ≠ Loc.key ⟨b, x, 0, 0, 0⟩ := by
  obtain ⟨rfl, rfl⟩ | ⟨rfl, rfl | rfl⟩ := h <;>
    · simp only [Loc.key, RegName.shared, RegName.unitBase, RegName.place, Bool.false_eq_true, if_false]
      omega

theorem pwrStatus_key_inj {t x : Nat} (h : t ≠ x) : Loc.key ⟨.pwrStatus, t, 0, 0, 0⟩ ≠ Loc.key ⟨.pwrStatus, x, 0, 0, 0⟩ := by
  simp only [Loc.key, RegName.shared, RegName.unitBase, RegName.place, Bool.false_eq_true, if_false]
  omega

theorem State.flagSag_budget (s : State) (t x : Nat) : (s.flagSag x).fget pwrBudgetTowerW t = s.fget pwrBudgetTowerW t :=
  congrArg (fld · 15 0) (((s.fset pwrStatusSagEvent 1 x).reg_bump_other pwrSupplySags 1 x 0 0 0 (pwr_key (by decide) t x)).trans
    (s.reg_fset_other pwrStatusSagEvent 1 x 0 0 0 (pwr_key (by decide) t x)))

theorem State.flagSags_budget (s : State) (t : Nat) : s.flagSags.fget pwrBudgetTowerW t = s.fget pwrBudgetTowerW t :=
  foldl_keeps (fun x : State => x.fget pwrBudgetTowerW t) (fun y x => y.flagSag_budget t x) (List.range 4) s

theorem State.flagSags_event (s : State) {t : Nat} (h : t < 4) : s.flagSags.fget pwrStatusSagEvent t = 1 := by
  have counted (y : State) (x : Nat) : (y.flagSag x).reg ⟨.pwrStatus, t, 0, 0, 0⟩ = (y.fset pwrStatusSagEvent 1 x).reg ⟨.pwrStatus, t, 0, 0, 0⟩ :=
    (y.fset pwrStatusSagEvent 1 x).reg_bump_other pwrSupplySags 1 x 0 0 0 (pwr_key (by decide) t x)
  have other (y : State) (x : Nat) (hx : x ≠ t) : (y.flagSag x).fget pwrStatusSagEvent t = y.fget pwrStatusSagEvent t :=
    congrArg (fld · 4 4) ((counted y x).trans (y.reg_fset_other pwrStatusSagEvent 1 x 0 0 0 (pwrStatus_key_inj hx.symm)))
  obtain ⟨y, -, after⟩ := foldl_seen_once State.flagSag (fun y => y.fget pwrStatusSagEvent t) other List.nodup_range (List.mem_range.mpr h) s
  exact after.trans ((congrArg (fld · 4 4) (counted y t)).trans (y.fget_fset pwrStatusSagEvent 1 t 0 0 0 (by decide) (by decide)))

/-- What a change of a store's values leaves as it was, it leaves of what the store reads as. -/
theorem SMap.get_map_keeps {α β : Type} {F : Nat × α → Nat × α} (see : α → β) (h : ∀ e, (F e).1 = e.1 ∧ see (F e).2 = see e.2)
    (d : α) (m : SMap α) (k : Nat) : see (SMap.get d (m.map F) k) = see (SMap.get d m k) := by
  induction m with
  | nil => rfl
  | cons e m ih =>
    obtain ⟨key, same⟩ := h e
    simp only [List.map_cons, SMap.get, key]
    split
    · exact same
    · exact ih

/-- Duty ceilings change no cluster's domain. -/
theorem State.clampDuty_dom (s : State) (x t c : Nat) :
    ((s.clampDuty x).clu t c).absent = (s.clu t c).absent ∧ ((s.clampDuty x).clu t c).dom = (s.clu t c).dom := by
  have seen := SMap.get_map_keeps (F := fun e : Nat × Cluster => if e.1 / 128 = x ∧ s.ceiling x (e.1 % 128) < e.2.arr.duty then
      (e.1, { e.2 with arr := { e.2.arr with duty := s.ceiling x (e.1 % 128) } }) else e) (fun y : Cluster => (y.absent, y.dom))
    (fun e => by split <;> exact ⟨rfl, rfl⟩) Cluster.init s.clusters (cluKey t c)
  exact Prod.ext_iff.mp seen

theorem State.clampAll_keeps (s : State) : s.clampAll.mod = s.mod ∧ s.clampAll.mem = s.mem ∧ s.clampAll.regs = s.regs ∧ s.clampAll.towers = s.towers :=
  ⟨foldl_keeps State.mod (f := fun (s : State) t => s.clampDuty t) (fun _ _ => rfl) (List.range 4) s,
    foldl_keeps State.mem (f := fun (s : State) t => s.clampDuty t) (fun _ _ => rfl) (List.range 4) s,
    foldl_keeps State.regs (f := fun (s : State) t => s.clampDuty t) (fun _ _ => rfl) (List.range 4) s,
    foldl_keeps State.towers (f := fun (s : State) t => s.clampDuty t) (fun _ _ => rfl) (List.range 4) s⟩

theorem State.clampAll_standing (s : State) (t : Nat) : s.clampAll.standingMw t = s.standingMw t := by
  refine foldl_keeps (fun x : State => x.standingMw t) (f := fun (s : State) t => s.clampDuty t) (fun y x => ?_) (List.range 4) s
  have cluster : (y.clampDuty x).standing160 t = y.standing160 t := by
    funext c
    obtain ⟨absent, dom⟩ := y.clampDuty_dom x t c
    simp only [State.standing160, absent, dom]
  simp only [State.standingMw, cluster]

theorem State.standingMw_pos (s : State) (t : Nat) : 0 < s.standingMw t := by
  unfold State.standingMw
  generalize (List.sum _ : Nat) = n
  positivity

/-- The set budget in mW, under the thermal limit (R388). -/
def State.budgetMw (s : State) (t : Nat) : ℚ :=
  match (s.tower t).thermalMw with | some w => min ((s.setBudget t : ℚ) * 1000) w | none => (s.setBudget t : ℚ) * 1000

theorem State.effectiveMw_eq (s : State) (t : Nat) : s.effectiveMw t = max (s.standingMw t) (s.budgetMw t / if s.mod.sagged then 2 else 1) := rfl

/-- Standing power, and budgets of half the size in a sag: the effective budget is the one or is halved (R388). -/
theorem State.effectiveMw_sag {s u : State} {t : Nat} (hs : s.mod.sagged = false) (hu : u.mod.sagged = true) (stand : u.standingMw t = s.standingMw t)
    (budget : u.budgetMw t = s.budgetMw t) : u.effectiveMw t = s.standingMw t ∨ u.effectiveMw t = s.effectiveMw t / 2 := by
  have positive := s.standingMw_pos t
  rw [State.effectiveMw_eq, State.effectiveMw_eq, stand, budget, hs, hu, if_pos rfl, if_neg Bool.false_ne_true, div_one]
  by_cases h : s.budgetMw t / 2 ≤ s.standingMw t
  · exact .inl (max_eq_left h)
  · exact .inr (by rw [max_eq_right (by linarith), max_eq_right (by linarith)])

theorem State.domCapNow_eq {s u : State} {t : Nat} (variant : u.mod.variant = s.mod.variant) (caps : (u.tower t).domCap = (s.tower t).domCap)
    (phases : (u.tower t).phasesLost = (s.tower t).phasesLost) (d : Nat) : u.domCapNow t d = s.domCapNow t d := by
  unfold State.domCapNow State.hwCap State.lostPhases
  rw [variant, caps, phases]

/-- A sag halves a grant (R409). -/
theorem State.grantNow_sag {s u : State} {t : Nat} {g : Grant} (hs : s.mod.sagged = false) (hu : u.mod.sagged = true)
    (cap : u.domCapNow t g.req.domain.toNat = s.domCapNow t g.req.domain.toNat) : u.grantNow t g = s.grantNow t g / 2 := by
  unfold State.grantNow
  rw [cap, hs, hu, if_pos rfl, if_neg Bool.false_ne_true]

theorem supplySag_eq (s : State) {mv : Nat} (hv : mv < 10800) (hr : s.mod.railsOn = true) (hs : s.mod.sagged = false) :
    exec (.supplySag mv) s = .next (((s.beginSag mv).flagSags.safetyOn tgtPower).clampAll) :=
  (if_neg (by simp only [hr, Bool.not_true, Bool.false_eq_true, or_false]; omega)).trans (if_neg (by simp [hs]))

/-- The sag as it stands when the arrays are brought under their ceilings. -/
structure Sagged (s : State) (mv : Nat) (u : State) : Prop where
  sag : u.mod.sagged = true ∧ u.mod.sagMin = mv ∧ u.mod.sagCount = s.mod.sagCount + 1 ∧ u.mod.sagStart = s.stamp s.mod.lead
  variant : u.mod.variant = s.mod.variant
  mem : u.mem = s.mem
  event : ∀ t, t < 4 → u.fget pwrStatusSagEvent t = 1
  budget : ∀ t, u.fget pwrBudgetTowerW t = s.fget pwrBudgetTowerW t
  tower : ∀ t, (u.tower t).sansReserve = (s.tower t).sansReserve
  standing : ∀ t, u.standingMw t = s.standingMw t

theorem State.fget_of_regs {s u : State} (h : u.regs = s.regs) (f : Fld) (t v i j : Nat) : u.fget f t v i j = s.fget f t v i j := by
  unfold State.fget State.reg
  rw [h]

theorem State.standingMw_of_clusters {s u : State} (h : u.clusters = s.clusters) (t : Nat) : u.standingMw t = s.standingMw t := by
  unfold State.standingMw State.standing160 State.clu
  rw [h]

theorem State.beginSag_sagged (s : State) (mv : Nat) : Sagged s mv ((s.beginSag mv).flagSags.safetyOn tgtPower) := by
  obtain ⟨mem1, regs1, clusters1⟩ := s.beginSag_keeps mv
  obtain ⟨mod2, mem2, clusters2, towers2⟩ := (s.beginSag mv).flagSags_keeps
  obtain ⟨orders, mod3⟩ := (s.beginSag mv).flagSags.safetyOn_mod tgtPower
  obtain ⟨mem3, regs3, clusters3, towers3⟩ := (s.beginSag mv).flagSags.safetyOn_keeps tgtPower
  rw [mod2, s.beginSag_mod mv] at mod3
  exact
    { sag := by rw [mod3]; exact ⟨rfl, rfl, rfl, rfl⟩
      variant := by rw [mod3]
      mem := mem3.trans (mem2.trans mem1)
      event := fun t ht => (State.fget_of_regs regs3 _ _ _ _ _).trans (State.flagSags_event _ ht)
      budget := fun t => (State.fget_of_regs regs3 _ _ _ _ _).trans ((State.flagSags_budget _ t).trans (State.fget_of_regs regs1 _ _ _ _ _))
      tower := fun t => (congrArg Tower.sansReserve (State.tower_of_towers (towers3.trans towers2) t)).trans (s.beginSag_tower mv t)
      standing := State.standingMw_of_clusters (clusters3.trans (clusters2.trans clusters1)) }

/-- Duty ceilings leave the sag as it is. -/
theorem Sagged.clampAll {s u : State} {mv : Nat} (h : Sagged s mv u) : Sagged s mv u.clampAll := by
  obtain ⟨mod, mem, regs, towers⟩ := u.clampAll_keeps
  have stand := u.clampAll_standing
  generalize u.clampAll = w at mod mem regs towers stand ⊢
  have tower := State.tower_of_towers towers
  obtain ⟨sag, variant, kept, event, budget, own, standing⟩ := h
  refine ⟨by rwa [mod], by rwa [mod], mem.trans kept, fun t ht => (State.fget_of_regs regs _ _ _ _ _).trans (event t ht),
    fun t => (State.fget_of_regs regs _ _ _ _ _).trans (budget t), fun t => by rw [tower, own], fun t => (stand t).trans (standing t)⟩

theorem supplySag_spec (s : State) {mv : Nat} (hv : mv < 10800) (hr : s.mod.railsOn = true) (hs : s.mod.sagged = false) :
    ∃ u, exec (.supplySag mv) s = .next u ∧ u.mod.sagged = true ∧ u.mod.sagMin = mv ∧ u.mod.sagCount = s.mod.sagCount + 1 ∧
      u.mod.sagStart = s.stamp s.mod.lead ∧ u.mem = s.mem ∧
      ∀ t, t < 4 → u.fget pwrStatusSagEvent t = 1 ∧ (u.tower t).grants = (s.tower t).grants ∧ (∀ g, u.grantNow t g = s.grantNow t g / 2) ∧
        (u.effectiveMw t = s.standingMw t ∨ u.effectiveMw t = s.effectiveMw t / 2) := by
  have sagged := (s.beginSag_sagged mv).clampAll
  rw [supplySag_eq s hv hr hs]
  generalize (State.safetyOn _ _).clampAll = u at sagged ⊢
  obtain ⟨⟨hu, low, count, start⟩, variant, mem, event, budget, tower, standing⟩ := sagged
  refine ⟨u, rfl, hu, low, count, start, mem, fun t ht => ?_⟩
  have grants : (u.tower t).grants = (s.tower t).grants := keeps_of (view := Tower.sansReserve) Tower.grants (tower t)
  have caps : (u.tower t).domCap = (s.tower t).domCap := keeps_of (view := Tower.sansReserve) Tower.domCap (tower t)
  have phases : (u.tower t).phasesLost = (s.tower t).phasesLost := keeps_of (view := Tower.sansReserve) Tower.phasesLost (tower t)
  have limit : (u.tower t).thermalMw = (s.tower t).thermalMw := keeps_of (view := Tower.sansReserve) Tower.thermalMw (tower t)
  have sum : u.budgetMw t = s.budgetMw t := by
    unfold State.budgetMw State.setBudget
    rw [limit, budget]
  exact ⟨event t ht, grants, fun g => State.grantNow_sag hs hu (State.domCapNow_eq variant caps phases _), State.effectiveMw_sag hs hu (standing t) sum⟩

/-- The module once the input has held 11.0 V. -/
def Module.endSag (m : Module) : Module := { m with sagged := false, vinMv := max 11000 m.vinMv, inputOk := true }

theorem State.refillAll_mod (s : State) : s.refillAll.mod = s.mod := keeps_of (view := fun x => { x with towers := s.towers }) State.mod s.refillAll_rest

theorem State.logSag_logged {s : State} (h : s.mod.sagged = true) :
    ∃ e ∈ s.logSag.mod.log, e.code = 0x0010 ∧ e.detail.head? = some (BitVec.ofNat 32 s.mod.sagMin) := by
  rw [State.logSag, if_pos h]
  exact ⟨_, (s.logAt_newest _ _ _ _ _).mem, rfl, rfl⟩

/-- SAG_EXIT logs the sag and ends it. -/
theorem sagExit_spec (s : State) (hs : s.mod.sagged = true) : ∃ u, exec .sagExit s = .next u ∧ u.mod.sagged = false ∧ u.mod.inputOk = true ∧
    (∃ e ∈ u.mod.log, e.code = 0x0010 ∧ e.detail.head? = some (BitVec.ofNat 32 s.mod.sagMin)) ∧ u.mem = s.mem := by
  have run : exec .sagExit s = .next (s.logSag.refillAll.modMod Module.endSag) := if_neg (by simp [hs])
  have mod : (s.logSag.refillAll.modMod Module.endSag).mod = s.logSag.mod.endSag := by rw [State.modMod_mod, State.refillAll_mod]
  have mem : s.logSag.mem = s.mem := keeps_of State.mem s.logSag_sansHealth
  refine ⟨_, run, ?_⟩
  rw [mod, State.modMod_mem, s.logSag.refillAll_keeps.1, mem]
  exact ⟨rfl, rfl, State.logSag_logged hs, rfl⟩

/-! ### The rails come up (R31, R34, R418) -/

/-- The first source is opened: what of the module it leaves alone. -/
def State.sansSource (s : State) : State :=
  { s with ports := [], regs := [], mod := { s.mod with bridge := none, fwSource := 0, fwFail := 0, staging := none, stage := [], pllPhase := [] } }

theorem State.openSource_sansSource (s : State) (src : Nat) : (s.openSource src).sansSource = s.sansSource := by
  have bridged (x : State) : (x.setBridge 0).sansSource = x.sansSource := keeps_of State.sansSource (x.setBridge_sansBridge 0)
  have trained (x : State) : (x.trainPorts 0).sansSource = x.sansSource := keeps_of State.sansSource (x.trainPorts_sansPorts 0)
  unfold State.openSource
  dsimp only
  split
  · split
    · exact (bridged _).trans rfl
    · rfl
  · exact (trained _).trans rfl
  · rfl

/-- Nothing keeps the rails off. -/
def Module.mayRise (m : Module) : Prop := m.pwrEn = true ∧ m.inputOk = true ∧ m.overvolt = false ∧ m.tripped = false ∧ ∃ b ∈ m.aonUp, b = true

/-- Firmware starts: phase 1, and what of the module stays. -/
theorem State.startFirmware_keeps (s : State) : s.startFirmware.mod.phase = 1 ∧ s.startFirmware.mod.railsOn = s.mod.railsOn ∧
    s.startFirmware.mod.pwrGood = s.mod.pwrGood ∧ s.startFirmware.mod.pwrEn = s.mod.pwrEn ∧ s.startFirmware.mod.thermtripN = s.mod.thermtripN ∧
    s.startFirmware.mod.inputOk = s.mod.inputOk ∧ s.startFirmware.mod.vinMv = s.mod.vinMv ∧ s.startFirmware.towers = s.towers := by
  let s1 := s.pickRecord.modMod fun m =>
    { m with phase := 1, ready := false, bootCount := m.boots + 1, verified := false, fwTried := [], meas := [], findings := none }
  have opened : s.startFirmware.sansSource = s1.sansSource := s1.openSource_sansSource _
  exact ⟨keeps_of (fun x => x.mod.phase) opened, keeps_of (s := s1) (fun x => x.mod.railsOn) opened, keeps_of (s := s1) (fun x => x.mod.pwrGood) opened,
    keeps_of (s := s1) (fun x => x.mod.pwrEn) opened, keeps_of (s := s1) (fun x => x.mod.thermtripN) opened,
    keeps_of (s := s1) (fun x => x.mod.inputOk) opened, keeps_of (s := s1) (fun x => x.mod.vinMv) opened, keeps_of (s := s1) State.towers opened⟩

/-- Every tower is powered. -/
def State.lightTowers (s : State) : State := (List.range 4).foldl (fun (s : State) t => s.modTower t fun w => { w with on := true }) s

theorem State.lightTowers_mod (s : State) : s.lightTowers.mod = s.mod :=
  foldl_keeps State.mod (f := fun (s : State) t => s.modTower t fun w => { w with on := true }) (fun _ _ => rfl) (List.range 4) s

theorem State.lightTowers_on (s : State) {t : Nat} (h : t < 4) : (s.lightTowers.tower t).on = true := by
  obtain ⟨x, -, after⟩ := foldl_seen_once (fun (s : State) t => s.modTower t fun w => { w with on := true }) (fun y => y.tower t)
    (fun y b hb => y.tower_modTower_other hb.symm _) List.nodup_range (List.mem_range.mpr h) s
  exact congrArg Tower.on (after.trans (x.tower_modTower t fun w => { w with on := true }))

/-- A bring-up that begins again after a stop logs its own LOG_START (R410). -/
def State.tellStart (s : State) : State :=
  if s.mod.phase = 0 then s.lightTowers else s.lightTowers.logEvent 0x0001 0 s.mod.lead [s.mod.boots + 1]

theorem State.tellStart_sansHealth (s : State) : s.tellStart.sansHealth = s.lightTowers.sansHealth := by
  unfold State.tellStart
  split
  · rfl
  · exact s.lightTowers.logEvent_sansHealth _ _ _ _

theorem State.tellStart_keeps (s : State) : s.tellStart.mod.pwrEn = s.mod.pwrEn ∧ s.tellStart.mod.thermtripN = s.mod.thermtripN ∧
    s.tellStart.mod.inputOk = s.mod.inputOk ∧ s.tellStart.mod.vinMv = s.mod.vinMv ∧ s.tellStart.towers = s.lightTowers.towers := by
  have told := s.tellStart_sansHealth
  rw [← s.lightTowers_mod]
  exact ⟨keeps_of (fun x => x.mod.pwrEn) told, keeps_of (fun x => x.mod.thermtripN) told, keeps_of (fun x => x.mod.inputOk) told,
    keeps_of (fun x => x.mod.vinMv) told, keeps_of State.towers told⟩

def Module.rise (m : Module) : Module := { m with railsOn := true, pwrGood := true, bootStart := if m.phase = 0 then 0 else m.aonStamp }

theorem State.rise_keeps (s : State) : (s.modMod Module.rise).startFirmware.mod.railsOn = true ∧ (s.modMod Module.rise).startFirmware.mod.pwrGood = true ∧
    (s.modMod Module.rise).startFirmware.mod.phase = 1 ∧ (s.modMod Module.rise).startFirmware.mod.pwrEn = s.mod.pwrEn ∧
    (s.modMod Module.rise).startFirmware.mod.thermtripN = s.mod.thermtripN ∧ (s.modMod Module.rise).startFirmware.mod.inputOk = s.mod.inputOk ∧
    (s.modMod Module.rise).startFirmware.mod.vinMv = s.mod.vinMv ∧ (s.modMod Module.rise).startFirmware.towers = s.towers := by
  obtain ⟨phase, rails, good, en, trip, input, volts, towers⟩ := (s.modMod Module.rise).startFirmware_keeps
  exact ⟨rails, good, phase, en, trip, input, volts, towers⟩

theorem State.powerUp_eq (s : State) : s.powerUp =
    if s.mod.railsOn = true ∨ (!s.mod.pwrEn) = true ∨ (!s.mod.inputOk) = true ∨ s.mod.overvolt = true ∨ s.mod.tripped = true ∨
      (!(s.mod.aonUp.any id)) = true then s else (s.tellStart.modMod Module.rise).startFirmware := rfl

/-- Whether the rails come up, and what is then on. -/
structure PowersUp (s u : State) : Prop where
  rises : u.mod.railsOn = true ↔ s.mod.mayRise
  lit : u.mod.railsOn = true → u.mod.pwrGood = true ∧ u.mod.phase = 1 ∧ ∀ t, t < 4 → (u.tower t).on = true
  kept : u.mod.pwrEn = s.mod.pwrEn ∧ u.mod.thermtripN = s.mod.thermtripN ∧ u.mod.inputOk = s.mod.inputOk ∧ u.mod.vinMv = s.mod.vinMv

theorem State.powerUp_powersUp {s : State} (h : s.mod.railsOn = false) : PowersUp s s.powerUp := by
  have blocked : (s.mod.railsOn = true ∨ (!s.mod.pwrEn) = true ∨ (!s.mod.inputOk) = true ∨ s.mod.overvolt = true ∨ s.mod.tripped = true ∨
      (!(s.mod.aonUp.any id)) = true) ↔ ¬ s.mod.mayRise := by
    simp only [Module.mayRise, h, not_and_or]
    simp
  rw [State.powerUp_eq]
  by_cases hm : s.mod.mayRise
  · rw [if_neg fun hb => blocked.mp hb hm]
    obtain ⟨up, good, phase, en, trip, input, volts, towers⟩ := s.tellStart.rise_keeps
    obtain ⟨pwrEn, thermtripN, inputOk, vinMv, lit⟩ := s.tellStart_keeps
    refine ⟨⟨fun _ => hm, fun _ => up⟩, fun _ => ⟨good, phase, fun t ht => ?_⟩, en.trans pwrEn, trip.trans thermtripN, input.trans inputOk,
      volts.trans vinMv⟩
    rw [State.tower_of_towers (towers.trans lit)]
    exact s.lightTowers_on ht
  · rw [if_pos (blocked.mpr hm)]
    exact ⟨⟨fun hr => absurd (h.symm.trans hr) Bool.false_ne_true, fun hr => absurd hr hm⟩,
      fun hr => absurd (h.symm.trans hr) Bool.false_ne_true, rfl, rfl, rfl, rfl⟩

theorem sbPwrEnRise_spec (s : State) (he : s.mod.pwrEn = false) (hr : s.mod.railsOn = false) :
    ∃ u, exec .sbPwrEnRise s = .next u ∧ u.mod.pwrEn = true ∧ u.mod.thermtripN = true ∧
      (u.mod.railsOn = true ↔ s.mod.inputOk = true ∧ s.mod.overvolt = false ∧ ∃ b ∈ s.mod.aonUp, b = true) ∧
      (u.mod.railsOn = true → u.mod.pwrGood = true ∧ u.mod.phase = 1 ∧ ∀ t, t < 4 → (u.tower t).on = true) := by
  let s1 := s.modMod fun m => { m with pwrEn := true, thermtripN := true, tripped := false }
  have run : exec .sbPwrEnRise s = .next s1.powerUp := congrArg Host.Outcome.next (if_neg (by simp [he]))
  obtain ⟨rises, lit, pwrEn, thermtripN, -, -⟩ := State.powerUp_powersUp (s := s1) hr
  have may : s1.mod.mayRise ↔ s.mod.inputOk = true ∧ s.mod.overvolt = false ∧ ∃ b ∈ s.mod.aonUp, b = true :=
    ⟨fun ⟨_, input, volts, _, aon⟩ => ⟨input, volts, aon⟩, fun ⟨input, volts, aon⟩ => ⟨rfl, input, volts, rfl, aon⟩⟩
  exact ⟨_, run, pwrEn, thermtripN, rises.trans may, lit⟩

theorem inputQualified_spec (s : State) (hr : s.mod.railsOn = false) :
    ∃ u, exec .inputQualified s = .next u ∧ u.mod.inputOk = true ∧ u.mod.vinMv = max 10800 s.mod.vinMv ∧
      (u.mod.railsOn = true ↔ s.mod.pwrEn = true ∧ s.mod.overvolt = false ∧ s.mod.tripped = false ∧ ∃ b ∈ s.mod.aonUp, b = true) := by
  let s1 := s.modMod fun m => { m with inputOk := true, vinMv := max 10800 m.vinMv }
  obtain ⟨rises, -, -, -, inputOk, vinMv⟩ := State.powerUp_powersUp (s := s1) hr
  have may : s1.mod.mayRise ↔ s.mod.pwrEn = true ∧ s.mod.overvolt = false ∧ s.mod.tripped = false ∧ ∃ b ∈ s.mod.aonUp, b = true :=
    ⟨fun ⟨en, _, rest⟩ => ⟨en, rest⟩, fun ⟨en, rest⟩ => ⟨en, rfl, rest⟩⟩
  exact ⟨s1.powerUp, rfl, inputOk, vinMv, rises.trans may⟩

end Sys2Proof.Machine

open Sys2Proof Sys2Proof.Machine Sys2Proof.Claims

/-- Settles O49, event by event. -/
theorem supplyEventsActOnTheModule : Obligations.SupplyEventsActOnTheModule := by
  intro s mv us
  dsimp only
  have gone : ∀ u, Off s u → u.mod.railsOn = false ∧ u.mod.pwrGood = false ∧ u.mod.ready = false ∧ u.clusters = [] ∧ u.mem.hbm = [] ∧
      u.mem.host = s.mem.host ∧ u.mod.nor = s.mod.nor ∧ u.mod.invA = s.mod.invA ∧ u.mod.invB = s.mod.invB ∧
      ∀ t, t < 4 → (u.tower t).on = false := by
    rintro u ⟨⟨off, dim, ready⟩, ⟨clusters, hbm, host⟩, ⟨nor, invA, invB⟩, dark⟩
    exact ⟨off, dim, ready, clusters, hbm, host, nor, invA, invB, dark⟩
  refine ⟨fun h => if_pos (by simpa using h), fun hv hr hs => ?_, supplySag_spec s, fun h => if_pos (by simp [h]), sagExit_spec s,
    fun h => congrArg Host.Outcome.next (if_neg fun ⟨hs, hv⟩ => h.elim (fun h => by simp [h] at hs) fun h => by omega), orderedStop_spec s,
    sbPwrEnFall_spec s, fun he hr => ?_, fun h => congrArg Host.Outcome.next (if_neg (by simp [h])), fun h => congrArg Host.Outcome.next (if_pos h),
    sbPwrEnRise_spec s, inputQualified_spec s, fun hr => ?_, fun h => if_pos h, fun hv hu ho => ?_, ?_⟩
  · exact (if_neg (by simp only [hr, Bool.not_true, Bool.false_eq_true, or_false]; omega)).trans (if_pos hs)
  · exact congrArg Host.Outcome.next ((if_pos he).trans (if_pos (by simp [State.modMod, hr])))
  · exact congrArg Host.Outcome.next (if_pos (.inl hr))
  · obtain ⟨u, run, volts, off, logged⟩ := inputOvervoltage_spec s mv us hv hu ho
    exact ⟨u, run, volts, gone u off, logged⟩
  · obtain ⟨u, run, off, rest⟩ := inputLoss_spec s
    exact ⟨u, run, gone u off, rest⟩

end

section
/-! PROOF. Powers of two and roundings of the formats (R47 to R51, R69, R70): the code of a rounded value fits its format, and a NaN
gives the canonical one. -/

namespace Sys2Proof.Machine

/-! ### Powers of two -/

theorem pow2_eq_zpow (e : Int) : pow2 e = (2 : ℚ) ^ e := by
  unfold pow2
  split
  · rename_i he
    obtain ⟨n, rfl⟩ := Int.eq_ofNat_of_zero_le he
    simp
  · rename_i he
    obtain ⟨n, hn⟩ := Int.eq_ofNat_of_zero_le (show 0 ≤ -e by omega)
    obtain rfl : e = -n := by omega
    simp

theorem pow2_pos (e : Int) : 0 < pow2 e := by
  rw [pow2_eq_zpow]
  positivity

/-- The logarithms of numerator and denominator bound the quotient within two binades. -/
theorem zpow_log2_bounds {q : ℚ} (h : 0 < q) :
    (2 : ℚ) ^ ((Nat.log2 q.num.natAbs : Int) - Nat.log2 q.den - 1) ≤ q ∧ q < (2 : ℚ) ^ ((Nat.log2 q.num.natAbs : Int) - Nat.log2 q.den + 1) := by
  have hn : 0 < q.num := Rat.num_pos.mpr h
  have bounds (n : Nat) (h0 : n ≠ 0) : (2 : ℚ) ^ (Nat.log2 n : Int) ≤ n ∧ (n : ℚ) < 2 ^ ((Nat.log2 n : Int) + 1) := by
    have lo : 2 ^ n.log2 ≤ n := Nat.log2_self_le h0
    have hi : n < 2 ^ (n.log2 + 1) := Nat.lt_log2_self
    exact ⟨by exact_mod_cast lo, by exact_mod_cast hi⟩
  obtain ⟨nlo, nhi⟩ := bounds q.num.natAbs (by omega)
  obtain ⟨dlo, dhi⟩ := bounds q.den q.den_nz
  have hd : (0 : ℚ) < q.den := by exact_mod_cast q.den_pos
  have hq : q * q.den = q.num.natAbs := by
    rw [Rat.mul_den_eq_num, ← Int.cast_natCast, Int.natAbs_of_nonneg hn.le]
  have two : (2 : ℚ) ≠ 0 := by norm_num
  rw [← mul_le_mul_iff_left₀ hd, ← mul_lt_mul_iff_left₀ hd, hq]
  constructor
  · calc (2 : ℚ) ^ ((Nat.log2 q.num.natAbs : Int) - Nat.log2 q.den - 1) * q.den
        ≤ 2 ^ ((Nat.log2 q.num.natAbs : Int) - Nat.log2 q.den - 1) * 2 ^ ((Nat.log2 q.den : Int) + 1) := by gcongr
      _ = 2 ^ (Nat.log2 q.num.natAbs : Int) := by rw [← zpow_add₀ two]; congr 1; ring
      _ ≤ q.num.natAbs := nlo
  · calc (q.num.natAbs : ℚ) < 2 ^ ((Nat.log2 q.num.natAbs : Int) + 1) := nhi
      _ = 2 ^ ((Nat.log2 q.num.natAbs : Int) - Nat.log2 q.den + 1) * 2 ^ (Nat.log2 q.den : Int) := by
          rw [← zpow_add₀ two]; congr 1; ring
      _ ≤ 2 ^ ((Nat.log2 q.num.natAbs : Int) - Nat.log2 q.den + 1) * q.den := by gcongr

theorem zpow_le_iff_le_log {q : ℚ} (h : 0 < q) {e : Int} : (2 : ℚ) ^ e ≤ q ↔ e ≤ Int.log 2 q := by
  simpa using Int.zpow_le_iff_le_log Nat.one_lt_two (r := q) h

theorem lt_zpow_iff_log_lt {q : ℚ} (h : 0 < q) {e : Int} : q < (2 : ℚ) ^ e ↔ Int.log 2 q < e := by
  simpa using Int.lt_zpow_iff_log_lt Nat.one_lt_two (r := q) h

theorem ilog2_eq_log {q : ℚ} (h : 0 < q) : ilog2 q = Int.log 2 q := by
  obtain ⟨lo, hi⟩ := zpow_log2_bounds h
  have above := (zpow_le_iff_le_log h).mp lo
  have below := (lt_zpow_iff_log_lt h).mp hi
  unfold ilog2
  dsimp only
  split
  · rename_i he
    rw [pow2_eq_zpow] at he
    have := (zpow_le_iff_le_log h).mp he
    omega
  · rename_i he
    rw [pow2_eq_zpow, not_le] at he
    have := (lt_zpow_iff_log_lt h).mp he
    omega

/-! ### Roundings -/

/-- Half to even is within a half. -/
theorem abs_sub_rneNat {q : ℚ} (h : 0 ≤ q) : |q - rneNat q| ≤ 1 / 2 := by
  have floor : (q.num / q.den).toNat = ⌊q⌋₊ := by
    rw [← Rat.floor_def', ← Int.floor_toNat]
  have lo : ((⌊q⌋₊ : Nat) : ℚ) ≤ q := Nat.floor_le h
  have hi : q < (⌊q⌋₊ : Nat) + 1 := Nat.lt_floor_add_one q
  unfold rneNat
  simp only [floor]
  rw [abs_le]
  split_ifs <;> push_cast <;> constructor <;> linarith

/-- A magnitude is rounded to a whole number of steps. -/
theorem exists_roundMag (r : Rnd) (neg : Bool) (a step : ℚ) : ∃ k : Nat, roundMag r neg a step = k * step := by
  cases r with
  | rne => exact ⟨_, rfl⟩
  | sr u =>
    have up (k : Nat) : ((k : ℚ) + 1) * step = ((k + 1 : Nat) : ℚ) * step := by push_cast; rfl
    unfold roundMag
    simp only [up]
    split_ifs <;> exact ⟨_, rfl⟩

theorem roundMag_nonneg (r : Rnd) (neg : Bool) (a : ℚ) {step : ℚ} (h : 0 ≤ step) : 0 ≤ roundMag r neg a step := by
  obtain ⟨k, hk⟩ := exists_roundMag r neg a step
  rw [hk]
  positivity

/-! ### Codes fit their formats -/

/-- What the five formats have in common: the exponents of their finite values fit the exponent field. -/
structure FFmt.Sound (f : FFmt) : Prop where
  canon : f.canon < 2 ^ f.width
  maxFin : 0 ≤ f.maxFin
  top : f.maxFin < 2 ^ ((2 ^ f.eb : Int) - f.bias)
  eb : 1 ≤ f.eb

theorem fmtOf_sound {code : Nat} {f : FFmt} (h : fmtOf code = some f) : f.Sound := by
  match code with
  | 0 | 1 | 2 | 3 | 4 =>
    cases h
    constructor <;> norm_num [fmtF32, fmtBF16, fmtF16, fmtE4M3, fmtE5M2, FFmt.width, pow2_eq_zpow]
  | n + 5 => cases h

/-- A sign bit above the other fields. -/
theorem FFmt.sign_le (f : FFmt) (neg : Bool) : (if neg then 2 ^ (f.eb + f.mb) else 0) ≤ 2 ^ (f.eb + f.mb) := by
  cases neg
  · exact Nat.zero_le _
  · exact le_rfl

theorem FFmt.two_pow_width (f : FFmt) : 2 ^ f.width = 2 ^ (f.eb + f.mb) + 2 ^ (f.eb + f.mb) := by
  rw [FFmt.width]
  ring

/-- In units of the last place of its binade, or of a higher one, a magnitude takes one bit more than the mantissa holds. -/
theorem floor_div_pow2_lt {a : ℚ} (h0 : 0 < a) {e : Int} (h : Int.log 2 a ≤ e) (mb : Nat) : (a / pow2 (e - mb)).floor.toNat < 2 ^ (mb + 1) := by
  have below : a < (2 : ℚ) ^ (e + 1) := (lt_zpow_iff_log_lt h0).mpr (by omega)
  have binade : (2 : ℚ) ^ (e + 1) = ((2 ^ (mb + 1) : Nat) : ℚ) * 2 ^ (e - mb) := by
    rw [Nat.cast_pow, Nat.cast_ofNat, ← zpow_natCast, ← zpow_add₀ (by norm_num)]
    congr 1
    push_cast
    ring
  have quotient : a / pow2 (e - mb) < ((2 ^ (mb + 1) : Nat) : ℚ) := by
    rwa [div_lt_iff₀ (pow2_pos _), pow2_eq_zpow, ← binade]
  have floor : (a / pow2 (e - mb)).floor < ((2 ^ (mb + 1) : Nat) : Int) := Int.floor_lt.mpr (by exact_mod_cast quotient)
  have := Nat.two_pow_pos (mb + 1)
  omega

/-- The code of a finite value below the first binade that the exponent field cannot hold. -/
theorem FFmt.encodeFin_lt {f : FFmt} (heb : 1 ≤ f.eb) (neg : Bool) {a : ℚ} (h0 : 0 ≤ a) (h : a < 2 ^ ((2 ^ f.eb : Int) - f.bias)) :
    f.encodeFin neg a < 2 ^ f.width := by
  have half := f.two_pow_width
  have sign := f.sign_le neg
  have fields : 2 ^ (f.eb + f.mb) = 2 ^ f.eb * 2 ^ f.mb := pow_add 2 f.eb f.mb
  unfold FFmt.encodeFin
  generalize (if neg then 2 ^ (f.eb + f.mb) else 0) = sgn at sign
  dsimp only
  split
  · have := Nat.two_pow_pos (f.eb + f.mb)
    omega
  · rename_i ha
    have hpos : 0 < a := lt_of_le_of_ne h0 (Ne.symm ha)
    have hlog : Int.log 2 a < (2 ^ f.eb : Int) - f.bias := (lt_zpow_iff_log_lt hpos).mp h
    rw [ilog2_eq_log hpos]
    set e := max (Int.log 2 a) (1 - f.bias) with he
    have one : (2 : Int) ≤ 2 ^ f.eb := by
      calc (2 : Int) = 2 ^ 1 := rfl
        _ ≤ 2 ^ f.eb := pow_le_pow_right₀ (by norm_num) heb
    have exponent : (e + f.bias).toNat + 1 ≤ 2 ^ f.eb := by
      have : ((2 ^ f.eb : Nat) : Int) = 2 ^ f.eb := by push_cast; rfl
      omega
    have mantissa : (a / pow2 (e - f.mb)).floor.toNat < 2 ^ (f.mb + 1) := floor_div_pow2_lt hpos (le_max_left _ _) f.mb
    generalize (a / pow2 (e - f.mb)).floor.toNat = m at mantissa
    have binade : 2 ^ (f.mb + 1) = 2 ^ f.mb + 2 ^ f.mb := by ring
    have rows : ((e + f.bias).toNat + 1) * 2 ^ f.mb ≤ 2 ^ f.eb * 2 ^ f.mb := Nat.mul_le_mul_right _ exponent
    rw [Nat.add_mul, Nat.one_mul] at rows
    split <;> omega

/-- A conversion into a format gives one of its codes. -/
theorem FFmt.Sound.round_lt {f : FFmt} (hf : f.Sound) (r : Rnd) (v : FVal) : (f.round r v).1 < 2 ^ f.width := by
  have half := f.two_pow_width
  have pos := Nat.two_pow_pos (f.eb + f.mb)
  have infinite (neg : Bool) : (if neg then 2 ^ (f.eb + f.mb) else 0) + (2 ^ f.eb - 1) * 2 ^ f.mb < 2 ^ f.width := by
    have sign := f.sign_le neg
    have top : (2 ^ f.eb - 1) * 2 ^ f.mb = 2 ^ (f.eb + f.mb) - 2 ^ f.mb := by rw [Nat.sub_mul, one_mul, pow_add]
    have := Nat.two_pow_pos f.mb
    omega
  have largest (neg : Bool) : f.encodeFin neg f.maxFin < 2 ^ f.width := FFmt.encodeFin_lt hf.eb neg hf.maxFin hf.top
  cases v with
  | nan => exact hf.canon
  | inf neg =>
    unfold FFmt.round
    dsimp only
    split
    · exact infinite neg
    · exact largest neg
  | fin neg q =>
    unfold FFmt.round
    dsimp only
    split
    · have sign := f.sign_le neg
      simp only
      omega
    · split
      · split
        · exact largest neg
        · exact infinite neg
      · rename_i hb
        exact FFmt.encodeFin_lt hf.eb neg (roundMag_nonneg r neg |q| (pow2_pos _).le) ((not_lt.mp hb).trans_lt hf.top)

/-- The canonical codes of R51. -/
theorem canon_of_fmtOf {code : Nat} {f : FFmt} (h : fmtOf code = some f) :
    f.canon = [0x7FC00000, 0x7FC0, 0x7E00, 0x7F, 0x7E].getD code 0 ∧ f.decode f.canon = .nan := by
  match code with
  | 0 | 1 | 2 | 3 | 4 =>
    cases h
    exact ⟨rfl, by decide +kernel⟩
  | n + 5 => cases h

end Sys2Proof.Machine

open Sys2Proof Sys2Proof.Machine Sys2Proof.Claims

/-- Settles O4: a rounded NaN is the format's canonical code, whatever code it was decoded from. -/
theorem nanResultsAreCanonical : Obligations.NanResultsAreCanonical := by
  intro code f m h
  obtain ⟨canon, isNan⟩ := canon_of_fmtOf h
  refine ⟨canon, canon ▸ isNan, fun g k c _ _ hn => ?_⟩
  rw [hn]
  exact canon

end

section
/-! PROOF. The values of stored element codes, and what quantising to Q8 writes (R57, R59, R61 to R64, R69). -/

namespace Sys2Proof.Machine

/-! ### Element codes and scales -/

theorem signedOf_eq_toInt {n : Nat} (h : 0 < n) (v : Nat) : signedOf n v = (BitVec.ofNat n v).toInt := by
  obtain ⟨k, rfl⟩ : ∃ k, n = k + 1 := ⟨n - 1, by omega⟩
  have double : 2 ^ (k + 1) = 2 * 2 ^ k := by ring
  rw [signedOf, BitVec.toInt_eq_toNat_cond, BitVec.toNat_ofNat, Nat.add_sub_cancel]
  refine if_congr ?_ rfl rfl
  omega

theorem codeVal_q8 (c : Nat) : codeVal 5 c = ((BitVec.ofNat 8 c).toInt : ℚ) := congrArg Int.cast (signedOf_eq_toInt (by decide) c)

theorem codeVal_q4 (c : Nat) : codeVal 7 c = ((BitVec.ofNat 4 c).toInt : ℚ) := congrArg Int.cast (signedOf_eq_toInt (by decide) c)

/-- The upper eight codes of F4 are the lower eight, negated (Table 02-4). -/
theorem codeVal_f4 {c : Nat} (h : c < 8) :
    codeVal 6 c = [0, 1 / 2, 1, 3 / 2, 2, 3, 4, 6].getD c 0 ∧ codeVal 6 (c + 8) = -codeVal 6 c := by
  have mag : f4Mag (c + 8) = f4Mag c := by
    unfold f4Mag
    rw [Nat.add_mod_right]
  simp only [codeVal, mag, if_pos (Nat.le_add_left 8 c), if_neg (not_le.mpr h), and_true]
  interval_cases c <;> rfl

/-- A byte of digits to the base 3 holds each of them. -/
theorem tritOf_digits {t : List Nat} (h : ∀ d ∈ t, d < 3) {i : Nat} (hi : i < t.length) :
    tritOf (t.zipIdx.map fun d => d.1 * 3 ^ d.2).sum i = t[i] := by
  have digits : (t.zipIdx.map fun d => d.1 * 3 ^ d.2).sum = Nat.ofDigits 3 t := by
    rw [Nat.ofDigits_eq_sum_mapIdx, List.mapIdx_eq_zipIdx_map]
  rw [tritOf, digits, Nat.ofDigits_div_pow_eq_ofDigits_drop i (by decide) t h, List.drop_eq_getElem_cons hi, Nat.ofDigits_cons,
    Nat.add_mul_mod_self_left, Nat.mod_eq_of_lt (h _ (List.getElem_mem hi))]

theorem scaleVal_f4 {e : Nat} (h : e < 255) : scaleVal 6 e = .fin false ((2 : ℚ) ^ ((e : Int) - 127)) := by
  rw [scaleVal, if_pos rfl, if_neg (by omega), pow2_eq_zpow]

/-! ### Quantising to Q8 (R61) -/

/-- The signed number of a magnitude. -/
def withSign (neg : Bool) (k : Nat) : Int := if neg then -k else k

theorem abs_withSign (neg : Bool) (k : Nat) : |withSign neg k| = k := by
  cases neg <;> simp [withSign]

theorem abs_withSign_min_le (neg : Bool) (k : Nat) : |withSign neg (min k 127)| ≤ 127 := by
  rw [abs_withSign]
  omega

theorem codeFor_q8 (neg : Bool) (k : Nat) : codeFor 5 neg k = (BitVec.ofInt 8 (withSign neg k)).toNat := by
  have whole : (if neg then -(k : ℚ) else k) = ((withSign neg k : Int) : ℚ) := by cases neg <;> simp [withSign]
  simp only [codeFor, whole, Rat.floor_intCast, codeOf, BitVec.toNat_ofInt]

/-- On Q8's grid a magnitude becomes a whole number; to nearest, 127.5 goes to 127, the largest code value. -/
theorem roundElem_q8 (r : Rnd) (neg : Bool) (a : ℚ) :
    roundElem 5 r neg a = if r = .rne ∧ a = 255 / 2 then 127 else roundMag r neg a 1 := by
  have tie : ((127 : ℚ) + (127 + 1)) / 2 = 255 / 2 := by norm_num
  cases r with
  | rne =>
    have grid : roundElem 5 .rne neg a = if a = (127 + (127 + 1)) / 2 then 127 else roundMag .rne neg a 1 := rfl
    simp only [grid, tie, true_and]
  | sr u => exact (if_neg fun h => Rnd.noConfusion h.1).symm

theorem exists_roundElem_q8 (r : Rnd) (neg : Bool) (a : ℚ) : ∃ k : Nat, roundElem 5 r neg a = k := by
  obtain ⟨k, hk⟩ := exists_roundMag r neg a 1
  rw [roundElem_q8, hk, mul_one]
  split
  · exact ⟨127, rfl⟩
  · exact ⟨k, rfl⟩

/-- The result of quantising a finite value to Q8: its rounded magnitude, no more than 127, with its sign. -/
theorem quantQ8_fin (r : Rnd) (neg : Bool) (q ts : ℚ) {k : Nat} (hk : roundElem 5 r neg (|q| / ts) = k) :
    quantQ8 r (.fin neg q) ts = ((BitVec.ofInt 8 (withSign neg (min k 127))).toNat, (withSign neg (min k 127) : ℚ), decide (127 < k)) := by
  have low : ¬ (k : ℚ) < -127 := not_lt.mpr ((neg_nonpos.mpr (by norm_num)).trans k.cast_nonneg)
  have clipped : (if (127 : ℚ) < k then 127 else (k : ℚ)) = ((min k 127 : Nat) : ℚ) := by
    rw [Nat.cast_min, min_comm, min_def_lt]
    rfl
  have clips : decide ((127 : ℚ) < k) = decide (127 < k) := decide_eq_decide.mpr (Nat.cast_lt (α := ℚ) (m := 127))
  simp only [quantQ8, quantElem, maxCode, hk, low, or_false, if_false, clipped, clips, codeFor_q8]
  cases neg <;> simp [withSign]

/-- Quantising to Q8 writes the code of a number from −127 to 127, of a NaN the code of 0. -/
theorem exists_quantQ8 (m : Rnd) (x : FVal) (ts : ℚ) : ∃ n : Int, -127 ≤ n ∧ n ≤ 127 ∧ (quantQ8 m x ts).1 = (BitVec.ofInt 8 n).toNat := by
  have bound (neg : Bool) (k : Nat) := abs_le.mp (abs_withSign_min_le neg k)
  cases x with
  | nan => exact ⟨0, by decide, by decide, rfl⟩
  | inf neg => exact ⟨withSign neg 127, (bound neg 127).1, (bound neg 127).2, codeFor_q8 neg 127⟩
  | fin neg q =>
    obtain ⟨k, hk⟩ := exists_roundElem_q8 m neg (|q| / ts)
    exact ⟨_, (bound neg k).1, (bound neg k).2, congrArg Prod.fst (quantQ8_fin m neg q ts hk)⟩

theorem quantQ8_lt (m : Rnd) (x : FVal) (ts : ℚ) : (quantQ8 m x ts).1 < 256 := by
  obtain ⟨n, -, -, code⟩ := exists_quantQ8 m x ts
  exact code ▸ (BitVec.ofInt 8 n).isLt

/-- To nearest, a magnitude that no grid point beyond 127 is as near to becomes the nearest whole number. -/
theorem roundElem_q8_rne (neg : Bool) {a : ℚ} (h : a ≤ 127 ∨ 128 ≤ a) : roundElem 5 .rne neg a = rneNat a := by
  have tie : a ≠ 255 / 2 := by rintro rfl; norm_num at h
  rw [roundElem_q8, if_neg (fun e => tie e.2), roundMag, div_one, mul_one]

/-- Quantising to Q8 to nearest: the nearest integer up to a quotient of 127, a clip at ±127 from 128 on. -/
theorem quantQ8_rne {neg : Bool} {q ts : ℚ} (hts : 0 < ts) (hneg : neg = decide (q < 0)) :
    ∃ n : Int, -127 ≤ n ∧ n ≤ 127 ∧ (quantQ8 .rne (.fin neg q) ts).1 = (BitVec.ofInt 8 n).toNat ∧ (quantQ8 .rne (.fin neg q) ts).2.1 = n ∧
      (|q / ts| ≤ 127 → |q / ts - n| ≤ 1 / 2) ∧ (128 ≤ |q / ts| → (quantQ8 .rne (.fin neg q) ts).2.2 = true ∧ |n| = 127) := by
  obtain ⟨k, hk⟩ := exists_roundElem_q8 .rne neg (|q| / ts)
  have magnitude : |q / ts| = |q| / ts := by rw [abs_div, abs_of_pos hts]
  have bounds := abs_le.mp (abs_withSign_min_le neg k)
  have near (h : |q| / ts ≤ 127 ∨ 128 ≤ |q| / ts) : |(|q| / ts) - k| ≤ 1 / 2 := by
    rw [← hk, roundElem_q8_rne neg h]
    exact abs_sub_rneNat (by positivity)
  rw [magnitude, quantQ8_fin .rne neg q ts hk]
  refine ⟨withSign neg (min k 127), bounds.1, bounds.2, rfl, rfl, fun h => ?_, fun h => ?_⟩
  · have inside := abs_le.mp (near (.inl h))
    have small : k < 128 := by
      rw [← Nat.cast_lt (α := ℚ)]
      push_cast
      linarith
    have signed : q / ts - (withSign neg k : ℚ) = if neg then -(|q| / ts - k) else |q| / ts - k := by
      subst hneg
      by_cases hq : q < 0
      · simp only [hq, withSign, decide_true, if_true, abs_of_neg]
        push_cast
        ring
      · simp [hq, withSign, abs_of_nonneg (not_lt.mp hq)]
    rw [min_eq_left (by omega), signed]
    cases neg
    · exact near (.inl h)
    · exact (abs_neg _).trans_le (near (.inl h))
  · have inside := abs_le.mp (near (.inr h))
    have large : 127 < k := by
      rw [← Nat.cast_lt (α := ℚ)]
      push_cast
      linarith
    rw [abs_withSign, min_eq_right large.le]
    exact ⟨decide_eq_true large, rfl⟩

end Sys2Proof.Machine

open Sys2Proof Sys2Proof.Machine Sys2Proof.Claims

/-- Settles O20: a rounded magnitude is limited to 127 before its sign comes to it; a NaN gives the zero code. -/
theorem q8ElementsAreTwosComplement : Obligations.Q8ElementsAreTwosComplement :=
  ⟨fun c _ => codeVal_q8 c, (codeVal_q8 0x80).trans (by norm_num [show (0x80#8).toInt = -128 by decide]), fun m x ts _ => exists_quantQ8 m x ts⟩

end

section
/-! PROOF. The shelf's byte code, and what reads and writes of shelf regions leave in its cells (R102, R234 to R239, R262). -/

namespace Sys2Proof.Machine

open Sys2Proof.Claims

/-! ### The byte code (R234, R235) -/

theorem byteCheck_lt (d : Nat) : byteCheck d < 32 := by
  have parity (v : Nat) : par8 v < 2 := Nat.mod_lt _ (by decide)
  have := parity (d &&& 0x5B)
  have := parity (d &&& 0xAD)
  have := parity (d &&& 0x36)
  have := parity (d &&& 0xC7)
  have := parity (d &&& 0xF8)
  unfold byteCheck
  omega

theorem byteCode_toNat (b : Byte) : (byteCode b).toNat = b.toNat + 256 * byteCheck b.toNat := by
  have := byteCheck_lt b.toNat
  have := b.isLt
  exact Nat.mod_eq_of_lt (by omega)

theorem byteRead_byteCode (b : Byte) : byteRead (byteCode b) = ⟨b, false, false⟩ := by
  have hb := b.isLt
  have high : (b.toNat + 256 * byteCheck b.toNat) / 256 = byteCheck b.toNat := by omega
  have low : (b.toNat + 256 * byteCheck b.toNat) % 256 = b.toNat := by omega
  have syndrome : byteSyn (byteCode b) = 0 := by rw [byteSyn, byteCode_toNat, high, low, Nat.xor_self]
  have data : BitVec.ofNat 8 (byteCode b).toNat = b := by
    refine BitVec.eq_of_toNat_eq ?_
    rw [byteCode_toNat, BitVec.toNat_ofNat]
    exact low
  rw [byteRead, syndrome, data]
  rfl

/-- A corrected byte is good. -/
theorem byteRead_good {w : BitVec 13} (h : (byteRead w).corrected = true) : (byteRead w).bad = false := by
  revert h
  unfold byteRead
  dsimp only
  split_ifs <;> simp

@[simp] theorem clean_toNat (b : Byte) : (clean b).toNat = b.toNat := Nat.mod_eq_of_lt (by omega)

/-- A byte that is stored clean reads as it was stored. -/
theorem marked_read_clean (b : Byte) : (byteRead (markedCode (clean b))).marked = clean b := by
  have unmarked : (clean b).getLsbD 8 = false := by
    rw [BitVec.getLsbD, clean_toNat]
    exact Nat.testBit_lt_two_pow b.isLt
  rw [markedCode, unmarked, clean_toNat, BitVec.ofNat_toNat, BitVec.setWidth_eq]
  exact congrArg ByteRead.marked (byteRead_byteCode b)

/-- A code word that was corrected reads, written back, as it read before. -/
theorem marked_read_corrected {w : BitVec 13} (h : (byteRead w).corrected = true) :
    (byteRead (byteCode (byteRead w).val)).marked = (byteRead w).marked := by
  rw [byteRead_byteCode, ByteRead.marked, ByteRead.marked, byteRead_good h]

/-! ### Stores written in a list's order -/

theorem SMap.get_foldl_put_other {α β : Type} [DecidableEq α] {d : α} {key : β → Nat} {val : β → α} {l : List β} {k : Nat}
    (h : ∀ b ∈ l, key b ≠ k) (m : SMap α) : SMap.get d (l.foldl (fun m b => SMap.put d m (key b) (val b)) m) k = SMap.get d m k :=
  List.foldlRecOn l _ (motive := fun x => SMap.get d x k = SMap.get d m k) rfl fun _ hx b hb =>
    (SMap.get_put_other _ _ (h b hb).symm).trans hx

/-- A key at which every write of the list puts the same value. -/
theorem SMap.get_foldl_put_of_mem {α β : Type} [DecidableEq α] {d : α} {key : β → Nat} {val : β → α} {l : List β} {b : β} (hb : b ∈ l)
    (h : ∀ a ∈ l, key a = key b → val a = val b) (m : SMap α) :
    SMap.get d (l.foldl (fun m b => SMap.put d m (key b) (val b)) m) (key b) = val b := by
  induction l generalizing m b with
  | nil => cases hb
  | cons a l ih =>
    by_cases later : ∃ c ∈ l, key c = key b
    · obtain ⟨c, hc, same⟩ := later
      have value := h c (List.mem_cons_of_mem a hc) same
      rw [List.foldl_cons, ← same, ← value]
      exact ih hc (fun x hx e => (h x (List.mem_cons_of_mem a hx) (e.trans same)).trans value.symm) _
    · obtain rfl : b = a := (List.mem_cons.mp hb).resolve_right fun hl => later ⟨b, hl, rfl⟩
      rw [List.foldl_cons, SMap.get_foldl_put_other (fun c hc e => later ⟨c, hc, e⟩), SMap.get_put_self]

/-! ### Writes of the shelf -/

/-- The flip mask of a cluster's shelf is not armed (R262). -/
def State.Unarmed (s : State) (t c : Nat) : Prop := bit (s.reg ⟨.shfFlipmask, t, c, 0, 0⟩) 63 = false

/-- Writes of the shelf touch its cells and its flip mask alone. -/
theorem State.shelfPuts_frame (s : State) (t c : Nat) (bs : List (Nat × BitVec 9)) :
    { s.shelfPuts t c bs with regs := s.regs, mem := s.mem } = s := by
  refine List.foldlRecOn bs _ (motive := fun (u : State) => { u with regs := s.regs, mem := s.mem } = s) rfl fun u hu b _ => ?_
  refine Eq.trans ?_ hu
  unfold State.shelfPut
  dsimp only [State.modMem]
  split <;> rfl

theorem State.shelfPuts_tes (s : State) (t c : Nat) (bs : List (Nat × BitVec 9)) : (s.shelfPuts t c bs).tes = s.tes := by
  have frame := congrArg State.tes (s.shelfPuts_frame t c bs)
  exact frame

theorem State.shelfPuts_clusters (s : State) (t c : Nat) (bs : List (Nat × BitVec 9)) : (s.shelfPuts t c bs).clusters = s.clusters := by
  have frame := congrArg State.clusters (s.shelfPuts_frame t c bs)
  exact frame

theorem State.shelfPuts_unarmed {s : State} {t c : Nat} (h : s.Unarmed t c) (bs : List (Nat × BitVec 9)) :
    s.shelfPuts t c bs = s.modMem fun m =>
      { m with shelf := bs.foldl (fun h b => SMap.put 0#13 h (s.shelfKey t c b.1) (markedCode b.2)) m.shelf } := by
  induction bs generalizing s with
  | nil => rfl
  | cons b bs ih =>
    have first : s.shelfPut t c b.1 b.2 = s.modMem fun m => { m with shelf := SMap.put 0#13 m.shelf (s.shelfKey t c b.1) (markedCode b.2) } := by
      rw [State.Unarmed] at h
      simp only [State.shelfPut, h, Bool.false_and, Bool.false_eq_true, if_false]
    rw [State.shelfPuts, List.foldl_cons, first]
    exact ih (s := s.modMem _) h

theorem State.codeByte_shelfPuts_other {s : State} {t c : Nat} (h : s.Unarmed t c) {bs : List (Nat × BitVec 9)} {k : Nat}
    (hk : ∀ b ∈ bs, k ≠ s.shelfKey t c b.1) : codeByte (s.shelfPuts t c bs) k = codeByte s k := by
  rw [State.shelfPuts_unarmed h]
  exact congrArg (fun w => (byteRead w).marked) (SMap.get_foldl_put_other (fun b hb => (hk b hb).symm) _)

theorem State.shelfByte_shelfPuts {s : State} {t c : Nat} (h : s.Unarmed t c) {bs : List (Nat × BitVec 9)} {off : Nat} {v : Byte}
    (hv : (off, clean v) ∈ bs) (same : ∀ b ∈ bs, b.1 = off → b.2 = clean v) : Claims.shelfByte (s.shelfPuts t c bs) t c off = clean v := by
  have cell := SMap.get_foldl_put_of_mem (d := 0#13) (key := fun b : Nat × BitVec 9 => s.shelfKey t c b.1) (val := fun b => markedCode b.2) hv
    (fun b hb e => congrArg markedCode (same b hb (Nat.add_left_cancel e))) s.mem.shelf
  rw [State.shelfPuts_unarmed h]
  exact (congrArg (fun w => (byteRead w).marked) cell).trans (marked_read_clean v)

/-! ### Tensors of little-endian elements (R54, R102) -/

/-- Bytes at offsets from a base, as clean marked bytes. -/
def shelfPairs (base : Nat) (bs : List (Nat × Byte)) : List (Nat × BitVec 9) := bs.map fun b => (base + b.1, clean b.2)

/-- The bytes of rows of n elements of w bytes each, a stride apart. -/
def gridBytes (stride w rows n : Nat) (code : Nat → Nat → Nat) : List (Nat × Byte) :=
  (List.range rows).flatMap fun i => (List.range n).flatMap fun j => placed (i * stride + j * w) (leBytes w (code i j))

theorem ofNat_mod_256 (v : Nat) : BitVec.ofNat 8 (v % 256) = BitVec.ofNat 8 v := BitVec.eq_of_toNat_eq (by simp)

theorem getElem?_leBytes (n v i : Nat) : (leBytes n v)[i]? = if i < n then some (byteNo v i) else none := by
  induction n generalizing v i with
  | zero => simp [leBytes]
  | succ n ih =>
    cases i with
    | zero => simp [leBytes, byteNo, ofNat_mod_256]
    | succ i => simp [leBytes, ih, byteNo, Nat.div_div_eq_div_mul, pow_succ, mul_comm]

theorem map_zip_range {α : Type} (off : Nat) (l : List α) :
    ((List.range l.length).zip l).map (fun e => (off + e.1, e.2)) = (l.zipIdx off).map Prod.swap := by
  rw [List.zipIdx_eq_zip_range', List.zip_swap, List.range'_eq_map_range, List.zip_map_left]
  rfl

theorem placed_eq (off : Nat) (bs : List Byte) : placed off bs = (bs.zipIdx off).map Prod.swap := map_zip_range off bs

theorem mem_placed {off : Nat} {bs : List Byte} {e : Nat × Byte} : e ∈ placed off bs ↔ ∃ i, bs[i]? = some e.2 ∧ e.1 = off + i := by
  obtain ⟨o, v⟩ := e
  simp only [placed_eq, List.mem_map, Prod.exists, Prod.swap_prod_mk, Prod.mk.injEq, List.mk_mem_zipIdx_iff_le_and_getElem?_sub]
  constructor
  · rintro ⟨_, _, ⟨le, h⟩, rfl, rfl⟩
    exact ⟨_, h, by omega⟩
  · rintro ⟨i, h, rfl⟩
    exact ⟨v, off + i, ⟨by omega, by rwa [Nat.add_sub_cancel_left]⟩, rfl, rfl⟩

theorem placed_append (off : Nat) (as bs : List Byte) : placed off (as ++ bs) = placed off as ++ placed (off + as.length) bs := by
  simp only [placed_eq, List.zipIdx_append, List.map_append]

/-- A row's elements one after another. -/
theorem placed_flatMap_leBytes (off w n : Nat) (code : Nat → Nat) :
    placed off ((List.range n).flatMap fun j => leBytes w (code j)) = (List.range n).flatMap fun j => placed (off + j * w) (leBytes w (code j)) := by
  induction n with
  | zero => rfl
  | succ n ih =>
    have size : ((List.range n).flatMap fun j => leBytes w (code j)).length = n * w := by simp [List.length_flatMap]
    simp only [List.range_succ, List.flatMap_append, placed_append, ih, size, List.flatMap_singleton]

theorem numbered_map_clean (base off : Nat) (bs : List Byte) : numbered (base + off) (bs.map clean) = shelfPairs base (placed off bs) := by
  simp only [numbered, shelfPairs, placed, List.zip_map_right, List.map_map, List.length_map]
  exact List.map_congr_left fun e _ => Prod.ext (Nat.add_assoc base off e.1) rfl

theorem mem_gridBytes {stride w rows n : Nat} {code : Nat → Nat → Nat} {e : Nat × Byte} : e ∈ gridBytes stride w rows n code ↔
    ∃ i j b, i < rows ∧ j < n ∧ b < w ∧ e = (i * stride + j * w + b, byteNo (code i j) b) := by
  simp only [gridBytes, List.mem_flatMap, List.mem_range, mem_placed, getElem?_leBytes, Option.ite_none_right_eq_some, Option.some.injEq, Prod.ext_iff]
  constructor
  · rintro ⟨i, hi, j, hj, b, ⟨hb, hv⟩, ho⟩
    exact ⟨i, j, b, hi, hj, hb, ho, hv.symm⟩
  · rintro ⟨i, j, b, hi, hj, hb, ho, hv⟩
    exact ⟨i, hi, j, hj, b, ⟨hb, hv.symm⟩, ho⟩

/-- Digits of two bases that a number shares. -/
theorem mul_add_inj {a b r q m : Nat} (hr : r < m) (hq : q < m) (h : a * m + r = b * m + q) : a = b ∧ r = q := by
  have quotients := congrArg (· / m) h
  have hm : 0 < m := by omega
  simp only [Nat.mul_comm _ m, Nat.mul_add_div hm, Nat.div_eq_of_lt hr, Nat.div_eq_of_lt hq, Nat.add_zero] at quotients
  subst quotients
  exact ⟨rfl, Nat.add_left_cancel h⟩

theorem elem_end_le {j n w b stride : Nat} (hj : j < n) (hb : b < w) (hs : n * w ≤ stride) : j * w + b < stride := by
  have := Nat.mul_le_mul_right w (show j + 1 ≤ n from hj)
  rw [Nat.add_mul, Nat.one_mul] at this
  omega

/-- A tensor written into the shelf, no row longer than the stride: every element's bytes, and no other cell. -/
theorem State.shelfPuts_grid {s : State} {t c : Nat} (h : s.Unarmed t c) (base : Nat) {stride w n : Nat} (hs : n * w ≤ stride) (rows : Nat)
    (code : Nat → Nat → Nat) :
    (∀ i j b, i < rows → j < n → b < w →
      Claims.shelfByte (s.shelfPuts t c (shelfPairs base (gridBytes stride w rows n code))) t c (base + i * stride + j * w + b) =
        clean (byteNo (code i j) b)) ∧
    ∀ k, (∀ i j b, i < rows → j < n → b < w → k ≠ s.shelfKey t c (base + i * stride + j * w + b)) →
      codeByte (s.shelfPuts t c (shelfPairs base (gridBytes stride w rows n code))) k = codeByte s k := by
  have mem (e : Nat × BitVec 9) : e ∈ shelfPairs base (gridBytes stride w rows n code) ↔
      ∃ i j b, i < rows ∧ j < n ∧ b < w ∧ e = (base + i * stride + j * w + b, clean (byteNo (code i j) b)) := by
    simp only [shelfPairs, List.mem_map, mem_gridBytes]
    constructor
    · rintro ⟨_, ⟨i, j, b, hi, hj, hb, rfl⟩, rfl⟩
      exact ⟨i, j, b, hi, hj, hb, by simp only [Nat.add_assoc]⟩
    · rintro ⟨i, j, b, hi, hj, hb, rfl⟩
      exact ⟨_, ⟨i, j, b, hi, hj, hb, rfl⟩, by simp only [Nat.add_assoc]⟩
  constructor
  · intro i j b hi hj hb
    refine State.shelfByte_shelfPuts h ((mem _).mpr ⟨i, j, b, hi, hj, hb, rfl⟩) fun e he place => ?_
    obtain ⟨i', j', b', -, hj', hb', rfl⟩ := (mem e).mp he
    have rowsAlike := mul_add_inj (elem_end_le hj' hb' hs) (elem_end_le hj hb hs) (show i' * stride + (j' * w + b') = i * stride + (j * w + b) by
      simp only at place
      omega)
    obtain ⟨rfl, offsets⟩ := rowsAlike
    obtain ⟨rfl, rfl⟩ := mul_add_inj hb' hb offsets
    rfl
  · intro k hk
    refine State.codeByte_shelfPuts_other h fun e he => ?_
    obtain ⟨i, j, b, hi, hj, hb, rfl⟩ := (mem e).mp he
    exact hk i j b hi hj hb

/-- The number that bytes written from a number hold. -/
theorem shelfValue_of_bytes {s : State} {t c off n v : Nat} (h : ∀ i, i < n → Claims.shelfByte s t c (off + i) = clean (byteNo v i)) :
    shelfValue s t c off n = v % 256 ^ n := by
  induction n with
  | zero => simp [shelfValue, Nat.mod_one]
  | succ n ih =>
    have low := ih fun i hi => h i (by omega)
    have top : (byteNo v n).toNat = v / 256 ^ n % 256 := BitVec.toNat_ofNat _ _
    unfold shelfValue at low ⊢
    rw [List.range_succ, List.map_append, List.sum_append, low, List.map_singleton, List.sum_singleton, h n (by omega), clean_toNat, top,
      Nat.mod_mod, Nat.mod_pow_succ, Nat.mul_comm]

end Sys2Proof.Machine
end

section
/-! PROOF. Reads of shelf regions write corrected code words back and count errors; no byte reads otherwise afterwards (R239, R437). -/

namespace Sys2Proof.Machine

open Sys2Proof.Claims

/-- What thread engines, memories and towers hold: all that the converters' shelf accesses go by. -/
def State.engines (s : State) : SMap TeSt × Mem × SMap Tower := (s.tes, s.mem, s.towers)

/-- u is s after reads of cluster (t, c)'s shelf: every byte reads as before. -/
structure CellsRead (s u : State) (t c : Nat) : Prop where
  cells : ∀ k, codeByte u k = codeByte s k
  flipmask : u.reg ⟨.shfFlipmask, t, c, 0, 0⟩ = s.reg ⟨.shfFlipmask, t, c, 0, 0⟩
  parts : u.tes = s.tes ∧ u.towers = s.towers

theorem CellsRead.refl (s : State) (t c : Nat) : CellsRead s s t c := ⟨fun _ => rfl, rfl, rfl, rfl⟩

theorem CellsRead.trans {s u v : State} {t c : Nat} (h : CellsRead s u t c) (g : CellsRead u v t c) : CellsRead s v t c :=
  ⟨fun k => (g.cells k).trans (h.cells k), g.flipmask.trans h.flipmask, g.parts.1.trans h.parts.1, g.parts.2.trans h.parts.2⟩

theorem CellsRead.foldl {α : Type} {s : State} {t c : Nat} {f : State → α → State} (h : ∀ u a, CellsRead u (f u a) t c) (l : List α) :
    CellsRead s (l.foldl f s) t c :=
  List.foldlRecOn l f (motive := fun u => CellsRead s u t c) (.refl s t c) fun u hu a _ => hu.trans (h u a)

theorem shfErrCnt_key (t c : Nat) : Loc.key ⟨.shfFlipmask, t, c, 0, 0⟩ ≠ Loc.key ⟨.shfErrCnt, t, c, 0, 0⟩ := by
  simp only [Loc.key, RegName.shared, RegName.unitBase, RegName.place, Bool.false_eq_true, if_false]
  omega

/-- Errors counted in the shelf's own register. -/
theorem CellsRead.bump (s : State) {f : Fld} (h : f.reg = .shfErrCnt) (n t c : Nat) : CellsRead s (s.bump f n t c) t c :=
  ⟨fun _ => rfl, State.reg_bump_other s f n t c 0 0 (h ▸ shfErrCnt_key t c), rfl, rfl⟩

theorem CellsRead.ce (s : State) (n t c : Nat) : CellsRead s (s.ce n) t c := by
  unfold State.ce
  split
  · exact .refl s t c
  · exact ⟨fun _ => rfl, rfl, rfl, rfl⟩

/-- The bytes of n cells that a read corrects, by their places. -/
def State.correctedCells (s : State) (k n : Nat) : List (Nat × ByteRead) :=
  ((List.range n).map fun i => (i, byteRead (SMap.get 0#13 s.mem.shelf (k + i)))).filter fun r => r.2.corrected

/-- Corrected code words written back. -/
theorem CellsRead.putBack (s : State) (t c k n : Nat) : CellsRead s (s.modMem fun m =>
    { m with shelf := (s.correctedCells k n).foldl (fun h r => SMap.put 0#13 h (k + r.1) (byteCode r.2.val)) m.shelf }) t c := by
  have source (r : Nat × ByteRead) (hr : r ∈ s.correctedCells k n) : r.2 = byteRead (SMap.get 0#13 s.mem.shelf (k + r.1)) ∧ r.2.corrected = true := by
    obtain ⟨listed, corrected⟩ := List.mem_filter.mp hr
    obtain ⟨i, -, rfl⟩ := List.mem_map.mp listed
    exact ⟨rfl, corrected⟩
  refine ⟨fun x => ?_, rfl, rfl, rfl⟩
  by_cases hx : ∃ r ∈ s.correctedCells k n, k + r.1 = x
  · obtain ⟨r, hr, rfl⟩ := hx
    obtain ⟨read, corrected⟩ := source r hr
    have stored := SMap.get_foldl_put_of_mem (d := 0#13) (key := fun r : Nat × ByteRead => k + r.1) (val := fun r => byteCode r.2.val) hr
      (fun a ha e => by rw [(source a ha).1, read, e]) s.mem.shelf
    exact (congrArg (fun w => (byteRead w).marked) stored).trans (by
      rw [read] at corrected ⊢
      exact marked_read_corrected corrected)
  · exact congrArg (fun w => (byteRead w).marked)
      (SMap.get_foldl_put_other (val := fun r : Nat × ByteRead => byteCode r.2.val) (fun r hr e => hx ⟨r, hr, e⟩) s.mem.shelf)

theorem State.shelfRead_cells (s : State) (t c off n : Nat) : CellsRead s (s.shelfRead t c off n).2 t c := by
  have counted (u : State) (h : CellsRead s u t c) (bad : Nat) :
      CellsRead s (if bad = 0 then u else u.bump shfErrCntUncorrectable bad t c) t c := by
    split
    · exact h
    · exact h.trans (.bump u rfl bad t c)
  unfold State.shelfRead
  refine counted _ ?_ _
  split
  · exact .refl s t c
  · exact ((CellsRead.putBack s t c _ n).trans (.bump _ rfl _ t c)).trans (.ce _ _ t c)

/-- The rows of an operand are read (R206). -/
theorem State.touchRows_cells (s : State) (t c : Nat) (o : Opnd) (r0 rows k : Nat) : CellsRead s (s.touchRows t c o r0 rows k) t c := by
  have elements : CellsRead s ((List.range rows).foldl (fun s i => s.shelfTouch t c (o.elem + (r0 + i) * o.stride) (rowBytes o.fmt k)) s) t c :=
    .foldl (fun u _ => u.shelfRead_cells t c _ _) _
  unfold State.touchRows
  dsimp only
  split
  · exact elements.trans (.foldl (fun u _ => u.shelfRead_cells t c _ _) _)
  · exact elements

end Sys2Proof.Machine
end

section
/-! PROOF. The converters' jobs (R205 to R208): what a job writes into the shelf, and how it ends. -/

namespace Sys2Proof.Machine

open Sys2Proof.Claims

/-! ### What counting leaves alone -/

theorem State.modTag_engines (s : State) (t tag : Nat) (f : TagEntry → TagEntry) : (s.modTag t tag f).engines = s.engines := by
  unfold State.modTag
  split <;> rfl

theorem State.noteDecode_engines (s : State) (t tag sprouts clips invalid oClips : Nat) :
    (s.noteDecode t tag sprouts clips invalid oClips).engines = s.engines := s.modTag_engines t tag _

theorem State.noteWrite_engines (s : State) (t c owner tag role fmt : Nat) (q : QCount) :
    (s.noteWrite t c owner tag role fmt q).engines = s.engines := by
  have folded (a : GuardAcc) (f : Cluster → Cluster) : ((s.fold t a).modClu t c f).engines = s.engines := s.modTag_engines t a.tag _
  unfold State.noteWrite
  dsimp only
  split
  · rfl
  · split
    · rfl
    · split
      · split
        · exact folded _ _
        · rfl
      · rfl

theorem State.te_of_engines {s u : State} (h : u.engines = s.engines) (t c e : Nat) : u.te t c e = s.te t c e :=
  keeps_by (fun x => SMap.get default x.1 (teKey t c e)) (State.te · t c e) h

/-- A status may be signalled; the engines do not notice. -/
theorem State.engines_signalled (s : State) (b : Bool) (id st detail : Nat) : (if b then s.signal id st detail else s).engines = s.engines := by
  cases b <;> rfl

theorem State.codeByte_of_engines {s u : State} (h : u.engines = s.engines) (k : Nat) : codeByte u k = codeByte s k :=
  keeps_by (fun x => (byteRead (SMap.get 0#13 x.2.1.shelf k)).marked) (codeByte · k) h

theorem State.shelfKey_of_towers {s u : State} (h : u.towers = s.towers) (t c off : Nat) : u.shelfKey t c off = s.shelfKey t c off :=
  congrArg (fun w => (t * 136 + (17 * gridRow c +
    if SMap.get 0xFF (SMap.get Tower.init w t).spares (gridRow c) = gridCol c then 8 else gridCol c)) * 2 ^ 20 + off) h

theorem State.modTe_engines {s u : State} (h : u.engines = s.engines) (t c e : Nat) (f : TeSt → TeSt) :
    (u.modTe t c e f).engines = (s.modTe t c e f).engines :=
  keeps_by (fun x => (SMap.put default x.1 (teKey t c e) (f (SMap.get default x.1 (teKey t c e))), x.2)) (fun s => (s.modTe t c e f).engines) h

theorem State.modTe_modTe (s : State) (t c e : Nat) (f g : TeSt → TeSt) :
    (s.modTe t c e f).modTe t c e g = s.modTe t c e fun y => g (f y) := by
  simp [State.modTe, State.te]

/-! ### What a job writes -/

/-- A tensor written after reads of the same shelf, and a change of the thread engine: what follows for any machine alike in them. -/
theorem State.grid_of_engines {s v u : State} {t c e : Nat} (read : CellsRead s v t c) (h : s.Unarmed t c) {base stride w rows n : Nat}
    {code : Nat → Nat → Nat} {f : TeSt → TeSt} (hs : n * w ≤ stride)
    (hu : u.engines = ((v.shelfPuts t c (shelfPairs base (gridBytes stride w rows n code))).modTe t c e f).engines) :
    (∀ i j b, i < rows → j < n → b < w → Claims.shelfByte u t c (base + i * stride + j * w + b) = clean (byteNo (code i j) b)) ∧
    ∀ k, (∀ i j b, i < rows → j < n → b < w → k ≠ s.shelfKey t c (base + i * stride + j * w + b)) → codeByte u k = codeByte s k := by
  have unarmed : v.Unarmed t c := (congrArg (bit · 63) read.flipmask).trans h
  obtain ⟨written, others⟩ := State.shelfPuts_grid unarmed base hs rows code
  have cells (k : Nat) : codeByte u k = codeByte (v.shelfPuts t c (shelfPairs base (gridBytes stride w rows n code))) k :=
    State.codeByte_of_engines hu k
  have key (x : Nat) : v.shelfKey t c x = s.shelfKey t c x := State.shelfKey_of_towers read.parts.2 t c x
  have after : u.towers = (v.shelfPuts t c (shelfPairs base (gridBytes stride w rows n code))).towers := congrArg (fun x => x.2.2) hu
  refine ⟨fun i j b hi hj hb => ?_, fun k hk => ?_⟩
  · refine Eq.trans ?_ (written i j b hi hj hb)
    have place := State.shelfKey_of_towers after t c (base + i * stride + j * w + b)
    exact (congrArg (codeByte u) place).trans (cells _)
  · exact ((cells k).trans (others k fun i j b hi hj hb => (key _).symm ▸ hk i j b hi hj hb)).trans (read.cells k)

/-- The thread engine itself. -/
theorem State.te_of_grid {s v u : State} {t c e : Nat} (read : CellsRead s v t c) {bs : List (Nat × BitVec 9)} {f : TeSt → TeSt}
    (hu : u.engines = ((v.shelfPuts t c bs).modTe t c e f).engines) : u.te t c e = f (s.te t c e) := by
  have tes : (v.shelfPuts t c bs).tes = s.tes := (v.shelfPuts_tes t c bs).trans read.parts.1
  rw [State.te_of_engines hu, State.te_modTe]
  exact congrArg (fun x => f (SMap.get default x (teKey t c e))) tes

/-! ### Dequantising (R206) -/

/-- What every step of a fold appends, the fold appends. -/
theorem foldl_appends {σ α β : Type} (see : σ → List β) {f : σ → α → σ} (g : α → List β) (h : ∀ s a, see (f s a) = see s ++ g a)
    (l : List α) (s : σ) : see (l.foldl f s) = see s ++ l.flatMap g := by
  induction l generalizing s with
  | nil => simp
  | cons a l ih => rw [List.foldl_cons, ih, h, List.flatMap_cons, List.append_assoc]

theorem zipIdx_map_range {α : Type} (x : Nat → α) (n : Nat) : ((List.range n).map x).zipIdx = (List.range n).map fun i => (x i, i) := by
  refine List.ext_getElem (by simp) fun i _ _ => ?_
  simp

/-- A row rounded to nearest: the codes' bytes in order, and no draw of a lane. -/
theorem roundRow_rne (fo : FFmt) (lanes : SMap W32) (n : Nat) (x : Nat → FVal) : roundRow fo false lanes ((List.range n).map x) =
    ((List.range n).flatMap fun j => leBytes (fo.width / 8) (fo.round .rne (x j)).1, lanes) := by
  unfold roundRow
  rw [zipIdx_map_range, List.foldl_map]
  refine Prod.ext ?_ ?_
  · exact foldl_appends Prod.fst (fun j => leBytes (fo.width / 8) (fo.round .rne (x j)).1) (fun _ _ => rfl) _ _
  · exact List.foldlRecOn (List.range n) _ (motive := fun a : List Byte × SMap W32 => a.2 = lanes) rfl fun _ h _ _ => h

theorem gridBytes_succ (stride w rows n : Nat) (code : Nat → Nat → Nat) : gridBytes stride w (rows + 1) n code =
    gridBytes stride w rows n code ++ (List.range n).flatMap fun j => placed (rows * stride + j * w) (leBytes w (code rows j)) := by
  rw [gridBytes, List.range_succ, List.flatMap_append, List.flatMap_singleton]
  rfl

theorem shelfPairs_append (base : Nat) (as bs : List (Nat × Byte)) : shelfPairs base (as ++ bs) = shelfPairs base as ++ shelfPairs base bs :=
  List.map_append

theorem State.shelfPuts_append (s : State) (t c : Nat) (as bs : List (Nat × BitVec 9)) :
    s.shelfPuts t c (as ++ bs) = (s.shelfPuts t c as).shelfPuts t c bs := List.foldl_append

/-- Rows rounded to nearest and written one after another. -/
theorem State.roundRows_rne (s : State) (t c base stride : Nat) (fo : FFmt) (lanes : SMap W32) (rows n : Nat) (x : Nat → Nat → Elem) (ts : ℚ) :
    ((List.range rows).map fun i => (List.range n).map (x i)).zipIdx.foldl (fun (a : State × SMap W32) (r : List Elem × Nat) =>
        (a.1.shelfWrite t c (base + r.2 * stride) ((roundRow fo false a.2 (r.1.map fun y => y.value ts)).1.map clean),
          (roundRow fo false a.2 (r.1.map fun y => y.value ts)).2)) (s, lanes) =
      (s.shelfPuts t c (shelfPairs base (gridBytes stride (fo.width / 8) rows n fun i j => (fo.round .rne ((x i j).value ts)).1)), lanes) := by
  rw [zipIdx_map_range, List.foldl_map]
  induction rows with
  | zero => rfl
  | succ rows ih =>
    rw [List.range_succ, List.foldl_append, ih, gridBytes_succ, shelfPairs_append, State.shelfPuts_append, ← placed_flatMap_leBytes]
    simp only [List.foldl_cons, List.foldl_nil, List.map_map, Function.comp_def, roundRow_rne, State.shelfWrite, numbered_map_clean]

theorem State.qcvDeq_engines (s : State) (t c e : Nat) {j : EngJob} (esc : Bool) {fo : FFmt} (hf : fmtOf (qDst j.words) = some fo)
    (hs : qStoch j.words = false) :
    (s.qcvDeq t c e j esc).engines =
      (((s.touchRows t c (qFrom j.words esc) 0 (qRows j.words) (qN j.words)).shelfPuts t c
          (shelfPairs (qTo j.words esc).elem (gridBytes (qTo j.words esc).stride (fo.width / 8) (qRows j.words) (qN j.words) fun i k =>
            (fo.round .rne (((s.plane t c (qFrom j.words esc)).at i k).value (qScale j.words esc))).1))).modTe t c e
        fun y => { y with conv := (s.te t c e).conv, qcvRun := some j }).engines := by
  have rows := (s.touchRows t c (qFrom j.words esc) 0 (qRows j.words) (qN j.words)).roundRows_rne t c (qTo j.words esc).elem
    (qTo j.words esc).stride fo (s.te t c e).conv (qRows j.words) (qN j.words) (s.plane t c (qFrom j.words esc)).at (qScale j.words esc)
  unfold State.qcvDeq
  dsimp only
  rw [hf, hs]
  dsimp only
  generalize hw : List.foldl _ (s.touchRows t c (qFrom j.words esc) 0 (qRows j.words) (qN j.words), (s.te t c e).conv) _ = written
  obtain rfl := rows.symm.trans hw
  generalize (if (qFrom j.words esc).esc = true then ((0, 0, 0) : Nat × Nat × Nat) else _) = counts
  exact (State.engines_signalled _ _ _ _ _).trans (State.modTe_engines (State.noteDecode_engines _ _ _ _ _ _ _) _ _ _ _)

/-! ### Quantising (R206, R208) -/

/-- Rows quantised to Q8 to nearest: the codes' bytes in order, and no scale, stream or segment index. -/
theorem quantRows_q8 {k : QPar} (hf : k.fmt = 5) (he : k.esc = false) (hs : k.stoch = false) (lanes : SMap W32) (rows n : Nat) (x : Nat → Nat → FVal) :
    let a := quantRows k lanes ((List.range rows).map fun i => (List.range n).map (x i))
    a.elems = gridBytes k.stride 1 rows n (fun i j => (quantQ8 .rne (x i j) k.ts).1) ∧ a.scales = [] ∧ a.stream = [] ∧ a.segs = [] := by
  have row (a : QAcc) (i : Nat) (xs : List FVal) : quantRow k a i xs = xs.zipIdx.foldl (fun a x => q8Elem k a i x.2 x.1) a := by
    rw [quantRow, he, if_neg Bool.false_ne_true, if_pos hf]
  have elems (a : QAcc) (i j : Nat) (v : FVal) :
      (q8Elem k a i j v).elems = a.elems ++ placed (i * k.stride + j * 1) (leBytes 1 (quantQ8 .rne v k.ts).1) := by
    rw [q8Elem, hs, Nat.mul_one, leBytes, leBytes, ofNat_mod_256]
    rfl
  have planes (a : QAcc) (i j : Nat) (v : FVal) : ((q8Elem k a i j v).scales, (q8Elem k a i j v).stream, (q8Elem k a i j v).segs) =
      (a.scales, a.stream, a.segs) := rfl
  dsimp only
  unfold quantRows
  simp only [row, zipIdx_map_range, List.foldl_map]
  refine ⟨?_, ?_⟩
  · exact foldl_appends QAcc.elems _ (fun a i => foldl_appends QAcc.elems _ (fun a j => elems a i j (x i j)) _ a) _ _
  · have kept := foldl_keeps (fun a : QAcc => (a.scales, a.stream, a.segs))
      (fun a i => foldl_keeps (fun a : QAcc => (a.scales, a.stream, a.segs)) (fun a j => planes a i j (x i j)) (List.range n) a) (List.range rows)
      (QAcc.init lanes)
    exact ⟨congrArg (fun p => p.1) kept, congrArg (fun p => p.2.1) kept, congrArg (fun p => p.2.2) kept⟩

/-- The parameters of a quantising job. -/
def State.jobPar (s : State) (d : List W64) (esc : Bool) : QPar :=
  { fmt := qDst d, mx := qMxOn d, sprout := qSprout d esc, stoch := qStoch d, tau := s.tau (qTag d), ts := qScale d esc
    stride := (qTo d esc).stride, firstBlock := qFirst d, start := qStart d, cap := qSprLen d, index := qIndex d, esc := esc }

/-- What a quantising job makes of its source. -/
def State.jobAcc (s : State) (t c e : Nat) (d : List W64) (esc : Bool) : QAcc :=
  quantRows (s.jobPar d esc) (s.te t c e).conv
    ((List.range (qRows d)).map fun i => (List.range (qN d)).map fun k => ((s.plane t c (qFrom d esc)).at i k).value 1)

theorem State.qcvQuant_engines (s : State) (t c e : Nat) (j : EngJob) (esc : Bool) :
    (s.qcvQuant t c e j esc).engines =
      (((s.touchRows t c (qFrom j.words esc) 0 (qRows j.words) (qN j.words)).shelfPuts t c
        (shelfPairs (qTo j.words esc).elem (s.jobAcc t c e j.words esc).elems ++
          shelfPairs (qTo j.words esc).scale (s.jobAcc t c e j.words esc).scales ++
          shelfPairs (qSpr j.words) ((s.jobAcc t c e j.words esc).sproutBytes (s.jobPar j.words esc)))).modTe t c e fun y =>
        { y with
          conv := (s.jobAcc t c e j.words esc).lanes
          qcvRun := some { j with words := j.words.set 7 (BitVec.ofNat 64 ((s.jobAcc t c e j.words esc).streamEnd (s.jobPar j.words esc))) } }).engines := by
  have source : (s.qElems t c (qFrom j.words esc) (qRows j.words) (qN j.words)).map (fun r => r.map fun x => x.value 1) =
      (List.range (qRows j.words)).map fun i => (List.range (qN j.words)).map fun k => ((s.plane t c (qFrom j.words esc)).at i k).value 1 := by
    simp only [State.qElems, List.map_map, Function.comp_def]
  unfold State.qcvQuant
  dsimp only
  rw [source, State.shelfPuts_append, State.shelfPuts_append]
  refine (State.modTe_engines ((State.engines_signalled _ _ _ _ _).trans (State.noteWrite_engines _ _ _ _ _ _ _ _)) _ _ _ _).trans ?_
  rw [State.modTe_modTe]
  rfl

/-- Quantising to Q8 to nearest writes the element plane alone. -/
theorem State.qcvQuant_q8_engines (s : State) (t c e : Nat) (j : EngJob) {esc : Bool} (hd : qDst j.words = 5) (he : esc = false)
    (hs : qStoch j.words = false) : ∃ f : TeSt → TeSt,
    (s.qcvQuant t c e j esc).engines =
      (((s.touchRows t c (qFrom j.words esc) 0 (qRows j.words) (qN j.words)).shelfPuts t c
        (shelfPairs (qTo j.words esc).elem (gridBytes (qTo j.words esc).stride 1 (qRows j.words) (qN j.words) fun i k =>
          (quantQ8 .rne (((s.plane t c (qFrom j.words esc)).at i k).value 1) (qScale j.words esc)).1))).modTe t c e f).engines := by
  obtain ⟨elems, scales, stream, segs⟩ := quantRows_q8 (k := s.jobPar j.words esc) hd he hs (s.te t c e).conv (qRows j.words) (qN j.words)
    fun i k => ((s.plane t c (qFrom j.words esc)).at i k).value 1
  have planes : shelfPairs (qTo j.words esc).elem (s.jobAcc t c e j.words esc).elems ++
      shelfPairs (qTo j.words esc).scale (s.jobAcc t c e j.words esc).scales ++
      shelfPairs (qSpr j.words) ((s.jobAcc t c e j.words esc).sproutBytes (s.jobPar j.words esc)) =
      shelfPairs (qTo j.words esc).elem (gridBytes (qTo j.words esc).stride 1 (qRows j.words) (qN j.words) fun i k =>
        (quantQ8 .rne (((s.plane t c (qFrom j.words esc)).at i k).value 1) (qScale j.words esc)).1) := by
    unfold State.jobAcc QAcc.sproutBytes
    rw [elems, scales, stream, segs]
    exact (List.append_nil _).trans (List.append_nil _)
  exact ⟨_, planes ▸ s.qcvQuant_engines t c e j esc⟩

/-! ### Descriptors (R205) -/

theorem qcvOk_rows {d : List W64} {esc : Bool} (h : qcvOk d esc = true) : rowBytes (qTo d esc).fmt (qN d) ≤ (qTo d esc).stride := by
  simp only [qcvOk, Bool.and_eq_true, decide_eq_true_eq] at h
  exact h.1.2

theorem not_qQuant_of_qDeq {d : List W64} (h : qDeq d = true) : qQuant d = false := by
  simp only [qDeq, Bool.and_eq_true, decide_eq_true_eq] at h
  simp only [qQuant, Bool.and_eq_false_iff, decide_eq_false_iff_not]
  omega

/-- Every float format has whole bytes. -/
theorem rowBytes_float {code : Nat} {f : FFmt} (h : fmtOf code = some f) (n : Nat) : rowBytes code n = n * (f.width / 8) := by
  match code with
  | 0 | 1 | 2 | 3 | 4 =>
    cases h
    rfl
  | n + 5 => cases h

theorem pow_256_width {code : Nat} {f : FFmt} (h : fmtOf code = some f) : 256 ^ (f.width / 8) = 2 ^ f.width := by
  match code with
  | 0 | 1 | 2 | 3 | 4 =>
    cases h
    rfl
  | n + 5 => cases h

/-- Only F4 and Q4 tensors escalate (R134). -/
theorem State.qEsc_q8 (s : State) (t : Nat) {d : List W64} (hq : qQuant d = true) (hd : qDst d = 5) : s.qEsc t d = false := by
  have narrow : qNarrow d = 5 := by rw [qNarrow, if_pos hq, hd]
  simp [State.qEsc, State.escFor, narrow]

theorem clean_byteNo_zero {v : Nat} (h : v < 256) : clean (byteNo v 0) = BitVec.ofNat 9 v := by
  rw [clean, byteNo, pow_zero, Nat.div_one, BitVec.toNat_ofNat, Nat.mod_eq_of_lt h]

/-! ### Starts and ends of jobs (R207) -/

theorem exec_qcvJobStart {s : State} {r : CluRef} {e : Fin 4} {j : EngJob} {rest : List EngJob} (idle : (s.te r.t r.c e).qcvRun = none)
    (queued : (s.te r.t r.c e).qcv = j :: rest) (on : (s.clu r.t r.c).dom = .on) :
    exec (.qcvJobStart r e) s = .next (if qQuant j.words
      then (s.modTe r.t r.c e fun y => { y with qcv := rest }).qcvQuant r.t r.c e j (s.qEsc r.t j.words)
      else (s.modTe r.t r.c e fun y => { y with qcv := rest }).qcvDeq r.t r.c e j (s.qEsc r.t j.words)) := by
  change execQcvJobStart r e s = _
  simp only [execQcvJobStart, idle, queued, if_pos on]
  rfl

/-- A dequantising job. -/
theorem qcvJobStart_deq {s : State} {r : CluRef} {e : Fin 4} {j : EngJob} {rest : List EngJob} {fo : FFmt} (unarmed : s.Unarmed r.t r.c)
    (ok : qcvOk j.words (s.qEsc r.t j.words) = true) (idle : (s.te r.t r.c e).qcvRun = none)
    (queued : (s.te r.t r.c e).qcv = j :: rest) (on : (s.clu r.t r.c).dom = .on) (hd : qDeq j.words = true) (hs : qStoch j.words = false)
    (hf : fmtOf (qDst j.words) = some fo) :
    let d := j.words
    let esc := s.qEsc r.t d
    let at_ (i c : Nat) : Nat := (qTo d esc).elem + i * (qTo d esc).stride + c * (fo.width / 8)
    ∃ t, exec (.qcvJobStart r e) s = .next t ∧ t.te r.t r.c e = { s.te r.t r.c e with qcv := rest, qcvRun := some j } ∧
      (∀ i c, i < qRows d → c < qN d → shelfValue t r.t r.c (at_ i c) (fo.width / 8) =
        (fo.round .rne (((s.plane r.t r.c (qFrom d esc)).at i c).value (qScale d esc))).1) ∧
      ∀ k, (∀ i c b, i < qRows d → c < qN d → b < fo.width / 8 → k ≠ s.shelfKey r.t r.c (at_ i c + b)) → codeByte t k = codeByte s k := by
  dsimp only
  let s1 := s.modTe r.t r.c e fun y => { y with qcv := rest }
  have quant := not_qQuant_of_qDeq hd
  have run := exec_qcvJobStart idle queued on
  rw [quant, if_neg Bool.false_ne_true] at run
  have te : s1.te r.t r.c e = { s.te r.t r.c e with qcv := rest } := s.te_modTe r.t r.c e _
  have wide : qN j.words * (fo.width / 8) ≤ (qTo j.words (s.qEsc r.t j.words)).stride := by
    have fits := qcvOk_rows ok
    rwa [qTo, quant, Bool.and_false, if_neg Bool.false_ne_true, rowBytes_float hf] at fits
  have read := s1.touchRows_cells r.t r.c (qFrom j.words (s.qEsc r.t j.words)) 0 (qRows j.words) (qN j.words)
  have engines := s1.qcvDeq_engines r.t r.c e (s.qEsc r.t j.words) hf hs
  obtain ⟨written, others⟩ := State.grid_of_engines read unarmed wide engines
  refine ⟨_, run, ?_, fun i c hi hc => ?_, others⟩
  · rw [State.te_of_grid read engines, te]
  · refine (shelfValue_of_bytes (written i c · hi hc)).trans (Nat.mod_eq_of_lt ?_)
    rw [pow_256_width hf]
    exact (fmtOf_sound hf).round_lt _ _

/-- A quantising job. -/
theorem qcvJobStart_quant {s : State} {r : CluRef} {e : Fin 4} {j : EngJob} {rest : List EngJob} (unarmed : s.Unarmed r.t r.c)
    (ok : qcvOk j.words (s.qEsc r.t j.words) = true) (idle : (s.te r.t r.c e).qcvRun = none)
    (queued : (s.te r.t r.c e).qcv = j :: rest) (on : (s.clu r.t r.c).dom = .on) (hq : qQuant j.words = true) :
    let d := j.words
    let esc := s.qEsc r.t d
    let at_ (i c : Nat) : Nat := (qTo d esc).elem + i * (qTo d esc).stride + c * 1
    ∃ t run, exec (.qcvJobStart r e) s = .next t ∧ (t.te r.t r.c e).qcv = rest ∧ (t.te r.t r.c e).qcvRun = some run ∧
      run.off = j.off ∧ run.owner = j.owner ∧
      (qDst d = 5 → qStoch d = false → (∀ i c, i < qRows d → c < qN d → Claims.shelfByte t r.t r.c (at_ i c) =
          BitVec.ofNat 9 (quantQ8 .rne (((s.plane r.t r.c (qFrom d esc)).at i c).value 1) (qScale d esc)).1) ∧
        ∀ k, (∀ i c, i < qRows d → c < qN d → k ≠ s.shelfKey r.t r.c (at_ i c)) → codeByte t k = codeByte s k) := by
  dsimp only
  let s1 := s.modTe r.t r.c e fun y => { y with qcv := rest }
  have run := exec_qcvJobStart idle queued on
  rw [if_pos hq] at run
  have te : s1.te r.t r.c e = { s.te r.t r.c e with qcv := rest } := s.te_modTe r.t r.c e _
  have read := s1.touchRows_cells r.t r.c (qFrom j.words (s.qEsc r.t j.words)) 0 (qRows j.words) (qN j.words)
  have engine := State.te_of_grid read (s1.qcvQuant_engines r.t r.c e j (s.qEsc r.t j.words))
  rw [te] at engine
  refine ⟨_, _, run, congrArg TeSt.qcv engine, congrArg TeSt.qcvRun engine, rfl, rfl, fun hd hs => ?_⟩
  have native := s.qEsc_q8 r.t hq hd
  have wide : qN j.words * 1 ≤ (qTo j.words (s.qEsc r.t j.words)).stride := by
    have fits := qcvOk_rows ok
    have format : (qTo j.words false).fmt = 5 := hd
    rw [native] at fits ⊢
    rw [format] at fits
    exact fits
  obtain ⟨f, engines⟩ := s1.qcvQuant_q8_engines r.t r.c e j hd native hs
  obtain ⟨written, others⟩ := State.grid_of_engines read unarmed wide engines
  refine ⟨fun i c hi hc => (written i c 0 hi hc Nat.one_pos).trans ?_, fun k hk => others k fun i c b hi hc hb => ?_⟩
  · have small := quantQ8_lt .rne (((s1.plane r.t r.c (qFrom j.words (s.qEsc r.t j.words))).at i c).value 1) (qScale j.words (s.qEsc r.t j.words))
    exact clean_byteNo_zero small
  · obtain rfl : b = 0 := by omega
    exact hk i c hi hc

theorem Tally.arrive_eq_added (y : Tally) (k : Nat) : y.arrive k = added y k := by
  unfold Tally.arrive added
  split
  · rename_i full
    rw [min_eq_left full.le, decide_eq_true full, Bool.or_true]
  · rename_i room
    rw [min_eq_right (by omega), decide_eq_false room, Bool.or_false]

/-- One ARRIVE (R156, R157). -/
theorem State.arriveT_becomes (s : State) (t c n k : Nat) :
    TallyBecomes s (s.arriveT t c n k) t c n (settled (added (s.tally t c n) k)) := by
  rw [← Tally.complete_eq_settled, ← Tally.arrive_eq_added]
  exact s.modTally_becomes t c n fun y => (y.arrive k).complete

/-- A completing job: the end of its stream goes into the descriptor where it wrote sprouts, then its tally arrives once. -/
theorem qcvJobComplete_spec {s : State} {r : CluRef} {e : Fin 4} {j : EngJob} (running : (s.te r.t r.c e).qcvRun = some j) :
    let d := j.words
    let sprouts := qQuant d = true ∧ qSprout d (s.qEsc r.t d) = true
    ∃ t, exec (.qcvJobComplete r e) s = .next t ∧ t.te r.t r.c e = { s.te r.t r.c e with qcvRun := none } ∧
      t.tally r.t r.c (qTally d) = settled (added (s.tally r.t r.c (qTally d)) 1) ∧
      (∀ n, n ≠ qTally d → t.tally r.t r.c n = s.tally r.t r.c n) ∧
      (sprouts → s.Unarmed r.t r.c → shelfValue t r.t r.c (j.off + 56) 4 = (wordAt d 7).toNat % 2 ^ 32) ∧
      (¬ sprouts → t.mem = s.mem) := by
  dsimp only
  let s1 := s.modTe r.t r.c e fun y => { y with qcvRun := none }
  let bytes := (leBytes 4 (wordAt j.words 7).toNat).map clean
  let s2 := if (qQuant j.words && qSprout j.words (s.qEsc r.t j.words)) = true then s1.shelfWrite r.t r.c (j.off + 56) bytes else s1
  have run : exec (.qcvJobComplete r e) s = .next (s2.arriveT r.t r.c (qTally j.words) 1) := by
    change execQcvJobComplete r e s = _
    rw [execQcvJobComplete, running]
  obtain ⟨tes, clusters⟩ : s2.tes = s1.tes ∧ s2.clusters = s1.clusters := by
    dsimp only [s2]
    split
    · exact ⟨s1.shelfPuts_tes _ _ _, s1.shelfPuts_clusters _ _ _⟩
    · exact ⟨rfl, rfl⟩
  have te : s2.te r.t r.c e = s1.te r.t r.c e := congrArg (fun x => SMap.get default x (teKey r.t r.c e)) tes
  have tallies (n : Nat) : s2.tally r.t r.c n = s.tally r.t r.c n :=
    congrArg (fun x => SMap.get default (SMap.get Cluster.init x (cluKey r.t r.c)).tallies n) clusters
  have arrives := s2.arriveT_becomes r.t r.c (qTally j.words) 1
  refine ⟨_, run, te.trans (s.te_modTe r.t r.c e _), ?_, fun n hn => (arrives.others n hn).trans (tallies n), fun h unarmed => ?_, fun h => ?_⟩
  · rw [arrives.value, tallies]
  · have writes : s2 = s1.shelfPuts r.t r.c (shelfPairs (j.off + 56) (gridBytes 4 4 1 1 fun _ _ => (wordAt j.words 7).toNat)) := by
      refine (if_pos (by simpa using h)).trans (congrArg (s1.shelfPuts r.t r.c) ?_)
      exact numbered_map_clean (j.off + 56) 0 _
    have written := (State.shelfPuts_grid (s := s1) unarmed (j.off + 56) (show 1 * 4 ≤ 4 by decide) 1 fun _ _ => (wordAt j.words 7).toNat).1
    rw [← writes] at written
    exact shelfValue_of_bytes (written 0 0 · Nat.one_pos Nat.one_pos)
  · have same : s2 = s1 := if_neg (by simpa using h)
    change s2.mem = s1.mem
    rw [same]

end Sys2Proof.Machine

open Sys2Proof Sys2Proof.Machine Sys2Proof.Claims

/-- Settles O21: the code values one by one, then a job's start and its completion. -/
theorem storedCodesAndConverters : Obligations.StoredCodesAndConverters := by
  refine ⟨⟨fun c _ => codeVal_q8 c, fun c hc => codeVal_f4 hc, fun c _ => codeVal_q4 c, fun c _ => rfl, fun t five digits i hi => ?_,
    fun e he => scaleVal_f4 he, rfl, by decide +kernel, by decide +kernel, fun neg q ts hts hneg => quantQ8_rne hts hneg⟩,
    fun s r e j rest => ⟨fun unarmed ok _ idle queued on => ⟨fun fo hd hs hf => ?_, fun hq => ?_⟩, fun running => ?_⟩⟩
  · rw [tritOf_digits digits (five ▸ hi), List.getD_eq_getElem _ _ (five ▸ hi)]
    rfl
  · exact qcvJobStart_deq unarmed ok idle queued on hd hs hf
  · exact qcvJobStart_quant unarmed ok idle queued on hq
  · obtain ⟨t, run, te, tally, others, sprouts, kept⟩ := qcvJobComplete_spec running
    exact ⟨t, run, te, tally, others, fun hq hs unarmed => sprouts ⟨hq, hs⟩ unarmed, kept⟩

end

section
/-! PROOF. An HXF whose packed source lies in the registers of its own cluster's shelf (R201, R239, R252, R254): the
read of the descriptor list changes what the check of the descriptor sees. The statement speaks of every state, also of those in which
reserved bits of SHF_FLIPMASK are set. -/

namespace Sys2Proof.Machine

open Sys2Proof.Claims

/-- A FETCH of one packed byte (PK1, block 0) from the MMIO address of SHF_FLIPMASK of cluster (0, 0); its tally is 3. -/
def packedDesc : List W64 :=
  [0x0100800001820000#64, 0#64, 0x1F0000050000#64, 0x100010#64, 0#64, 0x100000000#64, 0#64, 0#64]

/-- The list of that descriptor in the shelf, its last byte stored with an error of one bit. -/
def packedShelf : SMap (BitVec 13) :=
  (((bytesOf packedDesc).map byteCode).set 63 1#13).zipIdx.map Prod.swap

/-- A team of one bunch, which is about to issue the HXF of that list. -/
def packedTh : Th where
  b := ⟨0, 0, 0, 0⟩
  x := { (default : Bunch) with run := .ready, launch := 1 }
  tm := { (default : Team) with launch := 1, tallyCount := 8, codeLen := 8 }
  w := 0x00000001FE1000C6#64

/-- SHF_FLIPMASK and, behind it, SHF_ERR_CNT read as a PK1 header: magic, version and format in the one (its reserved bits among
them), and as many elements as errors have been corrected in the other, which is one. -/
def packedState : State :=
  let s : State :=
    { State.reset with
      clusters := [(0, { Cluster.init with team := some packedTh.tm })], bunches := [(0, packedTh.x)]
      mem := { State.reset.mem with shelf := packedShelf } }
  (s.setReg ⟨.shfFlipmask, 0, 0, 0, 0⟩ 0x30100314B50#64).setReg ⟨.shfErrCnt, 0, 0, 0, 0⟩ 1#64

theorem packedState_issues : Issues packedState packedTh [0xC6] eLegal :=
  ⟨by decide +kernel, by decide +kernel, by decide +kernel, by decide +kernel, by decide +kernel, by decide +kernel⟩

/-- Before the list is read, the header announces the one byte that the descriptor moves. -/
theorem packedState_checks : EngineChecks packedState packedTh (fun d => packedState.hxfOk 0 d) xTally hxfInside where
  aligned := by decide +kernel
  bounds := by decide +kernel
  data := by decide +kernel
  fields := by decide +kernel
  window := by
    unfold windowed
    decide +kernel
  regions := by decide +kernel

/-- The state of a bunch after a command. -/
def Out.bunchRun (key : Nat) : Out → Option BunchRun
  | .next u => some (u.bunch key).run
  | _ => none

/-- The read of the list corrects a byte and counts it: the header now announces two bytes, and the bunch faults. -/
theorem packedState_faults : Out.bunchRun 0 (exec (.hxf packedTh.b packedTh.w) packedState) = some .faulted := by
  decide +kernel

end Sys2Proof.Machine

open Sys2Proof Sys2Proof.Machine Sys2Proof.Claims

/-- Refutes O14: an HXF whose descriptor passes every check before its list is read faults, since the read corrects a byte and so
advances the register that the descriptor's packed header lies in. -/
theorem not_engineInstructionsEnqueueJobs : ¬ Obligations.EngineInstructionsEnqueueJobs := by
  intro h
  obtain ⟨-, -, hxf, -⟩ := h packedState packedTh
  obtain ⟨room, -⟩ := hxf packedState_issues packedState_checks
  obtain ⟨s1, -, run⟩ := room (by decide +kernel)
  have faults := packedState_faults
  rw [run] at faults
  have goesOn (u : State) (pc : W32) : ((issued u packedTh packedTh.x pc).bunch 0).run = .ready :=
    congrArg Bunch.run (u.bunch_setBunch (bkey packedTh.b) { packedTh.x with pc := pc })
  rw [Out.bunchRun, goesOn] at faults
  cases faults

end

section
/-! PROOF. CHUNK_DRAIN (R92, R98, R102, R108): the rows of a chunk in their places of C, and no other byte of the shelf. -/

namespace Sys2Proof.Machine

open Sys2Proof.Claims

/-- One row of a chunk as CHUNK_DRAIN drains it (R92): C is read where c_accum is set, as it stood in v before the chunk's first row,
and the row's elements are written. -/
def State.drainRow (v : State) (t c : Nat) (r : RunJob) (fo : FFmt) (accs : List (List (FVal × Bool)))
    (x : State × Drain) (i : Nat) : State × Drain :=
  let d := r.job.words
  let p := chunkAt d r.chunk
  let e := fo.width / 8
  let place := dCaddr d + (p.2.2.1 + i) * dCstride d + p.1 * e
  let dr := (accs.getD i []).zipIdx.foldl (fun (q : Drain) y =>
    drainElem fo (dStoch d) x.1.free (if dAccum d then some (v.shelfNat t c (place + y.2 * e) e) else none) y.1 q) { x.2 with bytes := [] }
  ((if dAccum d then x.1.shelfTouch t c place (p.2.1 * e) else x.1).shelfWrite t c place (dr.bytes.map clean), dr)

/-- The rows of a chunk, one after another. -/
def State.drainRows (v : State) (t c : Nat) (r : RunJob) (fo : FFmt) (accs : List (List (FVal × Bool))) : State × Drain :=
  (List.range (chunkAt r.job.words r.chunk).2.2.2).foldl (v.drainRow t c r fo accs) (v, ⟨(v.clu t c).arr.lanes, 0, 0, false, false, []⟩)

/-- What follows a chunk's rows: the drain lanes, errors and counts (R92, R108, R125, R126). -/
def State.drainCounted (t c : Nat) (r : RunJob) (counts : Nat × Nat × Nat) (x : State × Drain) : State :=
  let tag := dTag r.job.words
  let s6 := (x.1.drawn x.2.drawn).modArr t c fun y => { y with lanes := x.2.lanes }
  let s7 := if x.2.badC then s6.arrErr t c 2 r.job else s6
  let s8 := if x.2.ovf && !r.ovf then s7.overflow t tag else s7
  s8.noteDecode t tag counts.1 counts.2.1 counts.2.2 x.2.clips

/-- The running job of a bin after a chunk. -/
def RunJob.next (r : RunJob) (o : Bool) : RunJob := { r with chunk := r.chunk + 1, ovf := r.ovf || o }

/-- The elements of a chunk's rows of an operand (R91). -/
def State.chunkElems (s : State) (t c : Nat) (o : Opnd) (r0 rows k : Nat) : List (List Elem) :=
  (List.range rows).map fun i => (List.range k).map fun x => (s.plane t c o).at (r0 + i) x

/-- The accumulators of a running job's next chunk. -/
def State.accsOf (s : State) (t c : Nat) (r : RunJob) : List (List (FVal × Bool)) :=
  let d := r.job.words
  let p := chunkAt d r.chunk
  chunkAccs (jobK (dA d r.job.esc) (dB d)) s.free (dK d) (s.chunkElems t c (dA d r.job.esc) p.2.2.1 p.2.2.2 (dK d))
    (s.chunkElems t c (dB d) p.1 p.2.1 (dK d))

/-- The machine once a chunk's operands are read: errors counted and recorded (R108), and an eligible job's chunk sampled (R127). -/
def State.chunkRead (s : State) (t c : Nat) (r : RunJob) : State :=
  let d := r.job.words
  let p := chunkAt d r.chunk
  let a := dA d r.job.esc
  let s1 := ((s.drawn (p.2.2.2 * p.2.1 * cdiv (dK d) 16 * 64)).touchRows t c a p.2.2.1 p.2.2.2 (dK d)).touchRows t c (dB d) p.1 p.2.1 (dK d)
  let bad := (s.chunkElems t c a p.2.2.1 p.2.2.2 (dK d) ++ s.chunkElems t c (dB d) p.1 p.2.1 (dK d)).any fun row => row.any Elem.uncorr
  let s2 := if bad then s1.arrErr t c 1 r.job else s1
  let sampled := s2.eligible r.job ∧ (s2.clu t c).arr.shadowCnt.toNat % 2 ^ (s2.pol (dTag d)).shadowLog2 = 0
  let s3 := if sampled then s2.shadow t c r.job r.chunk (s.accsOf t c r) else s2
  if s2.eligible r.job then s3.modArr t c fun y => { y with shadowCnt := y.shadowCnt + 1 } else s3

theorem State.drainChunk_eq (s : State) (t c bin : Nat) (r : RunJob) {fo : FFmt} (hf : fmtOf (dCfmt r.job.words) = some fo) :
    let x := (s.chunkRead t c r).drainRows t c r fo (s.accsOf t c r)
    ∃ counts, s.drainChunk t c bin r = (State.drainCounted t c r counts x).modBin t c bin fun y => { y with run := some (r.next x.2.ovf) } := by
  unfold State.drainChunk State.modBin
  dsimp only
  rw [hf]
  exact ⟨_, rfl⟩

theorem arrErr_key (t c : Nat) : Loc.key ⟨.shfFlipmask, t, c, 0, 0⟩ ≠ Loc.key ⟨.arrErr, t, c, 0, 0⟩ := by
  simp only [Loc.key, RegName.shared, RegName.unitBase, RegName.place, Bool.false_eq_true, if_false]
  omega

theorem CellsRead.ite {p : Prop} [Decidable p] {s u v : State} {t c : Nat} (hu : CellsRead s u t c) (hv : CellsRead s v t c) :
    CellsRead s (if p then u else v) t c := by
  split
  · exact hu
  · exact hv

theorem CellsRead.drawn (s : State) (n t c : Nat) : CellsRead s (s.drawn n) t c := ⟨fun _ => rfl, rfl, rfl, rfl⟩

theorem CellsRead.modArr (s : State) (t c u v : Nat) (f : Arr → Arr) : CellsRead s (s.modArr u v f) t c := ⟨fun _ => rfl, rfl, rfl, rfl⟩

theorem CellsRead.signal (s : State) (t c id st detail : Nat) : CellsRead s (s.signal id st detail) t c := ⟨fun _ => rfl, rfl, rfl, rfl⟩

/-- A register of another key is written. -/
theorem CellsRead.setReg (s : State) {t c : Nat} {l : Loc} (h : Loc.key ⟨.shfFlipmask, t, c, 0, 0⟩ ≠ l.key) (v : W64) :
    CellsRead s (s.setReg l v) t c :=
  ⟨fun _ => rfl, State.reg_setReg_other s h v, rfl, rfl⟩

/-- An error of the array is recorded in its own register and signalled (R108). -/
theorem State.arrErr_cells (s : State) (t c cause : Nat) (j : Job) : CellsRead s (s.arrErr t c cause j) t c :=
  (CellsRead.ite (.refl s t c) (.setReg s (arrErr_key t c) _)).trans (.signal _ t c _ _ _)

/-- Counts of a tag. -/
theorem State.modTag_cells (s : State) (t c u tag : Nat) (f : TagEntry → TagEntry) : CellsRead s (s.modTag u tag f) t c :=
  .ite (.refl s t c) ⟨fun _ => rfl, rfl, rfl, rfl⟩

theorem State.shadow_cells (s : State) (t c : Nat) (j : Job) (i : Nat) (accs : List (List (FVal × Bool))) :
    CellsRead s (s.shadow t c j i accs) t c :=
  .ite (s.modTag_cells t c t _ _) ((CellsRead.drawn s _ t c).trans (State.modTag_cells _ t c t _ _))

theorem State.chunkRead_cells (s : State) (t c : Nat) (r : RunJob) : CellsRead s (s.chunkRead t c r) t c := by
  have operands (n : Nat) (a b : Opnd) (a0 ar b0 br k : Nat) :
      CellsRead s (((s.drawn n).touchRows t c a a0 ar k).touchRows t c b b0 br k) t c :=
    ((CellsRead.drawn s n t c).trans (State.touchRows_cells _ t c a a0 ar k)).trans (State.touchRows_cells _ t c b b0 br k)
  have recorded {u : State} (h : CellsRead s u t c) (p : Prop) [Decidable p] : CellsRead s (if p then u.arrErr t c 1 r.job else u) t c :=
    .ite (h.trans (u.arrErr_cells t c 1 r.job)) h
  have sampled {u : State} (h : CellsRead s u t c) (p : Prop) [Decidable p] :
      CellsRead s (if p then u.shadow t c r.job r.chunk (s.accsOf t c r) else u) t c := .ite (h.trans (u.shadow_cells t c r.job r.chunk _)) h
  have counted {u : State} (h : CellsRead s u t c) (p : Prop) [Decidable p] (f : Arr → Arr) :
      CellsRead s (if p then u.modArr t c f else u) t c :=
    .ite (h.trans (.modArr u t c t c f)) h
  exact counted (sampled (recorded (operands _ _ _ _ _ _ _ _) _) _) _ _

theorem marked_inj {a b : ByteRead} (h : a.marked = b.marked) : a.bad = b.bad ∧ a.val = b.val := by
  have sums := congrArg BitVec.toNat h
  have ha := a.val.isLt
  have hb := b.val.isLt
  obtain ⟨va, ca, ba⟩ := a
  obtain ⟨vb, cb, bb⟩ := b
  cases ba <;> cases bb <;> simp [ByteRead.marked, BitVec.toNat_eq] at sums ha hb ⊢ <;> omega

/-- A unit reads a byte after reads of the shelf as before. -/
theorem CellsRead.shelfByte {s u : State} {t c : Nat} (h : CellsRead s u t c) (off : Nat) : u.shelfByte t c off = s.shelfByte t c off := by
  have same : codeByte u (u.shelfKey t c off) = codeByte s (s.shelfKey t c off) := by
    rw [State.shelfKey_of_towers h.parts.2]
    exact h.cells _
  obtain ⟨bad, val⟩ := marked_inj same
  unfold State.shelfByte
  dsimp only
  rw [bad, val]

theorem CellsRead.shelfNat {s u : State} {t c : Nat} (h : CellsRead s u t c) (off n : Nat) : u.shelfNat t c off n = s.shelfNat t c off n := by
  induction n generalizing off with
  | zero => rfl
  | succ n ih => rw [State.shelfNat, State.shelfNat, h.shelfByte, ih]

/-! ### Rows of C (R92, R102) -/

/-- u is s after writes of rows of n elements of w bytes each, a stride apart: the number in each element's place meets P, and no other
byte has changed. -/
structure RowsWritten (s u : State) (t c base stride w n rows : Nat) (P : Nat → Nat → Nat → Prop) : Prop where
  written : ∀ i j, i < rows → j < n → ∃ v, P i j v ∧ ∀ b, b < w → Claims.shelfByte u t c (base + i * stride + j * w + b) = clean (byteNo v b)
  others : ∀ k, (∀ i j b, i < rows → j < n → b < w → k ≠ s.shelfKey t c (base + i * stride + j * w + b)) → codeByte u k = codeByte s k
  unarmed : u.Unarmed t c
  towers : u.towers = s.towers

theorem RowsWritten.zero {s u : State} {t c : Nat} (h : CellsRead s u t c) (unarmed : s.Unarmed t c) (base stride w n : Nat)
    (P : Nat → Nat → Nat → Prop) : RowsWritten s u t c base stride w n 0 P where
  written _ _ hi := absurd hi (Nat.not_lt_zero _)
  others k _ := h.cells k
  unarmed := (congrArg (bit · 63) h.flipmask).trans unarmed
  towers := h.parts.2

/-- A row of elements is a tensor of one row. -/
theorem shelfWrite_row (v : State) (t c base stride w : Nat) (codes : List Nat) :
    v.shelfWrite t c base ((codes.flatMap (leBytes w)).map clean) =
      v.shelfPuts t c (shelfPairs base (gridBytes stride w 1 codes.length fun _ j => codes.getD j 0)) := by
  have listed : codes = (List.range codes.length).map fun j => codes.getD j 0 := by
    refine List.ext_getElem (by simp) fun i hi _ => ?_
    simp [hi]
  have bytes : codes.flatMap (leBytes w) = (List.range codes.length).flatMap fun j => leBytes w (codes.getD j 0) := by
    conv_lhs => rw [listed]
    exact List.flatMap_map _ _ _
  have row := placed_flatMap_leBytes 0 w codes.length fun j => codes.getD j 0
  rw [State.shelfWrite, bytes]
  refine congrArg (v.shelfPuts t c) ((numbered_map_clean base 0 _).trans (congrArg (shelfPairs base) (row.trans ?_)))
  simp [gridBytes]

theorem State.shelfKey_inj {s : State} {t c a b : Nat} (h : s.shelfKey t c a = s.shelfKey t c b) : a = b := by
  unfold State.shelfKey at h
  exact Nat.add_left_cancel h

theorem State.shelfByte_of_towers {s u : State} (h : u.towers = s.towers) (t c off : Nat) :
    Claims.shelfByte u t c off = codeByte u (s.shelfKey t c off) :=
  congrArg (codeByte u) (State.shelfKey_of_towers h t c off)

/-- One row more, written after reads of the shelf. -/
theorem RowsWritten.succ {s u v : State} {t c base stride w n rows : Nat} {P : Nat → Nat → Nat → Prop}
    (h : RowsWritten s u t c base stride w n rows P) (read : CellsRead u v t c) (hs : n * w ≤ stride) {codes : List Nat}
    (size : codes.length = n) (hP : ∀ j x, codes[j]? = some x → P rows j x) :
    RowsWritten s (v.shelfWrite t c (base + rows * stride) ((codes.flatMap (leBytes w)).map clean)) t c base stride w n (rows + 1) P := by
  subst size
  have unarmed : v.Unarmed t c := (congrArg (bit · 63) read.flipmask).trans h.unarmed
  have towers : v.towers = s.towers := read.parts.2.trans h.towers
  have key (off : Nat) : v.shelfKey t c off = s.shelfKey t c off := State.shelfKey_of_towers towers t c off
  obtain ⟨written, others⟩ := State.shelfPuts_grid unarmed (base + rows * stride) hs 1 fun _ j => codes.getD j 0
  rw [shelfWrite_row v t c _ stride w codes]
  generalize gridBytes stride w 1 codes.length _ = bytes at written others
  have cells (k : Nat) (hk : ∀ j b, j < codes.length → b < w → k ≠ s.shelfKey t c (base + rows * stride + j * w + b)) :
      codeByte (v.shelfPuts t c (shelfPairs (base + rows * stride) bytes)) k = codeByte u k := by
    refine (others k fun i j b hi hj hb => ?_).trans (read.cells k)
    obtain rfl : i = 0 := by omega
    rw [key, Nat.zero_mul, Nat.add_zero]
    exact hk j b hj hb
  have kept := v.shelfPuts_frame t c (shelfPairs (base + rows * stride) bytes)
  have towersKept : (v.shelfPuts t c (shelfPairs (base + rows * stride) bytes)).towers = s.towers := (congrArg State.towers kept).trans towers
  refine ⟨fun i j hi hj => ?_, fun k hk => ?_, ?_, towersKept⟩
  · rcases Nat.lt_succ_iff_lt_or_eq.mp hi with hi | rfl
    · obtain ⟨x, hx, stored⟩ := h.written i j hi hj
      refine ⟨x, hx, fun b hb => ?_⟩
      rw [← stored b hb, State.shelfByte_of_towers towersKept, State.shelfByte_of_towers h.towers]
      refine cells _ fun j' b' hj' hb' place => ?_
      have offsets := State.shelfKey_inj place
      obtain ⟨rfl, -⟩ := mul_add_inj (elem_end_le hj hb hs) (elem_end_le hj' hb' hs)
        (show i * stride + (j * w + b) = rows * stride + (j' * w + b') by omega)
      exact absurd hi (lt_irrefl i)
    · refine ⟨codes[j], hP j _ (List.getElem?_eq_getElem hj), fun b hb => ?_⟩
      have new := written 0 j b Nat.one_pos hj hb
      rwa [Nat.zero_mul, Nat.add_zero, List.getD_eq_getElem _ _ hj] at new
  · rw [cells k fun j b hj hb => hk rows j b (Nat.lt_succ_self _) hj hb]
    exact h.others k fun i j b hi => hk i j b (Nat.lt_succ_of_lt hi)
  · rw [State.Unarmed, State.shelfPuts_unarmed unarmed]
    exact unarmed

/-- What the drain rounds: an accumulator, with the C value of the shelf added and rounded where c_accum is set (R92); a C value with an
uncorrectable byte is a NaN (R108). -/
def drainOut (fo : FFmt) (accum : Bool) (cin : Option Nat) (v : FVal) : FVal :=
  if accum then r32 (v.add (match cin with | some c => fo.decode c | none => .nan)) else v

/-- A drained element's code goes behind the bytes drained before. -/
theorem drainElem_bytes (fo : FFmt) (stoch accum : Bool) (free : Nat) (cin : Option Nat) (v : FVal × Bool) (a : Drain) :
    ∃ code, (drainElem fo stoch free (if accum then some cin else none) v a).bytes = a.bytes ++ leBytes (fo.width / 8) code ∧
      (stoch = false → code = (fo.round .rne (drainOut fo accum cin v.1)).1) := by
  refine ⟨_, rfl, fun h => ?_⟩
  subst h
  cases accum
  · rfl
  · cases cin <;> rfl

/-- The codes of a row's elements, those of element j from number k + j on. -/
theorem drainElems_codes (fo : FFmt) (stoch accum : Bool) (free : Nat) (cin : Nat → Option Nat)
    (row : List (FVal × Bool)) (k : Nat) (a : Drain) :
    ∃ codes : List Nat, codes.length = row.length ∧
      ((row.zipIdx k).foldl (fun (q : Drain) y => drainElem fo stoch free (if accum then some (cin y.2) else none) y.1 q) a).bytes =
        a.bytes ++ codes.flatMap (leBytes (fo.width / 8)) ∧
      ∀ j code, codes[j]? = some code → stoch = false → ∀ acc, row[j]? = some acc →
        code = (fo.round .rne (drainOut fo accum (cin (k + j)) acc.1)).1 := by
  induction row generalizing k a with
  | nil => exact ⟨[], rfl, (List.append_nil _).symm, fun j code h => by simp at h⟩
  | cons v row ih =>
    obtain ⟨first, firstBytes, firstCode⟩ := drainElem_bytes fo stoch accum free (cin k) v a
    obtain ⟨codes, size, bytes, values⟩ := ih (k + 1) (drainElem fo stoch free (if accum then some (cin k) else none) v a)
    refine ⟨first :: codes, congrArg (· + 1) size, ?_, fun j code hj hs acc hacc => ?_⟩
    · rw [List.zipIdx_cons, List.foldl_cons, bytes, firstBytes, List.flatMap_cons, List.append_assoc]
    · cases j with
      | zero =>
        obtain rfl := Option.some.inj hj
        obtain rfl := Option.some.inj hacc
        exact firstCode hs
      | succ j =>
        rw [← Nat.add_assoc, Nat.add_right_comm]
        exact values j code hj hs acc hacc

/-- The offset in the shelf of a chunk's element (i, j) of C. -/
def chunkPlace (d : List W64) (chunk e i j : Nat) : Nat :=
  dCaddr d + ((chunkAt d chunk).2.2.1 + i) * dCstride d + ((chunkAt d chunk).1 + j) * e

/-- A code that stands in the place of a chunk's element (i, j): where the drain rounds to nearest, its accumulator's. -/
def Drained (s : State) (t c : Nat) (d : List W64) (chunk : Nat) (fo : FFmt) (accs : List (List (FVal × Bool))) (i j code : Nat) : Prop :=
  dStoch d = false → ∀ acc, (accs.getD i [])[j]? = some acc →
    code = (fo.round .rne (drainOut fo (dAccum d) (s.shelfNat t c (chunkPlace d chunk (fo.width / 8) i j) (fo.width / 8)) acc.1)).1

theorem chunkPlace_eq (d : List W64) (chunk e i j : Nat) : chunkPlace d chunk e i j = chunkPlace d chunk e 0 0 + i * dCstride d + j * e := by
  simp only [chunkPlace, Nat.add_mul, Nat.zero_mul]
  omega

/-- The rows of a chunk are drained into their places in C. -/
theorem State.drainRows_written {s v : State} {t c : Nat} (read : CellsRead s v t c) (unarmed : s.Unarmed t c) (r : RunJob) (fo : FFmt)
    {accs : List (List (FVal × Bool))} (fits : (chunkAt r.job.words r.chunk).2.1 * (fo.width / 8) ≤ dCstride r.job.words)
    (full : ∀ i, i < (chunkAt r.job.words r.chunk).2.2.2 → (accs.getD i []).length = (chunkAt r.job.words r.chunk).2.1) :
    RowsWritten s (v.drainRows t c r fo accs).1 t c (chunkPlace r.job.words r.chunk (fo.width / 8) 0 0) (dCstride r.job.words) (fo.width / 8)
      (chunkAt r.job.words r.chunk).2.1 (chunkAt r.job.words r.chunk).2.2.2 (Drained s t c r.job.words r.chunk fo accs) := by
  unfold State.drainRows
  generalize hm : (chunkAt r.job.words r.chunk).2.2.2 = m at full ⊢
  have rows (k : Nat) (hk : k ≤ m) (lanes : SMap W32) : RowsWritten s
      ((List.range k).foldl (v.drainRow t c r fo accs) (v, ⟨lanes, 0, 0, false, false, []⟩)).1 t c
      (chunkPlace r.job.words r.chunk (fo.width / 8) 0 0) (dCstride r.job.words) (fo.width / 8) (chunkAt r.job.words r.chunk).2.1 k
      (Drained s t c r.job.words r.chunk fo accs) := by
    induction k with
    | zero => exact .zero read unarmed _ _ _ _ _
    | succ k ih =>
      rw [List.range_succ, List.foldl_append, List.foldl_cons, List.foldl_nil]
      specialize ih (Nat.le_of_succ_le hk)
      generalize (List.range k).foldl (v.drainRow t c r fo accs) (v, _) = x at ih
      let place (j : Nat) : Nat := chunkPlace r.job.words r.chunk (fo.width / 8) k j
      obtain ⟨codes, size, bytes, values⟩ := drainElems_codes fo (dStoch r.job.words) (dAccum r.job.words) x.1.free
        (fun j => v.shelfNat t c (place 0 + j * (fo.width / 8)) (fo.width / 8)) (accs.getD k []) 0 { x.2 with bytes := [] }
      have element (j : Nat) : place 0 + j * (fo.width / 8) = chunkPlace r.job.words r.chunk (fo.width / 8) k j := by
        simp only [place, chunkPlace_eq _ _ _ k]
        omega
      have touched : CellsRead x.1
          (if dAccum r.job.words then x.1.shelfTouch t c (place 0) ((chunkAt r.job.words r.chunk).2.1 * (fo.width / 8)) else x.1) t c :=
        .ite (x.1.shelfRead_cells t c _ _) (.refl x.1 t c)
      have next := ih.succ touched fits (size.trans (full k hk)) fun j code hj hs acc hacc => ?_
      · rw [← List.nil_append (codes.flatMap _), ← bytes,
          show chunkPlace r.job.words r.chunk (fo.width / 8) 0 0 + k * dCstride r.job.words = place 0 by
          simp only [place, chunkPlace_eq _ _ _ k 0, Nat.zero_mul, Nat.add_zero]] at next
        exact next
      · have value := values j code hj hs acc hacc
        rw [Nat.zero_add, read.shelfNat] at value
        rwa [element] at value
  exact rows m le_rfl _

/-! ### The end of a chunk, and CHUNK_DRAIN -/

theorem State.engines_ite {p : Prop} [Decidable p] {s u v : State} (hu : u.engines = s.engines) (hv : v.engines = s.engines) :
    (if p then u else v).engines = s.engines := by
  split
  · exact hu
  · exact hv

theorem State.setReg_engines (s : State) (l : Loc) (v : W64) : (s.setReg l v).engines = s.engines := rfl

theorem State.signal_engines (s : State) (id st detail : Nat) : (s.signal id st detail).engines = s.engines := rfl

theorem State.arrErr_engines (s : State) (t c cause : Nat) (j : Job) : (s.arrErr t c cause j).engines = s.engines :=
  (State.signal_engines _ _ _ _).trans (State.engines_ite rfl (s.setReg_engines _ _))

theorem State.overflow_engines (s : State) (t tag : Nat) : (s.overflow t tag).engines = s.engines :=
  State.engines_ite rfl (State.engines_ite (s.modTag_engines t tag _) (s.modTag_engines t tag _))

theorem State.modBin_engines (s : State) (t c bin : Nat) (f : Bin → Bin) : (s.modBin t c bin f).engines = s.engines := rfl

theorem State.drainCounted_engines (t c : Nat) (r : RunJob) (counts : Nat × Nat × Nat) (x : State × Drain) :
    (State.drainCounted t c r counts x).engines = x.1.engines := by
  have recorded {u : State} (h : u.engines = x.1.engines) (p : Prop) [Decidable p] :
      (if p then u.arrErr t c 2 r.job else u).engines = x.1.engines :=
    State.engines_ite ((u.arrErr_engines t c 2 r.job).trans h) h
  have noted {u : State} (h : u.engines = x.1.engines) (p : Prop) [Decidable p] :
      (if p then u.overflow t (dTag r.job.words) else u).engines = x.1.engines :=
    State.engines_ite ((u.overflow_engines t _).trans h) h
  have lanes : ((x.1.drawn x.2.drawn).modArr t c fun y => { y with lanes := x.2.lanes }).engines = x.1.engines := rfl
  exact (State.noteDecode_engines _ _ _ _ _ _ _).trans (noted (recorded lanes _) _)

theorem State.bin_modBin (s : State) (t c bin : Nat) (f : Bin → Bin) : (s.modBin t c bin f).bin t c bin = f (s.bin t c bin) := by
  rw [State.modBin, State.modArr, State.bin, State.clu_modClu]
  exact SMap.get_put_self _ _ _ _

/-- Columns of a chunk lie in the tile. -/
theorem chunkAt_cols (d : List W64) (i : Nat) : (chunkAt d i).2.1 ≤ dN d := (min_le_right _ _).trans (Nat.sub_le _ _)

/-- A row of C fits its stride (R102). -/
theorem descOk_fits {d : List W64} {esc : Bool} {fo : FFmt} (h : descOk d esc = true) (hf : fmtOf (dCfmt d) = some fo) :
    dN d * (fo.width / 8) ≤ dCstride d := by
  have width : elemBits (dCfmt d) / 8 = fo.width / 8 := by
    match hc : dCfmt d with
    | 0 | 1 | 2 | 3 | 4 =>
      rw [hc] at hf
      cases hf
      rfl
    | n + 5 =>
      rw [hc] at hf
      cases hf
  simp only [descOk, Bool.and_eq_true, decide_eq_true_eq] at h
  rw [← width]
  exact h.2

/-- The accumulators of a chunk, row by row. -/
theorem State.accsOf_full (s : State) (t c : Nat) (r : RunJob) {i : Nat} (hi : i < (chunkAt r.job.words r.chunk).2.2.2) :
    ((s.accsOf t c r).getD i []).length = (chunkAt r.job.words r.chunk).2.1 := by
  simp [State.accsOf, chunkAccs, State.chunkElems, hi]

theorem exec_chunkDrain {s : State} {r : CluRef} {bin : Fin 16} {x : RunJob} (running : (s.bin r.t r.c bin).run = some x)
    (left : x.chunk < chunkCount x.job.words) : exec (.chunkDrain r bin) s = .next (s.drainChunk r.t r.c bin x) := by
  change execChunkDrain r bin s = _
  simp only [execChunkDrain, running, if_pos left]

/-- CHUNK_DRAIN (R92, R98). -/
theorem chunkDrain_spec {s : State} {r : CluRef} {bin : Fin 16} {x : RunJob} {fo : FFmt} (running : (s.bin r.t r.c bin).run = some x)
    (left : x.chunk < chunkCount x.job.words) (ok : descOk x.job.words x.job.esc = true) (hf : fmtOf (dCfmt x.job.words) = some fo)
    (unarmed : s.Unarmed r.t r.c) :
    let d := x.job.words
    let e := fo.width / 8
    let p := chunkAt d x.chunk
    ∃ t, exec (.chunkDrain r bin) s = .next t ∧ (∃ o, (t.bin r.t r.c bin).run = some (x.next o)) ∧
      (dStoch d = false → ∀ i v acc, i < p.2.2.2 → v < p.2.1 → ((s.accsOf r.t r.c x).getD i [])[v]? = some acc →
        shelfValue t r.t r.c (chunkPlace d x.chunk e i v) e =
          (fo.round .rne (drainOut fo (dAccum d) (s.shelfNat r.t r.c (chunkPlace d x.chunk e i v) e) acc.1)).1) ∧
      ∀ k, (∀ i v b, i < p.2.2.2 → v < p.2.1 → b < e → k ≠ s.shelfKey r.t r.c (chunkPlace d x.chunk e i v + b)) →
        codeByte t k = codeByte s k := by
  dsimp only
  obtain ⟨counts, drained⟩ := s.drainChunk_eq r.t r.c bin x hf
  have fits := (Nat.mul_le_mul_right (fo.width / 8) (chunkAt_cols x.job.words x.chunk)).trans (descOk_fits ok hf)
  have rows := State.drainRows_written (s.chunkRead_cells r.t r.c x) unarmed x fo fits fun i hi => s.accsOf_full r.t r.c x hi
  generalize (s.chunkRead r.t r.c x).drainRows r.t r.c x fo (s.accsOf r.t r.c x) = y at rows drained
  have engines : (s.drainChunk r.t r.c bin x).engines = y.1.engines := by
    rw [drained]
    exact State.drainCounted_engines r.t r.c x counts y
  have next : ((s.drainChunk r.t r.c bin x).bin r.t r.c bin).run = some (x.next y.2.ovf) := by
    rw [drained, State.bin_modBin]
  have towers : (s.drainChunk r.t r.c bin x).towers = y.1.towers := congrArg (fun x => x.2.2) engines
  refine ⟨_, exec_chunkDrain running left, ⟨_, next⟩, fun hs i v acc hi hv hacc => ?_, fun k hk => ?_⟩
  · obtain ⟨code, value, stored⟩ := rows.written i v hi hv
    have bytes (b : Nat) (hb : b < fo.width / 8) : Claims.shelfByte (s.drainChunk r.t r.c bin x) r.t r.c
        (chunkPlace x.job.words x.chunk (fo.width / 8) i v + b) = clean (byteNo code b) := by
      rw [State.shelfByte_of_towers towers, State.codeByte_of_engines engines, chunkPlace_eq]
      exact stored b hb
    rw [shelfValue_of_bytes bytes, value hs acc hacc, pow_256_width hf]
    exact Nat.mod_eq_of_lt ((fmtOf_sound hf).round_lt _ _)
  · refine (State.codeByte_of_engines engines k).trans (rows.others k fun i v b hi hv hb => ?_)
    rw [← chunkPlace_eq]
    exact hk i v b hi hv hb

end Sys2Proof.Machine
end

section
/-! PROOF. K-blocks of integers (R88, R90): their products add exactly, and the sum times the block's factor is rounded once. -/

namespace Sys2Proof.Machine

open Sys2Proof.Claims

/-- A pair of integers in their blocks. -/
def WholePair (p : Elem × Elem) : Prop :=
  p.1.kind = .grid ∧ p.2.kind = .grid ∧ ∃ u v : Int, p.1.x = .fin (decide (u < 0)) u ∧ p.2.x = .fin (decide (v < 0)) v

/-- The product of a pair. -/
def pairProduct (p : Elem × Elem) : ℚ := (p.1.x.mul p.2.x).toQ

/-- The factor f of a pair's block (R88). -/
def pairFactor (j : JobK) (p : Elem × Elem) : FVal := r32 ((((p.1.b.mul p.2.b).mul (.fin false j.hA)).mul (.fin false j.hB)).mul j.t)

/-- A K-block of integers applied to the accumulator: the exact sum of its products times its factor, rounded once. -/
def wholeBlock (j : JobK) (acc : FVal) (ps : List (Elem × Elem)) : FVal :=
  match ps with
  | [] => acc
  | p :: _ => applied (pairFactor j p) (ps.map pairProduct).sum acc

/-- A sum that is not −0 stays so, whatever finite value comes to it. -/
theorem ofQ_add (q r : ℚ) (n : Bool) : (ofQ q).add (.fin n r) = ofQ (q + r) := by
  unfold ofQ FVal.add
  by_cases zero : q + r = 0
  · by_cases both : q = 0 ∧ r = 0
    · simp [both.1, both.2]
    · simp [zero, both]
  · simp [zero]

theorem WholePair.mul {p : Elem × Elem} (h : WholePair p) : ∃ n, p.1.x.mul p.2.x = .fin n (pairProduct p) := by
  obtain ⟨-, -, u, v, hu, hv⟩ := h
  unfold pairProduct
  rw [hu, hv]
  exact ⟨_, rfl⟩

/-- Products of integers add exactly. -/
theorem foldl_products {ps : List (Elem × Elem)} (h : ∀ p ∈ ps, WholePair p) (q : ℚ) :
    ps.foldl (fun s p => s.add (p.1.x.mul p.2.x)) (ofQ q) = ofQ (q + (ps.map pairProduct).sum) := by
  induction ps generalizing q with
  | nil => simp
  | cons p ps ih =>
    obtain ⟨n, product⟩ := (h p List.mem_cons_self).mul
    rw [List.foldl_cons, product, ofQ_add, ih fun p hp => h p (List.mem_cons_of_mem _ hp), List.map_cons, List.sum_cons, add_assoc]

/-- Of the four groups of a K-block of integers only the one of two grid operands holds pairs, and it holds them all. -/
theorem applyGroup_whole (j : JobK) (seed : Nat) {ps : List (Elem × Elem)} (h : ∀ p ∈ ps, WholePair p) (acc : FVal) :
    applyGroup j seed true true ps acc = wholeBlock j acc ps := by
  have all : ps.filter (fun p => decide (p.1.kind = .grid) == true && decide (p.2.kind = .grid) == true) = ps := by
    refine List.filter_eq_self.mpr fun p hp => ?_
    obtain ⟨ha, hb, -⟩ := h p hp
    simp [ha, hb]
  have sum := foldl_products h 0
  rw [zero_add] at sum
  unfold applyGroup
  dsimp only
  rw [all]
  cases ps with
  | nil => rfl
  | cons p ps => exact congrArg (fun x => r32 (FVal.fma x (pairFactor j p) acc)) sum

/-- A K-block of integers has the group of two grid operands alone. -/
theorem present_whole {ps : List (Elem × Elem)} (h : ∀ p ∈ ps, WholePair p) (ne : ps ≠ []) (a b : Bool) :
    (ps.any fun p => decide (p.1.kind = .grid) == a && decide (p.2.kind = .grid) == b) = (a && b) := by
  have held (p : Elem × Elem) (hp : p ∈ ps) : (decide (p.1.kind = .grid) == a && decide (p.2.kind = .grid) == b) = (a && b) := by
    obtain ⟨ha, hb, -⟩ := h p hp
    simp [ha, hb]
  obtain ⟨p, hp⟩ := List.exists_mem_of_ne_nil ps ne
  exact Bool.eq_iff_iff.mpr (List.any_eq_true.trans ⟨fun ⟨q, hq, e⟩ => (held q hq).symm.trans e, fun e => ⟨p, hp, (held p hp).trans e⟩⟩)

theorem applyBlock_whole {j : JobK} (hj : j.bothFloat = false) (seed : Nat) {ps : List (Elem × Elem)}
    (h : ∀ p ∈ ps, WholePair p) (ne : ps ≠ [])
    (acc : FVal) : applyBlock j seed ps acc = wholeBlock j acc ps := by
  have groups : [(true, true), (true, false), (false, true), (false, false)].filter (fun g : Bool × Bool =>
      ps.any fun p => decide (p.1.kind = .grid) == g.1 && decide (p.2.kind = .grid) == g.2) = [(true, true)] :=
    (List.filter_congr fun g _ => present_whole h ne g.1 g.2).trans
      (show [(true, true), (true, false), (false, true), (false, false)].filter (fun g : Bool × Bool => g.1 && g.2) = _ from rfl)
  unfold applyBlock
  rw [hj, groups]
  exact applyGroup_whole j seed h acc

/-- One K-block of at most sixteen pairs. -/
theorem dotAcc_succ (j : JobK) (f seed : Nat) {ps : List (Elem × Elem)} (ne : ps ≠ []) (acc : FVal) :
    dotAcc j (f + 1) seed ps acc = dotAcc j f (seed + 64) (ps.drop 16) (applyBlock j seed (ps.take 16) acc) :=
  if_neg (by simpa using ne)

/-- Nothing is left along K. -/
theorem dotAcc_nil (j : JobK) (f seed : Nat) (acc : FVal) : dotAcc j f seed [] acc = acc := by
  cases f <;> rfl

/-- Along K, block by block. -/
theorem dotAcc_blocks {j : JobK} (hj : j.bothFloat = false) {blocks : List (List (Elem × Elem))}
    (h : ∀ b ∈ blocks, b.length = 16 ∧ ∀ p ∈ b, WholePair p)
    (seed : Nat) (acc : FVal) : dotAcc j (blocks.length + 1) seed blocks.flatten acc = blocks.foldl (wholeBlock j) acc := by
  induction blocks generalizing seed acc with
  | nil => rfl
  | cons b blocks ih =>
    obtain ⟨size, whole⟩ := h b List.mem_cons_self
    have ne : b ≠ [] := List.ne_nil_of_length_pos (by omega)
    rw [List.length_cons, List.flatten_cons, dotAcc_succ j _ _ (by simp [ne]), List.drop_left' size, List.take_left' size,
      applyBlock_whole hj seed whole ne, List.foldl_cons]
    exact ih (fun c hc => h c (List.mem_cons_of_mem b hc)) _ _

/-- A K that ends inside its first block. -/
theorem dotAcc_short {j : JobK} (hj : j.bothFloat = false) (f seed : Nat) {ps : List (Elem × Elem)} (h : ∀ p ∈ ps, WholePair p) (ne : ps ≠ [])
    (size : ps.length ≤ 16) (acc : FVal) : dotAcc j (f + 2) seed ps acc = wholeBlock j acc ps := by
  rw [dotAcc_succ j _ _ ne, List.drop_eq_nil_of_le size, List.take_of_length_le size, dotAcc_nil, applyBlock_whole hj seed h ne]

/-- Zero products add nothing. -/
theorem wholeBlock_append (j : JobK) (acc : FVal) {ps zs : List (Elem × Elem)} (ne : ps ≠ []) (zero : ∀ p ∈ zs, pairProduct p = 0) :
    wholeBlock j acc (ps ++ zs) = wholeBlock j acc ps := by
  have nothing : (zs.map pairProduct).sum = 0 := List.sum_eq_zero fun x hx => by
    obtain ⟨p, hp, rfl⟩ := List.mem_map.mp hx
    exact zero p hp
  cases ps with
  | nil => exact absurd rfl ne
  | cons p ps =>
    have sum : ((p :: ps ++ zs).map pairProduct).sum = ((p :: ps).map pairProduct).sum := by
      rw [List.map_append, List.sum_append, nothing, add_zero]
    exact congrArg (applied (pairFactor j p) · acc) sum

/-- Integer dot products (R88, R90): K-blocks one after another, and a last block as if padded. -/
theorem integerDots (j : JobK) (seed : Nat) (acc : FVal) (hj : j.bothFloat = false) :
    (∀ blocks : List (List (Elem × Elem)), (∀ b ∈ blocks, b.length = 16 ∧ ∀ p ∈ b, WholePair p) →
      dotAcc j (blocks.length + 1) seed blocks.flatten acc = blocks.foldl (wholeBlock j) acc) ∧
    ∀ (f : Nat) (ps zs : List (Elem × Elem)), ps ≠ [] → ps.length + zs.length = 16 → (∀ p ∈ ps, WholePair p) →
      (∀ p ∈ zs, WholePair p ∧ pairProduct p = 0) → dotAcc j (f + 2) seed (ps ++ zs) acc = dotAcc j (f + 2) seed ps acc := by
  refine ⟨fun blocks h => dotAcc_blocks hj h seed acc, fun f ps zs ne size hp hz => ?_⟩
  have whole (p : Elem × Elem) (h : p ∈ ps ++ zs) : WholePair p := (List.mem_append.mp h).elim (hp p) fun h => (hz p h).1
  rw [dotAcc_short hj f seed whole (by simp [ne]) (by simp [size]), dotAcc_short hj f seed hp ne (by omega),
    wholeBlock_append j acc ne fun p h => (hz p h).2]

end Sys2Proof.Machine
end

section
/-! PROOF. JOB_COMPLETE (R106, R112, R113): the count of products, the arrival, and the bin that begins its filler or its ramp-down. -/

namespace Sys2Proof.Machine

open Sys2Proof.Claims

/-- What the end of a job leaves alone once its bin is free and its tally has arrived: memories, the cluster's tallies, its array's bins
and queue, and the count of products. -/
def State.jobView (t c : Nat) (s : State) : Mem × SMap Tally × SMap Bin × List Job × W64 :=
  (s.mem, (s.clu t c).tallies, (s.clu t c).arr.bins, (s.clu t c).arr.queue, s.reg ⟨.arrMacCnt, t, c, 0, 0⟩)

theorem State.jobView_ite {p : Prop} [Decidable p] {t c : Nat} {s u v : State}
    (hu : u.jobView t c = s.jobView t c) (hv : v.jobView t c = s.jobView t c) :
    (if p then u else v).jobView t c = s.jobView t c := by
  split
  · exact hu
  · exact hv

/-- Commands that complete touch the queues alone. -/
theorem State.jobView_of_sansQueues {s u : State} (h : u.sansQueues = s.sansQueues) (t c : Nat) : u.jobView t c = s.jobView t c :=
  keeps_of (State.jobView t c) h

theorem State.arrived_jobView (s : State) (w : Wait) (t c : Nat) : (s.arrived w).jobView t c = s.jobView t c :=
  State.jobView_of_sansQueues (s.arrived_sansQueues w) t c

theorem State.matrixDone_jobView (s : State) (owner t c : Nat) : (s.matrixDone owner).jobView t c = s.jobView t c := by
  unfold State.matrixDone
  split
  · exact State.jobView_ite (State.jobView_of_sansQueues (s.complete_sansQueues _ _ _ _) t c) rfl
  · rfl

theorem arrMacCnt_key {r : RegName} (h : r = .arrPower ∨ r = .arrLfsrSeed ∨ r = .arrCommit) (t c : Nat) :
    Loc.key ⟨.arrMacCnt, t, c, 0, 0⟩ ≠ Loc.key ⟨r, t, c, 0, 0⟩ := by
  rcases h with rfl | rfl | rfl <;>
  · simp only [Loc.key, RegName.shared, RegName.unitBase, RegName.place, Bool.false_eq_true, if_false]
    omega

theorem State.setReg_jobView (s : State) {t c : Nat} {l : Loc} (h : Loc.key ⟨.arrMacCnt, t, c, 0, 0⟩ ≠ l.key) (v : W64) :
    (s.setReg l v).jobView t c = s.jobView t c :=
  congrArg (fun w => (s.mem, (s.clu t c).tallies, (s.clu t c).arr.bins, (s.clu t c).arr.queue, w)) (State.reg_setReg_other s h v)

theorem State.modArr_jobView (s : State) (t c : Nat) {f : Arr → Arr} (bins : ∀ y, (f y).bins = y.bins) (queue : ∀ y, (f y).queue = y.queue) :
    (s.modArr t c f).jobView t c = s.jobView t c := by
  have clu : (s.modArr t c f).clu t c = { s.clu t c with arr := f (s.clu t c).arr } := s.clu_modClu t c _
  simp only [State.jobView, clu, bins, queue]
  rfl

/-- The array's staged values become active (R118, R119). -/
theorem State.commitArr_jobView (s : State) (t c : Nat) : (s.commitArr t c).jobView t c = s.jobView t c := by
  have active : (((s.activate ⟨.arrPower, t, c, 0, 0⟩).activate ⟨.arrLfsrSeed, t, c, 0, 0⟩).fset arrCommitPending 0 t c).jobView t c =
      s.jobView t c :=
    (State.setReg_jobView _ (arrMacCnt_key (.inr (.inr rfl)) t c) _).trans <|
      (State.setReg_jobView _ (arrMacCnt_key (.inr (.inl rfl)) t c) _).trans (State.setReg_jobView s (arrMacCnt_key (.inl rfl) t c) _)
  unfold State.commitArr
  dsimp only
  split
  · rfl
  · rw [State.arrived_jobView, State.modArr_jobView, active] <;> exact fun _ => rfl

theorem State.bin_modBin_other (s : State) (t c : Nat) {bin k : Nat} (h : k ≠ bin) (f : Bin → Bin) :
    (s.modBin t c bin f).bin t c k = s.bin t c k := by
  rw [State.modBin, State.modArr, State.bin, State.clu_modClu]
  exact SMap.get_put_other _ _ h

theorem State.tally_modBin (s : State) (t c bin : Nat) (f : Bin → Bin) (n : Nat) : (s.modBin t c bin f).tally t c n = s.tally t c n := by
  rw [State.modBin, State.modArr, State.tally, State.clu_modClu]
  rfl

theorem State.queue_modBin (s : State) (t c bin : Nat) (f : Bin → Bin) :
    ((s.modBin t c bin f).clu t c).arr.queue = (s.clu t c).arr.queue := by
  rw [State.modBin, State.modArr, State.clu_modClu]

/-- A tally that changes leaves its cluster's array, the registers and the memories. -/
theorem arr_of_tallyBecomes {s u : State} {t c n : Nat} {y : Tally} (h : TallyBecomes s u t c n y) : (u.clu t c).arr = (s.clu t c).arr := by
  have arr := congrArg Cluster.arr h.cluster
  exact arr

theorem stores_of_tallyBecomes {s u : State} {t c n : Nat} {y : Tally} (h : TallyBecomes s u t c n y) : u.regs = s.regs ∧ u.mem = s.mem := by
  have regs := congrArg State.regs h.rest
  have mem := congrArg State.mem h.rest
  exact ⟨regs, mem⟩

theorem fld_whole (w : W64) : fld w 63 0 = w.toNat := by
  simp only [fld, bitsOf, pow_zero, Nat.div_one]
  exact Nat.mod_eq_of_lt w.isLt

/-- ARR_MAC_CNT is a counter of 64 bits. -/
theorem State.arrMacCnt_bump (s : State) (n t c : Nat) : ((s.bump arrMacCntCount n t c).reg ⟨.arrMacCnt, t, c, 0, 0⟩).toNat =
    min (2 ^ 64 - 1) ((s.reg ⟨.arrMacCnt, t, c, 0, 0⟩).toNat + n) := by
  have counted := s.fget_fset arrMacCntCount (min (2 ^ 64 - 1) (s.fget arrMacCntCount t c 0 0 + n)) t c 0 0 (by decide) (by decide)
  have before : s.fget arrMacCntCount t c 0 0 = (s.reg ⟨.arrMacCnt, t, c, 0, 0⟩).toNat := fld_whole _
  rw [before] at counted
  refine (fld_whole _).symm.trans (Eq.trans ?_ (counted.trans (Nat.mod_eq_of_lt ?_)))
  · rw [← before]
    rfl
  · exact (min_le_left _ _).trans_lt (by decide)

/-- The bin of a job that has ended: filler, or its ramp-down at once where there is no filler window (R112, R113). -/
def Bin.ended (y : Bin) (window : Nat) : Bin :=
  { y with run := none, mode := if window = 0 then .rampDown else .filler, step := if window = 0 then 1 else 0 }

/-- The machine when a job ends: its products counted, its bin free, its tally arrived. -/
def State.jobEnded (s : State) (t c bin : Nat) (d : List W64) : State :=
  ((s.bump arrMacCntCount (dM d * dN d * dK d) t c).modBin t c bin fun y => y.ended (s.fget arrPowerFillerWindow t c)).arriveT
    t c (dTally d) 1

theorem exec_jobComplete {s : State} {r : CluRef} {bin : Fin 16} {x : RunJob} (running : (s.bin r.t r.c bin).run = some x)
    (done : chunkCount x.job.words ≤ x.chunk) :
    ∃ t, exec (.jobComplete r bin) s = .next t ∧ t.jobView r.t r.c = (s.jobEnded r.t r.c bin x.job.words).jobView r.t r.c := by
  have run : exec (.jobComplete r bin) s = .next
      ((if ((s.jobEnded r.t r.c bin x.job.words).clu r.t r.c).arr.bins.all fun b => b.2.run.isNone then
      (s.jobEnded r.t r.c bin x.job.words).commitArr r.t r.c else s.jobEnded r.t r.c bin x.job.words).matrixDone x.job.owner) := by
    change execJobComplete r bin s = _
    simp only [execJobComplete, running, if_neg (Nat.not_lt.mpr done)]
    rfl
  exact ⟨_, run, (State.matrixDone_jobView _ _ _ _).trans (State.jobView_ite (State.commitArr_jobView _ _ _) rfl)⟩

/-- JOB_COMPLETE (R106, R112, R113). -/
theorem jobComplete_spec {s : State} {r : CluRef} {bin : Fin 16} {x : RunJob} (running : (s.bin r.t r.c bin).run = some x)
    (done : chunkCount x.job.words ≤ x.chunk) :
    let d := x.job.words
    ∃ t, exec (.jobComplete r bin) s = .next t ∧ t.tally r.t r.c (dTally d) = settled (added (s.tally r.t r.c (dTally d)) 1) ∧
      (∀ n, n ≠ dTally d → t.tally r.t r.c n = s.tally r.t r.c n) ∧
      t.bin r.t r.c bin = (s.bin r.t r.c bin).ended (s.fget arrPowerFillerWindow r.t r.c) ∧
      (∀ k, k ≠ bin.val → t.bin r.t r.c k = s.bin r.t r.c k) ∧ (t.clu r.t r.c).arr.queue = (s.clu r.t r.c).arr.queue ∧
      (t.reg ⟨.arrMacCnt, r.t, r.c, 0, 0⟩).toNat = min (2 ^ 64 - 1) ((s.reg ⟨.arrMacCnt, r.t, r.c, 0, 0⟩).toNat + dM d * dN d * dK d) ∧
      t.mem = s.mem := by
  dsimp only
  obtain ⟨t, run, view⟩ := exec_jobComplete running done
  let s1 := s.bump arrMacCntCount (dM x.job.words * dN x.job.words * dK x.job.words) r.t r.c
  let s2 := s1.modBin r.t r.c bin fun y => y.ended (s.fget arrPowerFillerWindow r.t r.c)
  have arrives : TallyBecomes s2 (s.jobEnded r.t r.c bin x.job.words) r.t r.c (dTally x.job.words) _ :=
    s2.arriveT_becomes r.t r.c (dTally x.job.words) 1
  have arr := arr_of_tallyBecomes arrives
  obtain ⟨regs, mem⟩ := stores_of_tallyBecomes arrives
  have tally (n : Nat) : t.tally r.t r.c n = (s.jobEnded r.t r.c bin x.job.words).tally r.t r.c n :=
    keeps_by (fun v => SMap.get default v.2.1 n) (State.tally · r.t r.c n) view
  have bins (k : Nat) : t.bin r.t r.c k = s2.bin r.t r.c k :=
    (keeps_by (fun v => SMap.get default v.2.2.1 k) (State.bin · r.t r.c k) view).trans (congrArg (fun a : Arr => SMap.get default a.bins k) arr)
  have count : t.reg ⟨.arrMacCnt, r.t, r.c, 0, 0⟩ = s1.reg ⟨.arrMacCnt, r.t, r.c, 0, 0⟩ :=
    (keeps_by (fun v => v.2.2.2.2) (State.reg · ⟨.arrMacCnt, r.t, r.c, 0, 0⟩) view).trans
      (congrArg (fun m => SMap.get (RegName.resetWord .arrMacCnt) m (Loc.key ⟨.arrMacCnt, r.t, r.c, 0, 0⟩)) regs)
  refine ⟨t, run, ?_, fun n hn => ?_, ?_, fun k hk => ?_, ?_, ?_, ?_⟩
  · rw [tally, arrives.value, State.tally_modBin]
    rfl
  · rw [tally, arrives.others n hn, State.tally_modBin]
    rfl
  · rw [bins]
    exact s1.bin_modBin r.t r.c bin _
  · rw [bins]
    exact s1.bin_modBin_other r.t r.c hk _
  · exact (keeps_by (fun v => v.2.2.2.1) (fun u : State => (u.clu r.t r.c).arr.queue) view).trans
      ((congrArg Arr.queue arr).trans (s1.queue_modBin r.t r.c bin _))
  · rw [count]
    exact s.arrMacCnt_bump _ r.t r.c
  · exact (congrArg Prod.fst view).trans mem

end Sys2Proof.Machine

open Sys2Proof Sys2Proof.Machine Sys2Proof.Claims

/-- Settles O19: a chunk's drain, the integer dot products, and the end of a job. -/
theorem chunksDrainAndJobsArrive : Obligations.ChunksDrainAndJobsArrive := by
  refine ⟨fun s r bin x fo running left ok _ hf unarmed => ?_, fun j seed acc hj => ?_, fun s r bin x running done => ?_⟩
  · exact chunkDrain_spec running left ok hf unarmed
  · obtain ⟨blocks, padded⟩ := integerDots j seed acc hj
    exact ⟨fun bs whole _ => blocks bs whole, fun f ps zs ne size hp hz _ => padded f ps zs ne size hp hz⟩
  · obtain ⟨t, run, tally, tallies, ended, bins, queue, count, mem⟩ := jobComplete_spec running done
    refine ⟨t, run, tally, tallies, ?_, ?_, bins, queue, count, mem⟩
    · rw [ended, Bin.ended]
    · rw [ended, Bin.ended]
      split <;> exact ⟨rfl, rfl⟩

end

section
/-! PROOF. What the work of a due packet does to the machine beside its own effect: it completes the packet (R357, R358), or leaves it
waiting (R372). -/

namespace Sys2Proof.Machine

open Sys2Proof.Claims

/-! ### A completion -/

/-- The machine but for what a completion changes: the queues, the towers' grants and the count of free values. -/
def State.sansGrants (s : State) : State := { s with queues := [], towers := [], free := 0 }

theorem State.releaseCmd_queues (s : State) (id : Nat) : (s.releaseCmd id).queues = s.queues :=
  foldl_keeps State.queues (f := fun (x : State) t => x.release t (cmdReq id)) (fun _ _ => rfl) _ s

/-- A command gives its grants back on every tower. -/
theorem State.releaseCmd_tower (s : State) (id : Nat) {x : Nat} (h : x < 4) : (s.releaseCmd id).tower x =
    { s.tower x with grants := (s.tower x).grants.filter fun g => decide (g.req.requester.toNat ≠ cmdReq id)
                     grantQ := (s.tower x).grantQ.filter fun g => decide (g.requester.toNat ≠ cmdReq id) } := by
  obtain ⟨u, same, seen⟩ := foldl_seen_once (fun (s : State) t => s.release t (cmdReq id)) (State.tower · x)
    (fun s t ht => s.tower_modTower_other (Ne.symm ht) _) List.nodup_range (List.mem_range.mpr h) s
  change State.tower _ x = _ at seen
  rw [State.releaseCmd, seen, State.release, State.tower_modTower, same]

theorem State.releaseCmd_sansGrants (s : State) (id : Nat) : (s.releaseCmd id).sansGrants = s.sansGrants :=
  foldl_keeps State.sansGrants (f := fun (x : State) t => x.release t (cmdReq id)) (fun _ _ => rfl) _ s

theorem State.finish_sansGrants (s : State) (q : Nat) (k : Pkt) (st detail clamp : Nat) :
    (s.finish q k st detail clamp).sansGrants = s.sansGrants := by
  unfold State.finish
  dsimp only
  split <;> rfl

theorem State.finish_towers (s : State) (q : Nat) (k : Pkt) (st detail clamp : Nat) : (s.finish q k st detail clamp).towers = s.towers := by
  unfold State.finish
  dsimp only
  split <;> rfl

/-- The completion entry of a packet for which no unit has signalled a status. -/
def State.entry (s : State) (q : Nat) (k : Pkt) (st detail clamp : Nat) : Compl :=
  { tag := hTag k.words, status := st, clamp := clamp, start := k.start, end_ := s.stamp (qTower q)
    energy := if metered (hOpcode k.words) then s.free1 % 2 ^ 32 else 0, detail := detail, irq := hIrq k.words, interim := false
    quiet := hQuiet k.words, reply := k.reply }

theorem State.entry_entryOf (s : State) (q : Nat) (k : Pkt) (st detail clamp : Nat) :
    EntryOf s q k st detail clamp (s.entry q k st detail clamp) where
  tag := rfl
  status := rfl
  detail := rfl
  clamp := rfl
  start := rfl
  stop := rfl
  irq := rfl
  final := rfl
  energy := fun h => by rw [State.entry, h, if_neg Bool.false_ne_true]
  reply := rfl

/-- A queue as one of its packets completes: the packet leaves, and its entry comes unless it is quiet and ended with OK. -/
def Queue.finished (y : Queue) (k : Pkt) (st : Nat) (e : Compl) : Queue :=
  { y with running := y.running.filter fun x => x.id ≠ k.id
           done := if hQuiet k.words ∧ st = stOK ∧ k.reply.isNone then y.done else y.done ++ [e] }

theorem State.finish_queues (s : State) (q : Nat) {k : Pkt} (unsignalled : k.status = 0) (st detail clamp : Nat) :
    (s.finish q k st detail clamp).queues = (s.modQueue q fun y => y.finished k st (s.entry q k st detail clamp)).queues := by
  simp only [State.finish, unsignalled, ne_eq, not_true, false_and, if_false]
  rw [apply_ite State.queues]
  exact ite_self _

theorem State.finish_queue (s : State) (q : Nat) {k : Pkt} (unsignalled : k.status = 0) (st detail clamp : Nat) :
    (s.finish q k st detail clamp).queue q = (s.queue q).finished k st (s.entry q k st detail clamp) ∧
    ∀ j, j ≠ q → (s.finish q k st detail clamp).queue j = s.queue j := by
  have queue (j : Nat) : (s.finish q k st detail clamp).queue j =
      (s.modQueue q fun y => y.finished k st (s.entry q k st detail clamp)).queue j :=
    congrArg (SMap.get default · j) (s.finish_queues q unsignalled st detail clamp)
  exact ⟨(queue q).trans (s.queue_modQueue q _), fun j hj => (queue j).trans (s.queue_modQueue_other hj _)⟩

/-- A running packet for which no unit has signalled a status completes as R357 and R358 say. -/
theorem completed_of_running {s : State} {q : Nat} {k : Pkt} (mine : s.running? k.id = some (q, k)) (unsignalled : k.status = 0)
    (st detail clamp : Nat) : Completed s ((s.complete k.id st detail clamp).releaseCmd k.id) q k st detail clamp := by
  have ends : s.complete k.id st detail clamp = s.finish q k st detail clamp := by
    simp only [State.complete, mine]
  obtain ⟨own, others⟩ := s.finish_queue q unsignalled st detail clamp
  have queue (j : Nat) : ((s.finish q k st detail clamp).releaseCmd k.id).queue j = (s.finish q k st detail clamp).queue j :=
    congrArg (SMap.get default · j) (State.releaseCmd_queues _ _)
  have rest : ((s.finish q k st detail clamp).releaseCmd k.id).sansGrants = s.sansGrants :=
    (State.releaseCmd_sansGrants _ _).trans (s.finish_sansGrants q k st detail clamp)
  rw [ends]
  refine ⟨?_, fun loud => ⟨_, s.entry_entryOf q k st detail clamp, ?_⟩, fun silent => ?_, ?_, fun j hj => (queue j).trans (others j hj),
    fun x hx => ?_, congrArg (fun u : State => { u with queues := s.queues, towers := s.towers, free := s.free }) rest⟩
  · rw [queue, own, Queue.finished]
  · rw [queue, own, Queue.finished]
    exact if_neg (by simpa [Option.isNone_iff_eq_none] using loud)
  · rw [queue, own, Queue.finished]
    exact if_pos (by simpa [Option.isNone_iff_eq_none] using silent)
  · rw [queue, own, Queue.finished]
  · have tower : (s.finish q k st detail clamp).tower x = s.tower x := congrArg (SMap.get Tower.init · x) (s.finish_towers q k st detail clamp)
    rw [State.releaseCmd_tower _ _ hx, tower]

/-! ### The work of a due packet -/

/-- Work with nothing to wait for completes its packet. -/
theorem runPkt_completes {s : State} {q op : Nat} {k : Pkt} {work : Pkt → State → Did} (due : Due s q op k)
    (answers : (work k s).st < stWait) (ends : (work k s).waits = []) (idle : (work k s).s.needs = [] ∧ (work k s).s.sends = [])
    (quiet : ∀ r ∈ (work k s).s.reqs, r.owner ≠ cmdOwner q k.id) (mine : (work k s).s.running? k.id = some (q, k)) :
    Completed (work k s).s (s.runPkt q op k.words work) q k (work k s).st (work k s).detail (work k s).clamp := by
  have notHeld : (work k s).st ≠ stHeld := fun h => absurd (h ▸ answers) (by decide)
  rw [State.runPkt_due work due, State.settleWork_done notHeld answers.ne idle.1 idle.2 quiet ends]
  exact completed_of_running mine due.unsignalled _ _ _

/-- Work that stops with a status refuses its packet. -/
theorem runPkt_refuses {s : State} {q op : Nat} {k : Pkt} {work : Pkt → State → Did} (due : Due s q op k) {st : Nat} (answers : st < stWait)
    (fails : work k s = .fail s st) : Completed s (s.runPkt q op k.words work) q k st 0 0 := by
  have completed := runPkt_completes (work := work) due (by rw [fails]; exact answers) (by rw [fails]; rfl) (by rw [fails]; exact due.idle)
    (by rw [fails]; exact due.quiet) (by rw [fails]; exact due.mine)
  rwa [fails] at completed

/-- Work that reaches no other module and has something to wait for leaves its packet waiting. -/
theorem runPkt_waits {s : State} {q op : Nat} {k : Pkt} {work : Pkt → State → Did} (due : Due s q op k) (answers : (work k s).st < stWait)
    (waits : (work k s).waits ≠ []) (idle : (work k s).s.needs = [] ∧ (work k s).s.sends = [])
    (quiet : ∀ r ∈ (work k s).s.reqs, r.owner ≠ cmdOwner q k.id) :
    s.runPkt q op k.words work = (work k s).s.modPkt k.id fun x =>
      { x with begun := true, status := if x.status = 0 then (work k s).st else x.status
               detail := if x.status = 0 then (work k s).detail else x.detail, clamp := (work k s).clamp, waits := (work k s).waits } := by
  rw [State.runPkt_due work due]
  generalize work k s = d at *
  obtain ⟨u, st, detail, clamp, ws⟩ := d
  dsimp only at *
  obtain ⟨needs, sends⟩ := idle
  have notHeld : st ≠ stHeld := fun h => absurd (h ▸ answers) (by decide)
  have kept (p : Req → Bool) : (u.reqs.filter fun r => !(decide (r.owner = cmdOwner q k.id) && p r)) = u.reqs := by
    rw [List.filter_eq_self]
    intro r hr
    simp [quiet r hr]
  have none : (u.reqs.any fun r => decide (r.owner = cmdOwner q k.id)) = false := by
    rw [List.any_eq_false]
    intro r hr
    simp [quiet r hr]
  have same : ({ u with reqs := u.reqs, needs := [], sends := [] } : State) = u := by
    obtain ⟨⟩ := u
    simp_all
  have some_wait : ws.isEmpty = false := by simpa using waits
  simp only [State.settleWork, notHeld, answers.ne, if_false, needs, ne_eq, not_true, kept, State.issueRemote, sends, List.foldl_nil, same, none,
    List.append_nil, Bool.false_eq_true, some_wait]

end Sys2Proof.Machine
end

section
/-! PROOF. The packets that give orders (R131, R334, R359, R371, R372, R375, R404): their checks, the acceptance of their orders, and
LINK_CTL's retraining, which gives none. -/

namespace Sys2Proof.Machine

open Sys2Proof.Claims

/-! ### Checks (R359) -/

theorem zero_lt_stWait : 0 < stWait := by decide

theorem ite_lt_of_lt {c : Prop} [Decidable c] {a b n : Nat} (ha : a < n) (hb : b < n) : (if c then a else b) < n := by
  split
  · exact ha
  · exact hb

theorem firstBad_lt {n : Nat} {l : List Nat} (pos : 0 < n) (small : ∀ x ∈ l, x < n) : firstBad l < n :=
  List.foldlRecOn l _ (motive := (· < n)) pos fun _ ha x hx => ite_lt_of_lt (small x hx) ha

/-- A check answers 0 or a status that ends its packet, without a detail. -/
def PlainCheck (e : Nat × Nat) : Prop := e.1 < stWait ∧ e.2 = 0

theorem PlainCheck.ite {c : Prop} [Decidable c] {a b : Nat × Nat} (ha : PlainCheck a) (hb : PlainCheck b) : PlainCheck (if c then a else b) := by
  split
  · exact ha
  · exact hb

/-- A check of one condition after another. -/
theorem PlainCheck.firstBad {l : List Nat} (small : ∀ x ∈ l, x < stWait) : PlainCheck (firstBad l, 0) := ⟨firstBad_lt (by decide) small, rfl⟩

/-- The records that CONFIG carries. -/
def configRecords : List Nat := [0x0301, 0x0801, 0x0901, 0x0A01, 0x0B01, 0x0C01, 0x0C02, 0x0D01, 0x0E01]

theorem recFields_of_config {r : Nat} (h : r ∈ configRecords) : (recFields r).isEmpty = false := by
  simp only [configRecords, List.mem_cons, List.not_mem_nil, or_false] at h
  rcases h with rfl | rfl | rfl | rfl | rfl | rfl | rfl | rfl | rfl <;> rfl

theorem recFields_of_not_config {r : Nat} (h : r ∉ configRecords) : recFields r = [] := by
  simp only [configRecords, List.mem_cons, List.not_mem_nil, or_false, not_or] at h
  obtain ⟨array, split, pantry, regulation, link, dispatch, queue, power, health⟩ := h
  simp only [recFields, recArray, recSplit, recPantry, recRegulation, recLink, recDispatch, recQueue, recPower, recHealth, array, split, pantry,
    regulation, link, dispatch, queue, power, health, if_false]

theorem State.checkConfig_too_many (s : State) (q : Nat) {p : Packet} (known : gRec p ∈ configRecords)
    (many : (recFields (gRec p)).length < gCount p) : s.checkConfig q p = (stBadLength, 0) := by
  simp only [State.checkConfig, recFields_of_config known, Bool.false_eq_true, if_false, many, if_true]

theorem State.checkConfig_unknown (s : State) (q : Nat) {p : Packet} (guard : gRec p ≠ recGuard) (unknown : gRec p ∉ configRecords) :
    s.checkConfig q p = (stBadAddress, 0) := by
  simp only [State.checkConfig, recFields_of_not_config unknown, List.isEmpty_nil, if_true, guard, false_and, if_false]

theorem State.checkQueue_lt (s : State) (q : Nat) (p : Packet) : s.checkQueue q p < stWait := by
  refine firstBad_lt (by decide) ?_
  simp only [List.forall_mem_cons, List.not_mem_nil, false_implies, implies_true, and_true]
  exact ⟨ite_lt_of_lt (by decide) (by decide), ite_lt_of_lt (by decide) (by decide), ite_lt_of_lt (by decide) (by decide)⟩

theorem State.checkConfig_plain (s : State) (q : Nat) (p : Packet) : PlainCheck (s.checkConfig q p) := by
  have queued : firstBad [s.checkQueue q p, if (s.tower (qTower (gInst p))).fence ≠ 0 then stLost else 0] < stWait := by
    refine firstBad_lt (by decide) ?_
    simp only [List.forall_mem_cons, List.not_mem_nil, false_implies, implies_true, and_true]
    exact ⟨s.checkQueue_lt q p, ite_lt_of_lt (by decide) (by decide)⟩
  have unknown : PlainCheck (if gRec p = recGuard ∧ 9 < gCount p then stBadLength else stBadAddress, 0) :=
    ⟨ite_lt_of_lt (by decide) (by decide), rfl⟩
  have tower : PlainCheck (if gMask p = 0 then stBadAddress else if (s.maskTowers (gMask p)).1.isEmpty then stLost else 0, 0) :=
    ⟨ite_lt_of_lt (by decide) (ite_lt_of_lt (by decide) (by decide)), rfl⟩
  exact unknown.ite (.ite ⟨by decide, rfl⟩ (tower.ite (.ite ⟨ite_lt_of_lt (by decide) queued, rfl⟩ ⟨by decide, rfl⟩)))

theorem State.checkFormat_eq (s : State) (q : Nat) (p : Packet) : s.checkFormat q p =
    (if 9 < pbytes p 12 1 then stBadLength else if pbytes p 10 2 < pbytes p 8 2 then stBadAddress else 0, 0) := by
  unfold State.checkFormat firstBad fpCount fpLast fpFirst
  split <;> rfl

theorem State.checkFormat_plain (s : State) (q : Nat) (p : Packet) : PlainCheck (s.checkFormat q p) := by
  rw [State.checkFormat_eq]
  exact ⟨ite_lt_of_lt (by decide) (ite_lt_of_lt (by decide) (by decide)), rfl⟩

theorem State.checkDomain_plain (s : State) (q : Nat) (p : Packet) : PlainCheck (s.checkDomain q p) := by
  refine .firstBad ?_
  simp only [List.forall_mem_cons, List.not_mem_nil, false_implies, implies_true, and_true]
  exact ⟨ite_lt_of_lt (by decide) (by decide), ite_lt_of_lt (by decide) (by decide),
    ite_lt_of_lt (ite_lt_of_lt (by decide) (by decide)) (ite_lt_of_lt (by decide) (by decide))⟩

theorem State.checkDomain_no_tower (s : State) (q : Nat) {p : Packet} (beyond : 3 < pbytes p 8 1) : (s.checkDomain q p).1 = stBadAddress := by
  simp [State.checkDomain, firstBad, dsTower, beyond, stBadAddress]

/-- The cluster that a DOMAIN_STATE names is there. -/
theorem State.checkDomain_cluster (s : State) (q : Nat) {p : Packet} (tower : pbytes p 8 1 ≤ 3) (cluster : pbytes p 10 1 ≤ 127)
    (kind : pbytes p 9 1 = 0) : (s.checkDomain q p).1 =
      if (s.tower (pbytes p 8 1)).fence ≠ 0 ∨ (s.clu (pbytes p 8 1) (pbytes p 10 1)).absent = true then stLost
      else if pbytes p 11 1 = 1 ∧ s.occupied (pbytes p 8 1) (pbytes p 10 1) = true then stBadState else 0 := by
  have there : ¬ (3 < pbytes p 8 1 ∨ 127 < pbytes p 10 1 ∨ 135 < pbytes p 10 1) := by omega
  simp only [State.checkDomain, firstBad, List.foldl_cons, List.foldl_nil, dsTower, dsKind, dsIndex, dsAction, kind, true_and, there,
    if_true, if_false]
  split
  · rfl
  · by_cases off : pbytes p 11 1 = 1 <;> simp [off]

theorem State.checkLink_plain (s : State) (q : Nat) (p : Packet) : PlainCheck (s.checkLink q p) := by
  unfold State.checkLink
  split
  · exact ⟨ite_lt_of_lt (by decide) (by decide), rfl⟩
  · refine .firstBad ?_
    simp only [List.forall_mem_cons, List.not_mem_nil, false_implies, implies_true, and_true]
    exact ⟨ite_lt_of_lt (by decide) (by decide), ite_lt_of_lt (by decide) (by decide)⟩
  · exact ⟨ite_lt_of_lt (by decide) (ite_lt_of_lt (by decide) (by decide)), rfl⟩

theorem State.checkLink_route (s : State) (q : Nat) {p : Packet} (action : pbytes p 8 1 = 0) :
    (s.checkLink q p).1 = if 4095 < pbytes p 10 2 then stBadAddress else 0 := by
  simp only [State.checkLink, lcAction, action]
  rfl

theorem State.checkLink_slot (s : State) (q : Nat) {p : Packet} (action : pbytes p 8 1 = 1) (module : pbytes p 10 2 ≤ 4095)
    (low : 1 ≤ pbytes p 9 1) (high : pbytes p 9 1 ≤ 63) :
    (s.checkLink q p).1 = if s.mod.bridge = none then stBadState else 0 := by
  have named : ¬ (4095 < lcId p ∨ lcSlot p = 0 ∨ 63 < lcSlot p) := by
    simp only [lcId, lcSlot]
    omega
  simp only [State.checkLink, lcAction, action, firstBad, if_neg named, List.foldl_cons, List.foldl_nil, if_true, Option.isNone_iff_eq_none]

/-- A retraining's port runs and is neither disabled nor the bridge's. -/
theorem State.checkLink_port (s : State) (q : Nat) {p : Packet} (action : 2 ≤ lcAction p) : s.checkLink q p =
    (if (s.tower (lcPort p).1).fence ≠ 0 then stLost
     else if (s.port (lcPort p).1 (lcPort p).2).mode = .disabled ∨ (s.port (lcPort p).1 (lcPort p).2).mode = .bridge then stBadState else 0, 0) := by
  unfold State.checkLink
  split
  · omega
  · omega
  · rfl

theorem State.checkOrder_plain (s : State) (q : Nat) (p : Packet) : PlainCheck (s.checkOrder q p) := by
  unfold State.checkOrder
  split
  · exact s.checkConfig_plain q p
  · exact s.checkFormat_plain q p
  · exact s.checkDomain_plain q p
  · exact s.checkLink_plain q p
  · exact ⟨by decide, rfl⟩

/-! ### The acceptance of orders (R375) -/

/-- The machine with a packet's orders, and its own mark, accepted at the present tick. -/
def State.accepting (s : State) (q : Nat) (k : Pkt) : State :=
  { s with mod := { s.mod with orders := s.mod.orders ++ (s.ordersOf q k.words ++ [(tgtMark k.id, 0)]).map fun (x : List Nat × Nat) =>
      ⟨x.1, x.2, q, k.id, s.stamp s.mod.lead / 200, false⟩ } }

theorem State.workOrder_refuses {s : State} {q : Nat} {p : Packet} (bad : (s.checkOrder q p).1 ≠ 0) (k : Pkt) :
    State.workOrder q p k s = .fail s (s.checkOrder q p).1 := by
  simp only [State.workOrder, bad, ne_eq, not_false_eq_true, if_true, (s.checkOrder_plain q p).2]

theorem State.workOrder_accepts {s : State} {q : Nat} {k : Pkt} (good : (s.checkOrder q k.words).1 = 0) :
    State.workOrder q k.words k s = { s := s.accepting q k, waits := [waitOrder] } := by
  simp only [State.workOrder, good, ne_eq, not_true, if_false]
  rfl

/-- The commands that give orders, with their opcodes; a DOMAIN_STATE and a LINK_CTL is one of its own action. -/
def orderRows (q : Fin 1024) (p : Packet) : List (Instr × Nat × Bool) :=
  [(Instr.configCmd q p, 0x40, true), (.formatPolicy q p, 0x42, true), (.powerBudget q p, 0x50, true)
    , (.domainStateOn q p, 0x52, decide (pbytes p 11 1 = 0)), (.domainStateOff q p, 0x52, decide (pbytes p 11 1 = 1))
    , (.domainStateCap q p, 0x52, decide (pbytes p 11 1 = 2)), (.linkCtl q p, 0x90, decide (pbytes p 8 1 ≤ 1))]

theorem exec_orderRow {q : Fin 1024} {p : Packet} {i : Instr} {op : Nat} {own : Bool} (row : (i, op, own) ∈ orderRows q p) (ours : own = true)
    (s : State) : exec i s = .next (s.runPkt q op p (State.workOrder q p)) := by
  have domain {action : Nat} (ours : decide (pbytes p 11 1 = action) = true) :
      s.runDomain q action p = .next (s.runPkt q 0x52 p (State.workOrder q p)) := congrArg Host.Outcome.next (if_pos (of_decide_eq_true ours))
  simp only [orderRows, List.mem_cons, Prod.mk.injEq, List.not_mem_nil, or_false] at row
  rcases row with ⟨rfl, rfl, rfl⟩ | ⟨rfl, rfl, rfl⟩ | ⟨rfl, rfl, rfl⟩ | ⟨rfl, rfl, rfl⟩ | ⟨rfl, rfl, rfl⟩ | ⟨rfl, rfl, rfl⟩ | ⟨rfl, rfl, rfl⟩
  · rfl
  · rfl
  · rfl
  · exact domain ours
  · exact domain ours
  · exact domain ours
  · have work : State.workLinkCtl q p = State.workOrder q p := by
      funext k u
      exact if_pos (of_decide_eq_true ours)
    exact congrArg (fun w => Host.Outcome.next (s.runPkt q 0x90 p w)) work

/-- A packet that gives orders is refused, or its orders are accepted and it waits for the tick that applies them. -/
theorem orderRow_spec {s : State} {q : Fin 1024} {k : Pkt} {i : Instr} {op : Nat} {own : Bool} (row : (i, op, own) ∈ orderRows q k.words)
    (ours : own = true) (due : Due s q op k) :
    ((s.checkOrder q k.words).1 ≠ 0 → Refuses i s q k (s.checkOrder q k.words).1) ∧
    ((s.checkOrder q k.words).1 = 0 → Waits i s k 0 [waitOrder] (· = s.accepting q k)) := by
  refine ⟨fun bad => ⟨_, exec_orderRow row ours s, runPkt_refuses due (s.checkOrder_plain q k.words).1 (State.workOrder_refuses bad k)⟩,
    fun good => ⟨_, rfl, ?_⟩⟩
  have work := State.workOrder_accepts good
  rw [exec_orderRow row ours s, runPkt_waits due (by rw [work]; exact zero_lt_stWait) (by rw [work]; exact List.cons_ne_nil _ _) (by rw [work]; exact due.idle)
    (by rw [work]; exact due.quiet), work]
  rfl

/-! ### Retraining (R329) -/

theorem State.port_portMode (s : State) (t p : Nat) (m : PortMode) : (s.portMode t p m).port t p = { s.port t p with mode := m } := by
  unfold State.portMode
  split
  next h => rw [← h]
  next => exact s.port_modPort t p fun x => { x with mode := m }

/-- A port retrains while it may. -/
theorem State.retrain_of_few {s : State} {t p : Nat} (few : (s.port t p).retrains < s.retrainLimit t) :
    (s.retrain t p).sansPorts = s.sansPorts ∧ ((s.retrain t p).port t p).mode = .training ∧
      ((s.retrain t p).port t p).retrains = (s.port t p).retrains + 1 := by
  rw [State.retrain, if_neg few.not_ge, State.port_portMode, State.port_modPort]
  exact ⟨(State.portMode_sansPorts _ t p .training).trans rfl, rfl, rfl⟩

/-- LINK_CTL of a retraining (R329, R334). -/
theorem retraining_spec {s : State} {q : Fin 1024} {k : Pkt} (due : Due s q 0x90 k) (action : 2 ≤ pbytes k.words 8 1) :
    let e := lcPort k.words
    ((s.tower e.1).fence ≠ 0 → Refuses (.linkCtl q k.words) s q k stLost) ∧
    ((s.tower e.1).fence = 0 → (s.port e.1 e.2).mode = .disabled ∨ (s.port e.1 e.2).mode = .bridge → Refuses (.linkCtl q k.words) s q k stBadState) ∧
    ((s.tower e.1).fence = 0 → (s.port e.1 e.2).mode = .up → (s.port e.1 e.2).retrains < s.retrainLimit e.1 →
      Completes (.linkCtl q k.words) s q k stOK 0 0 fun u => (u.port e.1 e.2).mode = .training ∧
        (u.port e.1 e.2).retrains = (s.port e.1 e.2).retrains + 1) := by
  intro e
  have check := s.checkLink_port q action
  have work : State.workLinkCtl q k.words k s =
      if (s.checkLink q k.words).1 ≠ 0 then .fail s (s.checkLink q k.words).1 (s.checkLink q k.words).2 else { s := s.retrain e.1 e.2 } :=
    if_neg (by simp only [lcAction]; omega)
  have refuses {st : Nat} (bad : s.checkLink q k.words = (st, 0)) (nonzero : st ≠ 0) (small : st < stWait) : Refuses (.linkCtl q k.words) s q k st :=
    ⟨_, rfl, runPkt_refuses due small (by rw [work, bad, if_pos nonzero])⟩
  refine ⟨fun lost => refuses (by rw [check, if_pos lost]) (by decide) (by decide),
    fun runs still => refuses (by rw [check, if_neg (not_not.mpr runs), if_pos still]) (by decide) (by decide), fun runs up few => ?_⟩
  have good : s.checkLink q k.words = (0, 0) := by
    rw [check, if_neg (not_not.mpr runs), if_neg (by rw [up]; decide)]
  rw [good, if_neg (not_not.mpr rfl)] at work
  obtain ⟨sans, mode, count⟩ := State.retrain_of_few few
  have completed := runPkt_completes (work := State.workLinkCtl q k.words) due (by rw [work]; exact zero_lt_stWait) (by rw [work])
    (by rw [work]; exact keeps_of State.needs sans ▸ keeps_of State.sends sans ▸ due.idle)
    (by rw [work]; exact keeps_of State.reqs sans ▸ due.quiet)
    (by rw [work]; exact (keeps_of (State.running? · k.id) sans).trans due.mine)
  rw [work] at completed
  exact ⟨_, _, rfl, ⟨mode, count⟩, completed⟩

end Sys2Proof.Machine

open Sys2Proof Sys2Proof.Machine Sys2Proof.Claims

/-- Settles O42: the checks of the packets that give orders, the acceptance of their orders, and retraining. -/
theorem ordersAreAccepted : Obligations.OrdersAreAccepted := by
  intro s q k
  dsimp only
  refine ⟨fun i op own row ours due => orderRow_spec row ours due, fun config => ?_, fun format => ?_, fun budget => ?_, fun domain => ?_,
    fun link => ?_, fun due action => retraining_spec due action⟩
  · have check : s.checkOrder q k.words = s.checkConfig q k.words := by simp only [State.checkOrder, config]
    rw [check]
    refine ⟨fun many _ known => congrArg Prod.fst (s.checkConfig_too_many q known many), fun unknown => ?_⟩
    have guard : gRec k.words ≠ recGuard := fun h => unknown (by rw [h]; decide)
    have config : gRec k.words ∉ configRecords := fun h => unknown (by
      simp only [configRecords, List.mem_cons] at h ⊢
      tauto)
    exact congrArg Prod.fst (s.checkConfig_unknown q guard config)
  · simp only [State.checkOrder, format, State.checkFormat_eq]
  · simp only [State.checkOrder, budget]
  · have check : s.checkOrder q k.words = s.checkDomain q k.words := by simp only [State.checkOrder, domain]
    rw [check]
    refine ⟨fun beyond => s.checkDomain_no_tower q beyond, fun tower cluster kind lost => ?_, fun tower cluster kind runs there => ?_⟩
    · rw [s.checkDomain_cluster q tower cluster kind, if_pos lost]
    · rw [s.checkDomain_cluster q tower cluster kind, if_neg (by simp [runs, there])]
  · have check : s.checkOrder q k.words = s.checkLink q k.words := by simp only [State.checkOrder, link]
    rw [check]
    exact ⟨s.checkLink_route q, s.checkLink_slot q⟩

end

section
/-! PROOF. A report written to a register of its own queue (R354, R356, R370), in a machine whose store of queues is not in canonical
form. The statement speaks of every state, and lets one packet run in two queues. -/

namespace Sys2Proof.Machine

open Sys2Proof.Claims

/-- A QUERY of tower 0's SPLIT record, which is to be written at CMD_QCPTR of queue 7. -/
def splitQuery : Pkt :=
  { (default : Pkt) with id := 5, words := [0x41#64, 0x1F00170001E8#64, 0x08010001#64, 8#64, 0#64, 0#64, 0#64, 0#64] }

/-- The store of queues lists queue 7 before queue 3, and the QUERY runs in both. -/
def splitQueues : State :=
  { State.reset with
    queues := [(7, { (default : Queue) with running := [splitQuery], ctail := 16#32 }), (3, { (default : Queue) with running := [splitQuery] })] }

/-- The two fields of the record as the reply holds them. -/
def splitReply : List Byte := (splitQueues.recordValues 0x0801 0 0).2.flatMap fun x => leBytes 4 x

theorem splitQueues_due : Due splitQueues (7 : Fin 1024) 0x41 splitQuery :=
  ⟨by decide +kernel, by decide +kernel, by decide +kernel, by simp [splitQueues, State.reset], ⟨rfl, rfl⟩, rfl⟩

/-- CMD_QCPTR takes the eight bytes within the command, and no access follows from them. -/
theorem splitReply_served : splitQueues.crange 0 0x1F00170001E8#64 splitReply.length = 0 ∧
    Served 7 splitQuery (splitQueues.cwriteB (splitQueues.cmdAgent 7 splitQuery) 0x1F00170001E8#64 splitReply) :=
  ⟨by decide +kernel, by decide +kernel, by decide +kernel, by decide +kernel⟩

/-- A queue runs a packet of some number after a command. -/
def Out.runs (q id : Nat) : Out → Bool
  | .next u => (u.queue q).running.any fun x => x.id = id
  | _ => false

/-- The write of chead puts queue 7 behind queue 3 in the store: the packet that ends is queue 3's. -/
theorem splitQuery_stays : Out.runs 7 splitQuery.id (exec (.query 7 splitQuery.words) splitQueues) = true := by
  decide +kernel

/-- A packet that has completed has left its queue. -/
theorem not_runs_of_completed {s u : State} {q st detail clamp : Nat} {k : Pkt} (h : Completed s u q k st detail clamp) :
    Out.runs q k.id (.next u) = false := by
  simp [Out.runs, h.gone]

end Sys2Proof.Machine

open Sys2Proof Sys2Proof.Machine Sys2Proof.Claims

/-- Refutes O44: in a store of queues out of order, a report written to the CMD_QCPTR of its own queue ends the packet of another queue
that has its number, and stays in its own. -/
theorem not_reportsAreWritten : ¬ Obligations.ReportsAreWritten := by
  intro h
  obtain ⟨-, record, -⟩ := h splitQueues 7 splitQuery
  obtain ⟨-, written⟩ := record splitQueues_due (by decide +kernel)
  obtain ⟨s1, u, run, -, completed⟩ := written (by decide +kernel) (by decide +kernel) (by decide +kernel) splitReply_served
  have stays := splitQuery_stays
  rw [run] at stays
  exact Bool.false_ne_true ((not_runs_of_completed completed).symm.trans stays)

end

section
/-! PROOF. The dispatch tick of a machine whose lead tower has a number beyond those of its towers (R375, R404). The statement speaks of
every state, and numbers the waits for commits and for wakes in one list. -/

namespace Sys2Proof.Machine

open Sys2Proof.Claims

/-- A DOMAIN_STATE that switches cluster 0 of tower 0 on, and waits for the dispatch tick. -/
def wakeOrder : Pkt :=
  { (default : Pkt) with id := 1, words := BitVec.ofNat 64 0x52 :: List.replicate 7 0#64, begun := true, waits := [waitOrder] }

/-- The lead tower is number 950, in whose dispatch tick 0 the order was accepted; it has counted to tick 1. Cluster 0 of tower 0 is in
retention. -/
def farLead : State :=
  let order : Order := { target := tgtDomain 0 0, value := 2 ^ 32, q := 0, pkt := 1, tick := 0, safety := false }
  let s : State := { State.reset with
    queues := [(0, { (default : Queue) with running := [wakeOrder] })]
    mod := { State.reset.mod with lead := 950, ready := true, orders := [order] } }
  (s.modTower 950 fun w => { w with stamp := 200#64 }).modClu 0 0 fun x => { x with dom := .retention }

/-- The wait for the commit of such a lead's dispatchers has the number of the wait for cluster 0's wake. -/
theorem dispatch_code_eq_wake_code : (Wait.dispatch 950).code = (Wait.wake 0 0).code := rfl

theorem farLead_queue_next (j : Nat) : (farLead.queue j).next = none := by
  change (SMap.get default [(0, _)] j : Queue).next = none
  rw [SMap.get]
  split <;> rfl

theorem farLead_alone : Alone farLead 0 wakeOrder where
  ready := rfl
  orders := by decide +kernel
  mine := by decide +kernel
  begun := ⟨rfl, rfl, rfl⟩
  quiet := by simp [farLead, State.reset]
  idle := ⟨rfl, rfl⟩
  commits := by decide +kernel
  queues := farLead_queue_next
  only := by decide +kernel
  waiting := by decide +kernel

/-- The tick ends the packet, whose wake has not come. -/
theorem farLead_ends : Out.queueOf wakeOrder.id (exec .dispatchTick farLead) = none := by
  decide +kernel

end Sys2Proof.Machine

open Sys2Proof Sys2Proof.Machine Sys2Proof.Claims

/-- Refutes O43: with a lead tower of number 950 the health manager's commit of the same tick ends the packet that waits for a wake. -/
theorem not_theDispatchTickAppliesOrders : ¬ Obligations.TheDispatchTickAppliesOrders := by
  intro h
  obtain ⟨-, -, -, domain, -⟩ := h.1 farLead 0 wakeOrder
  obtain ⟨-, wakes, -⟩ := domain farLead_alone (by decide +kernel) (by decide +kernel) (by decide +kernel)
  obtain ⟨u, run, ⟨k, runs, -⟩, -⟩ := wakes (by decide +kernel) (by decide +kernel)
  have ends := farLead_ends
  rw [run, Out.queueOf, runs] at ends
  exact absurd ends (by simp)

end

section
/-! PROOF. Thread instructions that issue: what their effect makes of the machine, in the terms of `issued` (R146, R153, R174). -/

namespace Sys2Proof.Machine

open Sys2Proof.Claims

section Issuing

variable {s : State} {h : Th} {op : Nat} {legal : Th → Bool} {run : Th → State → Ran}

/-- The opcode of an instruction with one opcode is listed when its table lists it. -/
theorem listed_of_issues (hi : Issues s h [op] legal) (listed : opListed op = true) : opListed (wOpc h.w) = true := by
  have own : wOpc h.w = op := by simpa using hi.opcode
  rwa [own]

theorem State.setBunch_setBunch (s : State) (k : Nat) (x y : Bunch) : (s.setBunch k x).setBunch k y = s.setBunch k y := by
  simp only [State.setBunch, SMap.put_put]

/-- What the bunch held before its new state counts for nothing. -/
theorem issued_setBunch (s : State) (h : Th) (x y : Bunch) (pc : W32) : issued (s.setBunch (bkey h.b) x) h y pc = issued s h y pc := by
  rw [issued, State.setBunch_setBunch]
  rfl

theorem issue_goes_on (hi : Issues s h [op] legal) {u : State} {y : Bunch} {pc : W32} (ran : run h s = .ok u pc)
    (bunch : u.bunch (bkey h.b) = y) (listed : opListed op = true := by decide) :
    issue [op] legal run h.b h.w s = issued u h y pc := by
  rw [issue_of_issues run hi (listed_of_issues hi listed), ran, issued, ← bunch]
  rfl

theorem issue_writes (hi : Issues s h [op] legal) {u : State} {y : Bunch} {pc : W32} (ran : run h s = .ok (u.setBunch (bkey h.b) y) pc)
    (listed : opListed op = true := by decide) : issue [op] legal run h.b h.w s = issued u h y pc := by
  rw [issue_goes_on hi ran (u.bunch_setBunch _ y) listed, issued_setBunch]

theorem issue_faults (hi : Issues s h [op] legal) {u : State} {i : FaultInfo} (ran : run h s = .fault u i)
    (listed : opListed op = true := by decide) : issue [op] legal run h.b h.w s = u.bunchFault h.b i := by
  rw [issue_of_issues run hi (listed_of_issues hi listed), ran]

theorem issue_retires (hi : Issues s h [op] legal) {u : State} (ran : run h s = .gone u) (listed : opListed op = true := by decide) :
    issue [op] legal run h.b h.w s = u.bump teIssueCntCount 1 h.b.t h.b.c h.b.e := by
  rw [issue_of_issues run hi (listed_of_issues hi listed), ran]

/-- A bunch that issues is ready. -/
theorem ready_of_issues {own : List Nat} (hi : Issues s h own legal) : h.x.run = .ready := by
  have can := hi.can
  simp only [State.canIssue, Bool.and_eq_true, decide_eq_true_eq] at can
  rw [hi.bunch]
  exact can.1

end Issuing

end Sys2Proof.Machine
end

section
/-! PROOF. SET, ARRIVE and the WAITs on tallies, and the release of waiting bunches (R156 to R159, R180, R199). -/

namespace Sys2Proof.Machine

open Sys2Proof.Claims

theorem inWindow_iff (h : Th) (n : Nat) : inWindow h.tm n = true ↔ windowed h n := decide_eq_true_iff

theorem onTally_windowed {f : Th → State → Ran} {h : Th} {s : State} (w : windowed h (wN h.w)) : onTally f h s = f h s :=
  if_pos ((inWindow_iff h _).mpr w)

theorem onTally_beyond {f : Th → State → Ran} {h : Th} {s : State} (w : ¬ windowed h (wN h.w)) :
    onTally f h s = .fault s ⟨.tallyRange, 0, 0⟩ :=
  if_neg fun e => w ((inWindow_iff h _).mp e)

theorem bunch_of_tallyBecomes {s u : State} {t c n : Nat} {y : Tally} (h : TallyBecomes s u t c n y) (k : Nat) : u.bunch k = s.bunch k := by
  have bunches := congrArg State.bunches h.rest
  exact congrArg (SMap.get default · k) bunches

section Instructions

variable {s : State} {h : Th}

/-- SET (R156, R159). -/
theorem exec_setT (hi : Issues s h [0xC0] (sLegal true true true (atMost 1) any_ any_)) (w : windowed h (wN h.w)) :
    exec (.setT h.b h.w) s =
      .next (issued (s.setT h.b.t h.b.c (wN h.w) (h.x.uni (wUa h.w)) (ubImm h) (bit h.w 8)) h h.x (h.x.pc + 8)) :=
  congrArg Host.Outcome.next <| issue_goes_on hi (onTally_windowed w) <|
    (bunch_of_tallyBecomes (s.setT_becomes _ _ _ _ _ _) _).trans hi.bunch.symm

/-- ARRIVE (R156, R159). -/
theorem exec_arrive (hi : Issues s h [0xC1] (sLegal true false true zero_ any_ any_)) (w : windowed h (wN h.w)) :
    exec (.arrive h.b h.w) s = .next (issued (s.arriveT h.b.t h.b.c (wN h.w) (uaImm h).toNat) h h.x (h.x.pc + 8)) :=
  congrArg Host.Outcome.next <| issue_goes_on hi (onTally_windowed w) <|
    (bunch_of_tallyBecomes (s.arriveT_becomes _ _ _ _) _).trans hi.bunch.symm

/-- A tally outside the team's window (R159). -/
theorem exec_beyond_window {i : Instr} {op : Nat} {legal : Th → Bool} {f : Th → State → Ran} (hi : Issues s h [op] legal)
    (run : exec i s = .next (issue [op] legal (onTally f) h.b h.w s)) (w : ¬ windowed h (wN h.w)) (listed : opListed op = true := by decide) :
    exec i s = .next (s.bunchFault h.b ⟨.tallyRange, 0, 0⟩) :=
  run.trans (congrArg Host.Outcome.next (issue_faults hi (onTally_beyond w) listed))

/-- A wait goes on, or holds the bunch at the instruction (R158). -/
theorem exec_wait {i : Instr} {op : Nat} {legal : Th → Bool} {r : Th → BunchRun} (hi : Issues s h [op] legal)
    (run : exec i s = .next (issue [op] legal (onTally fun h s => waitOn h s (r h)) h.b h.w s)) (w : windowed h (wN h.w))
    (listed : opListed op = true := by decide) : exec i s = .next (if s.waitMet h.b.t h.b.c (r h) then issued s h h.x (h.x.pc + 8)
      else issued s h { h.x with run := r h } h.x.pc) := by
  refine run.trans (congrArg Host.Outcome.next ?_)
  have ran : onTally (fun h s => waitOn h s (r h)) h s = waitOn h s (r h) := onTally_windowed w
  split
  next met => exact issue_goes_on hi (ran.trans (if_pos met)) hi.bunch.symm listed
  next unmet =>
    refine issue_writes hi (ran.trans ((if_neg unmet).trans ?_)) listed
    rw [State.modBunch, hi.bunch]

end Instructions

/-- WAIT_RELEASE of a team that runs (R158). -/
theorem exec_waitRelease {s : State} {b : BunchRef} {tm : Team} (team : (s.clu b.t b.c).team = some tm) (runs : tm.stopped = false) :
    exec (.waitRelease b) s = .next (if s.waitMet b.t b.c (s.bunch (bkey b)).run then
      s.setBunch (bkey b) { s.bunch (bkey b) with run := .ready, pc := (s.bunch (bkey b)).pc + 8 } else s) := by
  have goes : s.goes b.t b.c = true := by simp [State.goes, team, runs]
  change execWaitRelease b s = _
  simp only [execWaitRelease, goes, true_and]
  split <;> rfl

/-- The completion of an auto-reset tally that is due again (R158). -/
theorem exec_tallyRepeatComplete {s : State} {r : CluRef} {n : Fin 128} (auto : (s.tally r.t r.c n).auto = true) :
    exec (.tallyRepeatComplete r n) s = .next (s.modTally r.t r.c n Tally.complete) :=
  if_pos auto

end Sys2Proof.Machine

open Sys2Proof Sys2Proof.Machine Sys2Proof.Claims

/-- Settles O11, instruction by instruction. -/
theorem talliesCountAndRelease : Obligations.TalliesCountAndRelease := by
  refine ⟨fun s h => ⟨fun hi => ⟨fun w => ?_, exec_beyond_window hi rfl⟩, fun hi => ⟨fun w => ?_, exec_beyond_window hi rfl⟩,
    fun hi => ⟨fun w => ?_, exec_beyond_window hi rfl⟩, fun hi => ⟨fun w => ?_, exec_beyond_window hi rfl⟩⟩,
    fun s b tm team runs => ?_, fun s r n auto => ?_⟩
  · exact ⟨_, exec_setT hi w, s.setT_becomes _ _ _ _ _ _⟩
  · exact ⟨_, exec_arrive hi w, s.arriveT_becomes _ _ _ _⟩
  · rw [exec_wait (r := fun h => .waitPh (wN h.w) (bit h.w 8)) hi rfl w]
    simp only [State.waitMet, decide_eq_true_eq]
    rfl
  · rw [exec_wait (r := fun h => .waitGe (wN h.w) (uaImm h)) hi rfl w]
    simp only [State.waitMet, decide_eq_true_eq]
    rfl
  · rw [exec_waitRelease team runs]
    dsimp only
    cases (s.bunch (bkey b)).run with
    | waitPh n p =>
      simp only [State.waitMet, decide_eq_true_eq]
      exact ⟨fun met => by rw [if_pos met], fun unmet => by rw [if_neg unmet]⟩
    | waitGe n v =>
      simp only [State.waitMet, decide_eq_true_eq]
      exact ⟨fun met => by rw [if_pos met], fun unmet => by rw [if_neg unmet]⟩
    | _ => simp [State.waitMet]
  · refine ⟨_, exec_tallyRepeatComplete auto, ?_⟩
    rw [← Tally.complete_eq_settled]
    exact s.modTally_becomes _ _ _ _

end

section
/-! PROOF. An armed tally that is due completes once, whoever acts on it (R157). -/

namespace Sys2Proof.Machine

open Sys2Proof.Claims

/-- The completion of R157: a tally `old`, whose count has come to `count`, is `new` at the end of its cycle. -/
def CompletesOnce (old new : Tally) (count : Nat) : Prop :=
  if old.target ≠ 0#32 ∧ old.done = false ∧ old.target.toNat ≤ count then
    new.phase = !old.phase ∧ new.target = old.target ∧ (old.auto = true → new.count.toNat = count - old.target.toNat ∧ new.done = false) ∧
    (old.auto = false → new.count.toNat = count ∧ new.done = true)
  else new.phase = old.phase ∧ new.target = old.target ∧ new.count.toNat = count ∧ new.done = old.done

theorem completesOnce_of_settled {y z : Tally} (h : z = settled y) : CompletesOnce y z y.count.toNat := by
  subst h
  unfold CompletesOnce settled
  by_cases due : y.target ≠ 0#32 ∧ y.done = false ∧ y.target.toNat ≤ y.count.toNat
  · obtain ⟨-, undone, reached⟩ := id due
    have drop : (y.count - y.target).toNat = y.count.toNat - y.target.toNat := BitVec.toNat_sub_of_le (BitVec.le_def.mpr reached)
    rw [if_pos due, if_pos due]
    cases auto : y.auto <;> simp [undone, drop]
  · rw [if_neg due, if_neg due]
    exact ⟨rfl, rfl, rfl, rfl⟩

theorem added_count (y : Tally) (k : Nat) : (added y k).count.toNat = min 0xFFFFFFFF (y.count.toNat + k) :=
  BitVec.toNat_ofNat _ _ |>.trans (Nat.mod_eq_of_lt ((min_le_left _ _).trans_lt (by decide)))

theorem issued_pc (s : State) (h : Th) (y : Bunch) (pc : W32) : ((issued s h y pc).bunch (bkey h.b)).pc = pc :=
  congrArg Bunch.pc (s.bunch_setBunch (bkey h.b) { y with pc := pc })

end Sys2Proof.Machine

open Sys2Proof Sys2Proof.Machine Sys2Proof.Claims

/-- Settles O12: every one of the operations leaves its tally settled. -/
theorem armedTalliesComplete : Obligations.ArmedTalliesComplete := by
  refine ⟨fun s h => ⟨fun hi w => ⟨_, exec_setT hi w, ?_⟩, fun hi w => ⟨_, exec_arrive hi w, ?_⟩, fun hi w _ reached => ?_⟩,
    fun s r n v opened => ⟨_, exec_tallyRegisterWrite s r n (.val v) opened, ?_⟩⟩
  · exact completesOnce_of_settled (s.setT_becomes _ _ _ _ _ _).value
  · have once := completesOnce_of_settled (s.arriveT_becomes h.b.t h.b.c (wN h.w) (uaImm h).toNat).value
    rwa [added_count] at once
  · have met : s.waitMet h.b.t h.b.c (.waitGe (wN h.w) (uaImm h)) = true := decide_eq_true reached
    exact ⟨_, (exec_wait (r := fun h => .waitGe (wN h.w) (uaImm h)) hi rfl w).trans (by rw [if_pos met]), issued_pc _ _ _ _⟩
  · have once := completesOnce_of_settled (s.tallyWrite_becomes r.t r.c n (.val v)).value
    rwa [BitVec.toNat_ofNat] at once

end

section
/-! PROOF. Far lines that fences drop (R290, R292), and what a read of the shelf leaves alone (R239, R437). -/

namespace Sys2Proof.Machine

open Sys2Proof.Claims

/-! ### Far lines -/

/-- An entry of the pantry holds a far line. -/
def HoldsFar (e : Nat × Option PLine) : Prop := ∃ l, e.2 = some l ∧ l.far ≠ none

theorem not_holdsFar_iff {e : Nat × Option PLine} : ¬ HoldsFar e ↔ ∀ l, e.2 = some l → l.far = none := by
  simp only [HoldsFar, not_exists, not_and, not_not]

theorem State.mem_dropAllFar {s : State} {t : Nat} {e : Nat × Option PLine} :
    e ∈ (s.dropAllFar t).mem.pantry ↔ e ∈ s.mem.pantry ∧ ¬ (e.1 / 2 ^ 25 = t ∧ HoldsFar e) := by
  obtain ⟨k, way⟩ := e
  refine List.mem_filter.trans (and_congr_right fun _ => ?_)
  cases way with
  | none => simp [HoldsFar]
  | some l =>
    obtain ⟨line, far, st, mask, pinned, use, born⟩ := l
    cases far <;> simp [HoldsFar]

theorem State.mem_dropFarOf {e : Nat × Option PLine} (ts : List Nat) (s : State) :
    e ∈ (ts.foldl (fun (s : State) t => s.dropAllFar t) s).mem.pantry ↔ e ∈ s.mem.pantry ∧ ¬ (e.1 / 2 ^ 25 ∈ ts ∧ HoldsFar e) := by
  induction ts generalizing s with
  | nil => simp
  | cons t ts ih =>
    rw [List.foldl_cons, ih, State.mem_dropAllFar, List.mem_cons]
    tauto

/-- FENCE.FAR: the far lines of every tower go, and every other line stays. -/
theorem State.mem_dropEveryFar {s : State} {e : Nat × Option PLine} :
    e ∈ s.dropEveryFar.mem.pantry ↔ e ∈ s.mem.pantry ∧ ¬ (e.1 / 2 ^ 25 < 4 ∧ HoldsFar e) := by
  rw [State.dropEveryFar, State.mem_dropFarOf, List.mem_range]

/-- The machine but for the pantry's lines and its pending fills. -/
def State.sansLines (s : State) : State := { s with mem := { s.mem with pantry := [], fills := [] } }

theorem State.dropEveryFar_sansLines (s : State) : s.dropEveryFar.sansLines = s.sansLines :=
  foldl_keeps State.sansLines (f := fun (s : State) t => s.dropAllFar t) (fun _ _ => rfl) (List.range 4) s

theorem State.dropEveryFar_frame (s : State) :
    { s.dropEveryFar with mem := { s.dropEveryFar.mem with pantry := s.mem.pantry, fills := s.mem.fills } } = s :=
  congrArg (fun u : State => { u with mem := { u.mem with pantry := s.mem.pantry, fills := s.mem.fills } }) s.dropEveryFar_sansLines

/-! ### Reads of the shelf -/

/-- u is s but for counted errors and code words of the shelf. -/
def OnlyRead (s u : State) (t c : Nat) : Prop :=
  (∀ l : Loc, l.key ≠ (⟨.shfErrCnt, t, c, 0, 0⟩ : Loc).key → u.reg l = s.reg l) ∧
  { u with regs := s.regs, mem := { u.mem with shelf := s.mem.shelf }, mod := { u.mod with ceNow := s.mod.ceNow } } = s

theorem OnlyRead.bump {s u : State} {t c : Nat} (h : OnlyRead s u t c) {f : Fld} (own : f.reg = .shfErrCnt) (n : Nat) :
    OnlyRead s (u.bump f n t c) t c :=
  ⟨fun l hl => (u.reg_bump_other f n t c 0 0 (own ▸ hl)).trans (h.1 l hl), h.2⟩

theorem OnlyRead.ce {s u : State} {t c : Nat} (h : OnlyRead s u t c) (n : Nat) : OnlyRead s (u.ce n) t c := by
  unfold State.ce
  split
  · exact h
  · exact ⟨h.1, h.2⟩

theorem State.shelfRead_onlyRead (s : State) (t c off n : Nat) : OnlyRead s (s.shelfRead t c off n).2 t c := by
  have counted (u : State) (h : OnlyRead s u t c) (bad : Nat) : OnlyRead s (if bad = 0 then u else u.bump shfErrCntUncorrectable bad t c) t c := by
    split
    · exact h
    · exact h.bump rfl bad
  have putBack (m : SMap (BitVec 13)) : OnlyRead s (s.modMem fun x => { x with shelf := m }) t c := ⟨fun _ _ => rfl, rfl⟩
  unfold State.shelfRead
  refine counted _ ?_ _
  split
  · exact ⟨fun _ _ => rfl, rfl⟩
  · exact ((putBack _).bump rfl _).ce _

theorem clusters_of_shelfWasRead {s u : State} {t c : Nat} (h : ShelfWasRead s u t c) : u.clusters = s.clusters := by
  have clusters := congrArg State.clusters h.rest
  exact clusters

/-- A read of the shelf, in the terms of the statements. -/
theorem State.shelfRead_was (s : State) (t c off n : Nat) : ShelfWasRead s (s.shelfRead t c off n).2 t c := by
  obtain ⟨registers, rest⟩ := s.shelfRead_onlyRead t c off n
  have cells := s.shelfRead_cells t c off n
  refine ⟨fun t' c' off' => ?_, registers, rest⟩
  rw [Claims.shelfByte, State.shelfKey_of_towers cells.parts.2]
  exact cells.cells _

end Sys2Proof.Machine
end

section
/-! PROOF. Commands on tallies, the array, fences and other modules (R156, R158, R341, R365, R367, R369). -/

namespace Sys2Proof.Machine

open Sys2Proof.Claims

/-! ### What the work of a due packet gives -/

/-- A change of every running packet that keeps their numbers. -/
theorem State.running?_map {s u : State} {g : Pkt → Pkt} (same : ∀ k, (g k).id = k.id)
    (queues : u.queues = s.queues.map fun q => (q.1, { q.2 with running := q.2.running.map g })) {id q : Nat} {k : Pkt}
    (mine : s.running? id = some (q, k)) : u.running? id = some (q, g k) := by
  have found : u.running? id = (s.running? id).map fun e => (e.1, g e.2) := by
    unfold State.running?
    rw [queues, List.findSome?_map]
    induction s.queues with
    | nil => rfl
    | cons e qs ih =>
      simp only [List.findSome?_cons, Function.comp_apply, List.find?_map, Function.comp_def, same] at ih ⊢
      cases e.2.running.find? fun p => decide (p.id = id) with
      | none => exact ih
      | some p => rfl
  rw [found, mine]
  rfl

/-- What a packet waits for does not show in its completion. -/
theorem completed_of_waits {s t : State} {q st detail clamp : Nat} {k : Pkt} {ws : List Nat}
    (h : Completed s t q { k with waits := ws } st detail clamp) : Completed s t q k st detail clamp where
  gone := h.gone
  entry := fun loud => by
    obtain ⟨e, entry, done⟩ := h.entry loud
    exact ⟨e, ⟨entry.tag, entry.status, entry.detail, entry.clamp, entry.start, entry.stop, entry.irq, entry.final, entry.energy, entry.reply⟩, done⟩
  silent := h.silent
  queue := h.queue
  others := h.others
  grants := h.grants
  rest := h.rest

section Work

variable {s u : State} {q : Fin 1024} {op : Nat} {k : Pkt} {work : Pkt → State → Did} {i : Instr} (due : Due s q op k)
  (run : exec i s = .next (s.runPkt q op k.words work))

include due run

/-- Work that stops with a status. -/
theorem refuses_of_work {st : Nat} (acts : work k s = .fail s st) (small : st < stWait) : Refuses i s q k st :=
  ⟨_, run, runPkt_refuses due small acts⟩

/-- Work that leaves nothing to wait for; it may change what its own packet waited for before. -/
theorem completes_of_work {st detail clamp : Nat} {ws : List Nat} (acts : work k s = { s := u, st := st, detail := detail, clamp := clamp })
    (small : st < stWait) (idle : u.needs = [] ∧ u.sends = []) (quiet : ∀ r ∈ u.reqs, r.owner ≠ cmdOwner q k.id)
    (mine : u.running? k.id = some (q.val, { k with waits := ws })) : Completes i s q k st detail clamp (· = u) := by
  have notHeld : st ≠ stHeld := fun h => absurd (h ▸ small) (by decide)
  refine ⟨u, _, run, rfl, ?_⟩
  rw [State.runPkt_due work due, acts, State.settleWork_done notHeld small.ne idle.1 idle.2 quiet rfl]
  exact completed_of_waits (completed_of_running (k := { k with waits := ws }) mine due.unsignalled _ _ _)

/-- Work that leaves something to wait for. -/
theorem waits_of_work {clamp : Nat} {ws : List Nat} (acts : work k s = { s := u, st := okStatus clamp, clamp := clamp, waits := ws })
    (some_wait : ws ≠ []) (idle : u.needs = [] ∧ u.sends = []) (quiet : ∀ r ∈ u.reqs, r.owner ≠ cmdOwner q k.id) :
    Waits i s k clamp ws (· = u) := by
  have waits := runPkt_waits (work := work) due (by rw [acts]; exact ite_lt_of_lt (by decide) (by decide)) (by rw [acts]; exact some_wait)
    (by rw [acts]; exact idle) (by rw [acts]; exact quiet)
  rw [acts] at waits
  exact ⟨u, rfl, run.trans (congrArg Host.Outcome.next waits)⟩

/-- Work that has sent requests of its own, no reads among them: the packet waits for their replies too. -/
theorem waits_of_sent {ws : List Nat} (acts : work k s = { s := u, waits := ws }) (idle : u.needs = [] ∧ u.sends = [])
    (kept : ∀ r ∈ u.reqs, r.owner = cmdOwner q k.id → ∀ n, r.op ≠ .load n) (sent : ∃ r ∈ u.reqs, r.owner = cmdOwner q k.id) :
    Waits i s k 0 (ws ++ [Wait.replies.code]) (· = u) := by
  obtain ⟨needs, sends⟩ := idle
  have out : (u.reqs.any fun r => decide (r.owner = cmdOwner q k.id)) = true := by simpa using sent
  have same : ({ u with reqs := u.reqs, needs := [], sends := [] } : State) = u := by
    obtain ⟨⟩ := u
    simp_all
  have notHeld : (0 : Nat) ≠ stHeld := by decide
  have notWait : (0 : Nat) ≠ stWait := by decide
  refine ⟨u, rfl, run.trans (congrArg Host.Outcome.next ?_)⟩
  rw [State.runPkt_due work due, acts]
  simp only [State.settleWork, notHeld, notWait, if_false, needs, ne_eq, not_true, State.issueRemote, sends, List.foldl_nil]
  rw [List.filter_eq_self.mpr, same, out, if_pos rfl]
  · have some_wait : (ws ++ [Wait.replies.code]).isEmpty = false := by simp
    rw [some_wait]
    rfl
  · intro r hr
    by_cases own : r.owner = cmdOwner q k.id
    · have noLoad := kept r hr own
      cases op : r.op with
      | load n => exact absurd op (noLoad n)
      | _ => simp
    · simp [own]

end Work

theorem completes_mono {i : Instr} {s : State} {q st detail clamp : Nat} {k : Pkt} {P Q : State → Prop} (h : Completes i s q k st detail clamp P)
    (weaker : ∀ u, P u → Q u) : Completes i s q k st detail clamp Q := by
  obtain ⟨u, t, run, holds, completed⟩ := h
  exact ⟨u, t, run, weaker u holds, completed⟩

theorem waits_mono {i : Instr} {s : State} {clamp : Nat} {k : Pkt} {ws : List Nat} {P Q : State → Prop} (h : Waits i s k clamp ws P)
    (weaker : ∀ u, P u → Q u) : Waits i s k clamp ws Q := by
  obtain ⟨u, holds, run⟩ := h
  exact ⟨u, weaker u holds, run⟩

/-! ### Tallies of this module -/

theorem served_waits (k : Pkt) (t c n : Nat) (y : Tally) : ∃ ws, served k t c n y = { k with waits := ws } := by
  unfold served
  split
  · exact ⟨_, rfl⟩
  · exact ⟨k.waits, rfl⟩

theorem State.modTally_queues (s : State) (t c n : Nat) (f : Tally → Tally) : (s.modTally t c n f).queues =
    s.queues.map fun q => (q.1, { q.2 with running := q.2.running.map fun k => served k t c n (f (s.tally t c n)) }) := by
  simp only [served_eq]
  rfl

/-- A tally that becomes another leaves every other tally of the module. -/
theorem tally_of_tallyBecomes_other {s u : State} {t c n : Nat} {y : Tally} (h : TallyBecomes s u t c n y) {a b m : Nat}
    (other : cluKey a b ≠ cluKey t c ∨ m ≠ n) : u.tally a b m = s.tally a b m := by
  by_cases here : cluKey a b = cluKey t c
  · have own := h.others m (other.resolve_left (not_not.mpr here))
    simp only [State.tally, State.clu, here] at own ⊢
    exact own
  · exact congrArg (fun x : Cluster => SMap.get default x.tallies m) (h.clusters _ here)

/-- The one effect of a command on a tally: the command completes with OK. -/
theorem completes_modTally {s : State} {q : Fin 1024} {op : Nat} {k : Pkt} {work : Pkt → State → Did} {i : Instr} (due : Due s q op k)
    (run : exec i s = .next (s.runPkt q op k.words work)) {t c n : Nat} {f : Tally → Tally}
    (acts : work k s = { s := s.modTally t c n f }) :
    Completes i s q k stOK 0 0 fun u => u.tally t c n = f (s.tally t c n) ∧
      (∀ a b m, cluKey a b ≠ cluKey t c ∨ m ≠ n → u.tally a b m = s.tally a b m) ∧ u.mem = s.mem ∧ u.regs = s.regs ∧ u.bunches = s.bunches := by
  obtain ⟨ws, waits⟩ := served_waits k t c n (f (s.tally t c n))
  have mine := State.running?_map (u := s.modTally t c n f) (g := fun k => served k t c n (f (s.tally t c n)))
    (fun k => by obtain ⟨ws, e⟩ := served_waits k t c n (f (s.tally t c n)); rw [e]) (s.modTally_queues t c n f) due.mine
  have becomes := s.modTally_becomes t c n f
  refine completes_mono (completes_of_work due run acts zero_lt_stWait due.idle due.quiet (waits ▸ mine)) ?_
  rintro u rfl
  exact ⟨becomes.value, fun a b m other => tally_of_tallyBecomes_other becomes other, rfl, rfl, rfl⟩

theorem State.checkTally_beyond (s : State) {t c n : Nat} (h : 3 < t ∨ 127 < c ∨ 127 < n) : s.checkTally t c n = (stBadAddress, 0) := by
  simp [State.checkTally, firstBad, h, stBadAddress]

theorem State.checkTally_named (s : State) {t c n : Nat} (ht : t ≤ 3) (hc : c ≤ 127) (hn : n ≤ 127) :
    s.checkTally t c n = (s.cluStatus t c, 0) := by
  have h : ¬ (3 < t ∨ 127 < c ∨ 127 < n) := by omega
  simp [State.checkTally, firstBad, h]

/-- A tally that the module does not have, and one of a cluster that is lost (R27, R440). -/
theorem State.onTally_fails {s : State} {t c n st : Nat} (check : s.checkTally t c n = (st, 0)) (bad : st ≠ 0) (f : State → Did) :
    s.onTally t c n f = .fail s st := by
  simp only [State.onTally, check, ne_eq, bad, not_false_eq_true, if_true]

/-- A tally of a cluster that is there and that no TOWER reset holds. -/
def State.TallyHere (s : State) (t c n : Nat) : Prop := t ≤ 3 ∧ c ≤ 127 ∧ n ≤ 127 ∧ s.cluStatus t c = 0 ∧ (s.tower t).inTower = false

theorem State.onTally_here {s : State} {t c n : Nat} (here : s.TallyHere t c n) (f : State → Did) : s.onTally t c n f = f s := by
  obtain ⟨ht, hc, hn, status, runs⟩ := here
  simp only [State.onTally, s.checkTally_named ht hc hn, status, ne_eq, not_true, if_false, runs, Bool.false_eq_true]

theorem State.workTallySet_fails {s : State} {p : Packet} {st : Nat}
    (check : s.checkTally (pbytes p 8 1) (pbytes p 9 1) (pbytes p 10 1) = (st, 0)) (bad : st ≠ 0) (k : Pkt) : State.workTallySet p k s = .fail s st := by
  unfold State.workTallySet
  exact State.onTally_fails check bad _

/-- TALLY_SET on a tally that is there (R156). -/
theorem State.workTallySet_here {s : State} {p : Packet} (here : s.TallyHere (pbytes p 8 1) (pbytes p 9 1) (pbytes p 10 1)) (k : Pkt) :
    State.workTallySet p k s =
      { s := s.setT (pbytes p 8 1) (pbytes p 9 1) (pbytes p 10 1) (BitVec.ofNat 32 (pbytes p 12 4)) (BitVec.ofNat 32 (pbytes p 16 4))
          (decide (pbytes p 11 1 % 2 = 1)) } := by
  unfold State.workTallySet
  exact State.onTally_here here _

/-- TALLY_SIGNAL on a tally of this module (R156). -/
theorem State.workSignal_here {s : State} {p : Packet} (own : pbytes p 8 2 / 2 ^ 15 = 1)
    (here : s.TallyHere (pbytes p 10 1) (pbytes p 11 1) (pbytes p 12 1)) (q : Nat) (k : Pkt) :
    State.workSignal q p k s = { s := s.arriveT (pbytes p 10 1) (pbytes p 11 1) (pbytes p 12 1) (pbytes p 16 4) } := by
  have named : namedModule p = none := if_pos own
  simp only [State.workSignal, named]
  exact State.onTally_here here _

/-- TALLY_SIGNAL to a cluster that no module has (R341). -/
theorem State.workSignal_beyond {s : State} {p : Packet} (far : pbytes p 8 2 / 2 ^ 15 = 0) (beyond : 3 < pbytes p 10 1 ∨ 127 < pbytes p 11 1)
    (q : Nat) (k : Pkt) : State.workSignal q p k s = .fail s stBadAddress := by
  have named : namedModule p = some (pbytes p 8 2 % 4096) := if_neg (by rw [far]; decide)
  have bad : stBadAddress ≠ 0 := by decide
  simp only [State.workSignal, named, State.checkSignal, beyond, if_true, ne_eq, bad, not_false_eq_true]

/-- TALLY_WAIT (R156). -/
theorem tallyWait_spec {s : State} {q : Fin 1024} {k : Pkt} (due : Due s q 0x31 k) {t c n : Nat}
    (ht : t = pbytes k.words 8 1) (hc : c = pbytes k.words 9 1) (hn : n = pbytes k.words 10 1) (here : s.TallyHere t c n) :
    (tallyMet k.words t c n (s.tally t c n) = true → Completes (.tallyWait q k.words) s q k stOK 0 0 (· = s)) ∧
      (tallyMet k.words t c n (s.tally t c n) = false → Waits (.tallyWait q k.words) s k 0 [waitTally] (· = s)) := by
  have work : State.workTallyWait k.words k s = { s := s, waits := if tallyMet k.words t c n (s.tally t c n) then [] else [waitTally] } := by
    subst ht hc hn
    unfold State.workTallyWait
    exact State.onTally_here here _
  constructor <;> intro met <;> simp only [met, if_true, Bool.false_eq_true, if_false] at work
  · exact completes_of_work due rfl work zero_lt_stWait due.idle due.quiet due.mine
  · exact waits_of_work due rfl work (List.cons_ne_nil _ _) due.idle due.quiet

/-! ### Fences -/

/-- A FENCE of the whole module whose flushes are over (R292, R365). -/
theorem fenceCommand_spec {s : State} {q : Fin 1024} {k : Pkt} (due : Due s q 0x01 k) (plain : hFlags k.words = 0)
    (scope : pbytes k.words 8 1 = 4) (begun : k.begun = true) (back : s.backsLeft k.id = false) :
    Completes (.fenceCommand q k.words) s q k stOK 0 0 (· = s.dropEveryFar) := by
  have noEpoch : epochFlag k.words = false := by simp [epochFlag, plain]
  have work : State.workFence q k.words k s = { s := s.dropEveryFar } := by
    simp only [State.workFence, begun, if_true, back, noEpoch, Bool.false_eq_true, false_and, or_false, if_false, scope]
  have kept := s.dropEveryFar_sansLines
  have needs : s.dropEveryFar.needs = s.needs := keeps_of State.needs kept
  have sends : s.dropEveryFar.sends = s.sends := keeps_of State.sends kept
  have reqs : s.dropEveryFar.reqs = s.reqs := keeps_of State.reqs kept
  have running : s.dropEveryFar.running? k.id = s.running? k.id := keeps_of (State.running? · k.id) kept
  exact completes_of_work due rfl work zero_lt_stWait ⟨needs.trans due.idle.1, sends.trans due.idle.2⟩ (reqs ▸ due.quiet) (running.trans due.mine)

/-! ### MATRIX -/

theorem State.cluReady_lost {s : State} {t c : Nat} (lost : s.cluStatus t c = stLost) : s.cluReady t c = stLost := by
  simp [State.cluReady, firstBad, lost, stLost]

theorem State.workMatrix_refuses {s : State} {p : Packet} (lost : s.cluStatus (pbytes p 8 1) (pbytes p 9 1) = stLost) (k : Pkt) :
    State.workMatrix p k s = .fail s stLost := by
  have status : stLost ≠ 0 := by decide
  simp only [State.workMatrix, State.checkMatrix, State.cluReady_lost lost, status, ne_eq, not_false_eq_true, if_true]

/-- The jobs of a MATRIX's descriptors. -/
def State.matrixJobs (s : State) (t off id : Nat) (ds : List (List W64)) : List Job :=
  ds.zipIdx.map fun d => ⟨d.1, off + 64 * d.2, id, s.jobEsc t d.1⟩

theorem requests_of_shelfWasRead {s u : State} {t c : Nat} (h : ShelfWasRead s u t c) : u.needs = s.needs ∧ u.sends = s.sends ∧ u.reqs = s.reqs := by
  have needs := congrArg State.needs h.rest
  have sends := congrArg State.sends h.rest
  have reqs := congrArg State.reqs h.rest
  exact ⟨needs, sends, reqs⟩

theorem State.matrixJobs_words (s : State) (t off id : Nat) (ds : List (List W64)) : (s.matrixJobs t off id ds).map (fun j => j.words) = ds := by
  rw [State.matrixJobs, List.map_map]
  exact List.zipIdx_map_fst 0 ds

theorem State.matrixJobs_owner (s : State) (t off id : Nat) (ds : List (List W64)) : ∀ j ∈ s.matrixJobs t off id ds, j.owner = id := by
  intro j hj
  obtain ⟨d, -, rfl⟩ := List.mem_map.mp hj
  rfl

/-- Jobs that enter the queue of an array after a read of its shelf. -/
theorem State.queue_modArr_of_read {s u : State} {t c : Nat} (was : ShelfWasRead s u t c) (js : List Job) :
    let v := u.modArr t c fun y => { y with queue := y.queue ++ js }
    (v.clu t c).arr.queue = (s.clu t c).arr.queue ++ js ∧ (v.clu t c).tallies = (s.clu t c).tallies ∧ v.queues = s.queues := by
  have same : u.clu t c = s.clu t c := congrArg (SMap.get default · (cluKey t c)) (clusters_of_shelfWasRead was)
  have queues := congrArg State.queues was.rest
  rw [← same]
  exact ⟨by simp [State.modArr], by simp [State.modArr], queues⟩

/-- A MATRIX whose descriptors pass and for which the array's queue has room (R367). -/
theorem matrix_spec {s : State} {q : Fin 1024} {k : Pkt} (due : Due s q 0x21 k) {t c count off : Nat} {r : List (BitVec 9) × State}
    {ds : List (List W64)} (ht : t = pbytes k.words 8 1) (hc : c = pbytes k.words 9 1) (hn : count = (matrixCount k.words).1)
    (hoff : off = pbytes k.words 12 2 * 64) (hr : r = s.shelfRead t c off (64 * count)) (hds : ds = readDescs r.1 count)
    (ready : s.cluReady t c = 0) (runs : (s.tower t).inTower = false) (sound : r.2.matrixFault t c off r.1 ds = none)
    (room : (r.2.clu t c).arr.queue.length + (r.2.clu t c).arr.runs + count ≤ 32) :
    Waits (.matrix q k.words) s k (matrixCount k.words).2 [waitJobs]
      (· = r.2.modArr t c fun y => { y with queue := y.queue ++ r.2.matrixJobs t off k.id ds }) := by
  have fits : ¬ 32 < (r.2.clu t c).arr.queue.length + (r.2.clu t c).arr.runs + count := by omega
  have was : ShelfWasRead s r.2 t c := hr ▸ s.shelfRead_was t c off (64 * count)
  have work : State.workMatrix k.words k s =
      { s := r.2.modArr t c fun y => { y with queue := y.queue ++ r.2.matrixJobs t off k.id ds }
        st := okStatus (matrixCount k.words).2, clamp := (matrixCount k.words).2, waits := [waitJobs] } := by
    subst ht hc hn hoff hr hds
    simp only [State.workMatrix, State.checkMatrix, ready, ne_eq, not_true, if_false, runs, Bool.false_eq_true, sound, fits]
    rfl
  obtain ⟨needs, sends, reqs⟩ := requests_of_shelfWasRead was
  exact waits_of_work due rfl work (List.cons_ne_nil _ _) (needs ▸ sends ▸ due.idle) (reqs ▸ due.quiet)

/-! ### REMOTE -/

theorem State.sendPkt_frame (s : State) (pkt : LinkPkt) : { (s.sendPkt pkt).2 with ports := s.ports } = s := by
  unfold State.sendPkt
  split
  · rfl
  · split
    · rfl
    · dsimp only
      split <;> rfl

/-- A request leaves, and is noted with how it left. -/
theorem State.launchReq_notes (s : State) (r : Req) : ∃ stage status, (s.launchReq r).reqs =
    s.reqs ++ [{ r with sentAt := s.stamp r.tower, stage := stage, status := status }] ∧
    { s.launchReq r with ports := s.ports, reqs := s.reqs } = s := by
  unfold State.launchReq
  dsimp only
  split
  · exact ⟨.done, stFaultLink, rfl, rfl⟩
  case h_2 d _ =>
    have sent := s.sendPkt_frame (s.reqPkt r d)
    have reqs := congrArg State.reqs sent
    split
    all_goals
      rename_i hp
      rw [hp] at sent reqs
      exact ⟨_, _, congrArg (· ++ _) reqs, congrArg (fun u : State => { u with reqs := s.reqs }) sent⟩

theorem State.checkRemote_length {s : State} {p : Packet} (bad : embeddedLength 16 (p.drop 8) ≠ hLength p) : s.checkRemote p = (stBadLength, 0) := by
  simp [State.checkRemote, firstBad, bad, stBadLength]

theorem State.checkRemote_address {s : State} {p : Packet} (good : embeddedLength 16 (p.drop 8) = hLength p) :
    s.checkRemote p = (if 4095 < pbytes p 8 2 ∨ 1023 < pbytes p 10 2 then stBadAddress else 0, 0) := by
  simp [State.checkRemote, firstBad, good]

theorem State.workRemote_refuses {s : State} {q st : Nat} {p : Packet} (check : s.checkRemote p = (st, 0)) (bad : st ≠ 0) (k : Pkt) :
    State.workRemote q p k s = .fail s st := by
  simp only [State.workRemote, check, ne_eq, bad, not_false_eq_true, if_true]

/-- u is s once a packet of its own operation has left for another module: there is one request more, whatever port took it. -/
def PacketLeft (s u : State) (owner : ReqOwner) (op : ReqOp) : Prop :=
  ∃ r, u.reqs = s.reqs ++ [r] ∧ r.id = s.mod.nextId ∧ r.owner = owner ∧ r.op = op ∧ { u with ports := s.ports, reqs := s.reqs, mod := s.mod } = s

theorem State.newId_launchReq (s : State) {r : Req} (id : r.id = s.mod.nextId) : PacketLeft s (s.launchReq r).newId r.owner r.op := by
  obtain ⟨stage, status, reqs, frame⟩ := s.launchReq_notes r
  exact ⟨_, reqs, id, rfl, rfl, congrArg (fun u : State => { u with mod := s.mod }) frame⟩

theorem State.sendOwn_left (s : State) (g : Agent) (m op : Nat) (w1 : W64) (slots : List (BitVec 128)) :
    PacketLeft s (s.sendOwn g m op w1 slots) g.owner (.packet op w1 slots) := by
  unfold State.sendOwn
  generalize 2 ^ 63 + m * 2 ^ 48 = a
  exact s.newId_launchReq (r := s.mkReq a (.packet op w1 slots) g.cls g.owner g.t) rfl

/-- The machine once the CMD of a REMOTE has left. -/
def State.remoteSent (s : State) (q : Nat) (k : Pkt) : State :=
  s.sendOwn (s.cmdAgent q k) (pbytes k.words 8 2) opCMD (mkRspW (64 * hLength k.words) 0 (pbytes k.words 10 2) false)
    (dataSlots (bytesOf (k.words.drop 8)))

theorem State.remoteSent_left (s : State) (q : Nat) (k : Pkt) : PacketLeft s (s.remoteSent q k) (cmdOwner q k.id)
    (.packet opCMD (mkRspW (64 * hLength k.words) 0 (pbytes k.words 10 2) false) (dataSlots (bytesOf (k.words.drop 8)))) :=
  s.sendOwn_left (s.cmdAgent q k) _ _ _ _

theorem State.workRemote_sends {s : State} {q : Nat} {k : Pkt} (good : s.checkRemote k.words = (0, 0)) : State.workRemote q k.words k s =
    { s := s.remoteSent q k, waits := if hFlags k.words % 2 = 1 then [waitCmp] else [] } := by
  simp only [State.workRemote, good, ne_eq, not_true, if_false, State.remoteSent]

theorem requests_of_packetLeft {s u : State} {owner : ReqOwner} {op : ReqOp} (h : PacketLeft s u owner op) :
    u.needs = s.needs ∧ u.sends = s.sends := by
  obtain ⟨r, reqs, id, owner, op, frame⟩ := h
  have needs := congrArg State.needs frame
  have sends := congrArg State.sends frame
  exact ⟨needs, sends⟩

theorem rest_of_packetLeft {s u : State} {owner : ReqOwner} {op : ReqOp} (h : PacketLeft s u owner op) :
    u.mem = s.mem ∧ u.queues = s.queues ∧ ∃ r, u.reqs = s.reqs ++ [r] ∧ r.id = s.mod.nextId ∧ r.owner = owner ∧ r.op = op := by
  obtain ⟨r, reqs, id, owner, op, frame⟩ := h
  have mem := congrArg State.mem frame
  have queues := congrArg State.queues frame
  exact ⟨mem, queues, r, reqs, id, owner, op⟩

/-- A command whose one effect is a packet that it sends: it waits for the reply too. -/
theorem waits_of_packetLeft {s v : State} {q : Fin 1024} {n : Nat} {k : Pkt} {work : Pkt → State → Did} {i : Instr} {op : ReqOp} {ws : List Nat}
    (due : Due s q n k) (run : exec i s = .next (s.runPkt q n k.words work)) (acts : work k s = { s := v, waits := ws })
    (left : PacketLeft s v (cmdOwner q k.id) op) (noLoad : ∀ n, op ≠ .load n) : Waits i s k 0 (ws ++ [Wait.replies.code]) (· = v) := by
  obtain ⟨needs, sends⟩ := requests_of_packetLeft left
  obtain ⟨r, reqs, -, owner, rop, -⟩ := left
  refine waits_of_sent due run acts ⟨needs.trans due.idle.1, sends.trans due.idle.2⟩ (fun x hx own => ?_)
    ⟨r, by rw [reqs]; exact List.mem_append_right _ (.head _), owner⟩
  rw [reqs, List.mem_append, List.mem_singleton] at hx
  rcases hx with old | rfl
  · exact absurd own (due.quiet x old)
  · exact rop ▸ noLoad

/-- A REMOTE that passes its checks (R369). -/
theorem remote_spec {s : State} {q : Fin 1024} {k : Pkt} (due : Due s q 0x91 k) (good : s.checkRemote k.words = (0, 0)) :
    Waits (.remote q k.words) s k 0 ((if hFlags k.words % 2 = 1 then [waitCmp] else []) ++ [Wait.replies.code]) (· = s.remoteSent q k) :=
  waits_of_packetLeft due rfl (State.workRemote_sends good) (s.remoteSent_left q k) nofun

end Sys2Proof.Machine

open Sys2Proof Sys2Proof.Machine Sys2Proof.Claims

/-- Settles O40, command by command. -/
theorem commandsActOnTalliesAndEngines : Obligations.CommandsActOnTalliesAndEngines := by
  intro s q k
  dsimp only
  refine ⟨fun due => ?_, fun due plain scope begun back => ?_, fun due => ⟨fun beyond => ?_, fun ht hc hn lost => ?_, fun here => ?_⟩,
    fun due own ha hb hm status runs => ?_, fun due other beyond => ?_, fun due here => ?_, fun due ready runs sound room => ?_,
    fun due lost => ?_, fun due bad => ?_, fun due good beyond => ?_, fun due good module agent => ?_⟩
  · exact completes_of_work due rfl rfl zero_lt_stWait due.idle due.quiet due.mine
  · refine completes_mono (fenceCommand_spec due plain scope begun back) ?_
    rintro u rfl
    have kept := s.dropEveryFar_sansLines
    refine ⟨fun e he tower => not_holdsFar_iff.mp fun far => ?_, keeps_of (fun u => u.mem.hbm) kept, keeps_of (fun u => u.mem.cells) kept,
      keeps_of State.queues kept, keeps_of State.clusters kept⟩
    exact (State.mem_dropEveryFar.mp he).2 ⟨tower, far⟩
  · exact refuses_of_work due rfl (State.workTallySet_fails (s.checkTally_beyond beyond) (by decide) k) (by decide)
  · exact refuses_of_work due rfl (State.workTallySet_fails ((s.checkTally_named ht hc hn).trans (by rw [lost])) (by decide) k) (by decide)
  · refine completes_mono (completes_modTally due rfl (State.workTallySet_here here k)) ?_
    rintro u ⟨value, others⟩
    refine ⟨value.trans ?_, others⟩
    rw [Tally.complete_eq_settled]
    simp [settled, Tally.set]
  · exact completes_modTally due rfl (State.workSignal_here own ⟨ha, hb, hm, status, runs⟩ q k)
  · exact refuses_of_work due rfl (State.workSignal_beyond other beyond q k) (by decide)
  · exact tallyWait_spec due rfl rfl rfl here
  · refine waits_mono (matrix_spec (count := max 1 (min 16 (pbytes k.words 10 1))) due rfl rfl rfl rfl rfl rfl ready runs sound room) ?_
    rintro u rfl
    obtain ⟨queue, tallies, queues⟩ := State.queue_modArr_of_read (s.shelfRead_was _ _ _ _) _
    exact ⟨_, queue, State.matrixJobs_words .., State.matrixJobs_owner _ _ _ _ _, tallies, queues⟩
  · exact refuses_of_work due rfl (State.workMatrix_refuses lost k) (by decide)
  · exact refuses_of_work due rfl (State.workRemote_refuses (State.checkRemote_length bad) (by decide) k) (by decide)
  · exact refuses_of_work due rfl (State.workRemote_refuses ((State.checkRemote_address good).trans (by rw [if_pos beyond])) (by decide) k) (by decide)
  · have small : ¬ (4095 < pbytes k.words 8 2 ∨ 1023 < pbytes k.words 10 2) := by omega
    refine waits_mono (remote_spec due ((State.checkRemote_address good).trans (by rw [if_neg small]))) ?_
    rintro u rfl
    exact rest_of_packetLeft (s.remoteSent_left q k)

end

section
/-! PROOF. Teams that LAUNCH places (R142, R143, R367) and invocations that the precision guard evaluates (R133). -/

namespace Sys2Proof.Machine

open Sys2Proof.Claims

/-! ### Steps for each element of a list -/

/-- A step for each element of a list, seen where only the step of one of them counts. -/
theorem foldl_seen_at {σ α β : Type} {f : σ → α → σ} (see : σ → β) {a : α} {l : List α} (hn : l.Nodup) (ha : a ∈ l)
    (other : ∀ s, ∀ b ∈ l, b ≠ a → see (f s b) = see s) (s : σ) : ∃ x, see x = see s ∧ see (l.foldl f s) = see (f x a) := by
  obtain ⟨p, q, rfl⟩ := List.append_of_mem ha
  have unseen (m : List α) (hm : ∀ b ∈ m, b ∈ p ++ a :: q ∧ b ≠ a) (x : σ) : see (m.foldl f x) = see x :=
    List.foldlRecOn m f (motive := fun y => see y = see x) rfl fun y hy b hb => (other y b (hm b hb).1 (hm b hb).2).trans hy
  obtain ⟨-, hq, hp⟩ := List.nodup_append.mp hn
  refine ⟨p.foldl f s, unseen p (fun b hb => ⟨by simp [hb], hp b hb a (.head _)⟩) s, ?_⟩
  rw [List.foldl_append, List.foldl_cons]
  exact unseen q (fun b hb => ⟨by simp [hb], fun e => (List.nodup_cons.mp hq).1 (e ▸ hb)⟩) _

/-- Steps none of which is seen. -/
theorem foldl_unseen {σ α β : Type} {f : σ → α → σ} (see : σ → β) {l : List α} (h : ∀ s, ∀ a ∈ l, see (f s a) = see s) (s : σ) :
    see (l.foldl f s) = see s :=
  List.foldlRecOn l f (motive := fun x => see x = see s) rfl fun x hx a ha => (h x a ha).trans hx

/-! ### Keys -/

theorem cluKey_inj {a b t c : Nat} (hb : b < 128) (hc : c < 128) (h : cluKey a b = cluKey t c) : a = t ∧ b = c := by
  unfold cluKey at h
  omega

theorem slotOf_inj {a b i t c j : Nat} (hi : i < 64) (hj : j < 64) (h : slotOf a b i = slotOf t c j) : cluKey a b = cluKey t c ∧ i = j := by
  unfold slotOf bunchKey at h
  unfold cluKey
  omega

/-! ### Placing teams -/

/-- The bunches of a team that have a thread alive, in their slots. -/
def State.placeBunches (s : State) (t c : Nat) (tm : Team) : State :=
  (List.range tm.team).foldl (fun (s : State) b =>
    if decide (64 * b < tm.threads) then
      s.setBunch (bunchKey t c (b % 4) (b / 4)) { (default : Bunch) with run := .placed, launch := tm.launch, idx := b }
    else s) s

theorem State.placeTeam_eq (s : State) (t c : Nat) (tm : Team) : s.placeTeam t c tm =
    ((s.placeBunches t c tm).modClu t c fun x => { x with team := some tm, bars := [], barSince := [], fetchAt := [] }).showTeam t c tm := rfl

theorem State.setRegs_regs (s : State) (a b c : Loc) (x y z : W64) :
    ∃ regs, ((s.setReg a x).setReg b y).setReg c z = { s with regs := regs } := ⟨_, rfl⟩

/-- Only registers show a team. -/
theorem State.showTeam_regs (s : State) (t c : Nat) (tm : Team) : ∃ regs, s.showTeam t c tm = { s with regs := regs } := by
  unfold State.showTeam
  exact State.setRegs_regs ..

/-- A team stands on its cluster and in its slots; beside them only registers change. -/
theorem State.placeTeam_regs (s : State) (t c : Nat) (tm : Team) : ∃ regs, s.placeTeam t c tm =
    { (s.placeBunches t c tm).modClu t c fun x => { x with team := some tm, bars := [], barSince := [], fetchAt := [] } with regs := regs } :=
  s.placeTeam_eq t c tm ▸ State.showTeam_regs _ t c tm

theorem State.bunch_placeTeam (s : State) (t c : Nat) (tm : Team) (k : Nat) : (s.placeTeam t c tm).bunch k = (s.placeBunches t c tm).bunch k := by
  obtain ⟨regs, placed⟩ := s.placeTeam_regs t c tm
  rw [placed]
  rfl

theorem State.placeBunches_clusters (s : State) (t c : Nat) (tm : Team) : (s.placeBunches t c tm).clusters = s.clusters := by
  refine foldl_keeps State.clusters (fun u b => ?_) _ s
  split <;> rfl

/-- A team's own slots: a bunch with a thread alive is placed, another slot is as it was. -/
theorem State.placeBunches_own (s : State) {t c b : Nat} {tm : Team} (small : tm.team ≤ 64) (hb : b < tm.team) :
    (s.placeBunches t c tm).bunch (Machine.slotOf t c b) =
      if 64 * b < tm.threads then { (default : Bunch) with run := .placed, launch := tm.launch, idx := b } else s.bunch (Machine.slotOf t c b) := by
  have other (u : State) (d : Nat) (hd : d ∈ List.range tm.team) (differs : d ≠ b) :
      (if decide (64 * d < tm.threads) then
        u.setBunch (bunchKey t c (d % 4) (d / 4)) { (default : Bunch) with run := .placed, launch := tm.launch, idx := d }
      else u).bunch (Machine.slotOf t c b) = u.bunch (Machine.slotOf t c b) := by
    have slot : Machine.slotOf t c b ≠ Machine.slotOf t c d := fun e =>
      differs (slotOf_inj (by have := List.mem_range.mp hd; omega) (by omega) e.symm).2
    split
    · exact State.bunch_setBunch_other _ slot _
    · rfl
  obtain ⟨x, hx, seen⟩ := foldl_seen_at (fun s : State => s.bunch (Machine.slotOf t c b)) List.nodup_range (List.mem_range.mpr hb) other s
  rw [State.placeBunches, seen]
  by_cases alive : 64 * b < tm.threads
  · simp only [alive, decide_true, if_true]
    exact State.bunch_setBunch _ _ _
  · simpa only [alive, decide_false, Bool.false_eq_true, if_false] using hx

/-- A team leaves the slots of the other clusters alone. -/
theorem State.placeBunches_other (s : State) {t c a d b : Nat} {tm : Team} (small : tm.team ≤ 64) (hb : b < 64) (other : cluKey a d ≠ cluKey t c) :
    (s.placeBunches t c tm).bunch (Machine.slotOf a d b) = s.bunch (Machine.slotOf a d b) := by
  refine foldl_unseen (fun s : State => s.bunch (Machine.slotOf a d b)) (fun u i hi => ?_) s
  dsimp only
  split
  · exact State.bunch_setBunch_other _ (fun e => other (slotOf_inj hb (by have := List.mem_range.mp hi; omega) e).1) _
  · rfl

theorem State.clu_placeTeam (s : State) (t c : Nat) (tm : Team) : (s.placeTeam t c tm).clu t c =
    { s.clu t c with team := some tm, bars := [], barSince := [], fetchAt := [] } := by
  obtain ⟨regs, placed⟩ := s.placeTeam_regs t c tm
  have same : (s.placeBunches t c tm).clu t c = s.clu t c := congrArg (SMap.get Cluster.init · (cluKey t c)) (s.placeBunches_clusters t c tm)
  rw [placed, ← same]
  exact SMap.get_put_self _ _ _ _

theorem State.clusters_placeTeam_other (s : State) {t c n : Nat} (h : n ≠ cluKey t c) (tm : Team) :
    SMap.get Cluster.init (s.placeTeam t c tm).clusters n = SMap.get Cluster.init s.clusters n := by
  obtain ⟨regs, placed⟩ := s.placeTeam_regs t c tm
  rw [placed, ← s.placeBunches_clusters t c tm]
  exact SMap.get_put_other _ _ h

theorem State.clu_placeTeam_other (s : State) {t c a d : Nat} (h : cluKey a d ≠ cluKey t c) (tm : Team) : (s.placeTeam t c tm).clu a d = s.clu a d := by
  rw [State.clu, s.clusters_placeTeam_other h, State.clu]

/-- The machine but for its teams: clusters, bunches and the registers that show them. -/
def State.sansTeams (s : State) : State := { s with clusters := [], bunches := [], regs := [] }

theorem State.placeTeam_sansTeams (s : State) (t c : Nat) (tm : Team) : (s.placeTeam t c tm).sansTeams = s.sansTeams := by
  obtain ⟨regs, placed⟩ := s.placeTeam_regs t c tm
  rw [placed]
  refine foldl_keeps State.sansTeams (fun (u : State) b => ?_) (List.range tm.team) s
  split <;> rfl

/-- Teams on clusters, in order. -/
def State.placeTeams (s : State) (cs : List (Nat × Nat)) (team : Nat → Team) : State :=
  cs.zipIdx.foldl (fun s x => s.placeTeam x.1.1 x.1.2 (team x.2)) s

theorem State.placeTeams_sansTeams (s : State) (cs : List (Nat × Nat)) (team : Nat → Team) : (s.placeTeams cs team).sansTeams = s.sansTeams :=
  foldl_keeps State.sansTeams (fun u _ => u.placeTeam_sansTeams _ _ _) _ s

theorem State.placeTeams_clusters_other (s : State) {cs : List (Nat × Nat)} (team : Nat → Team) {n : Nat} (h : ∀ x ∈ cs, n ≠ cluKey x.1 x.2) :
    SMap.get Cluster.init (s.placeTeams cs team).clusters n = SMap.get Cluster.init s.clusters n :=
  foldl_unseen (fun s : State => SMap.get Cluster.init s.clusters n)
    (fun u _ hx => u.clusters_placeTeam_other (h _ (List.fst_mem_of_mem_zipIdx hx)) _) s

section

variable (s : State) {cs : List (Nat × Nat)} {i t c : Nat} (team : Nat → Team) (nodup : cs.Nodup) (named : ∀ x ∈ cs, x.2 < 128) (at_ : cs[i]? = some (t, c))

include nodup named at_

/-- A named cluster's own team is the one that what is seen of the cluster comes from. -/
theorem State.placeTeams_seen {β : Type} (see : State → β)
    (other : ∀ (s : State) a d j, cluKey t c ≠ cluKey a d → see (s.placeTeam a d (team j)) = see s) :
    ∃ x, see x = see s ∧ see (s.placeTeams cs team) = see (x.placeTeam t c (team i)) := by
  have here : ((t, c), i) ∈ cs.zipIdx := List.mem_zipIdx_iff_getElem?.mpr at_
  have distinct : cs.zipIdx.Nodup := .of_map Prod.snd (by rw [List.zipIdx_map_snd]; exact List.nodup_range')
  refine foldl_seen_at see distinct here (fun u x hx differs => other u _ _ _ fun same => differs ?_) s
  have there := List.mem_zipIdx_iff_getElem?.mp hx
  obtain ⟨tower, cluster⟩ := cluKey_inj (named _ (List.mem_of_getElem? at_)) (named _ (List.mem_of_getElem? there)) same
  have place : x.1 = (t, c) := Prod.ext tower.symm cluster.symm
  obtain ⟨bound, -⟩ := List.getElem?_eq_some_iff.mp at_
  have index : i = x.2 := (List.getElem?_inj bound nodup).mp (at_.trans (place ▸ there).symm)
  exact Prod.ext place index.symm

theorem State.team_placeTeams : ((s.placeTeams cs team).clu t c).team = some (team i) := by
  obtain ⟨x, -, seen⟩ := s.placeTeams_seen team nodup named at_ (fun s => (s.clu t c).team) fun s a d j h => by rw [s.clu_placeTeam_other h]
  rw [seen, State.clu_placeTeam]

theorem State.bunch_placeTeams (small : ∀ j, (team j).team ≤ 64) {b : Nat} (hb : b < (team i).team) :
    (s.placeTeams cs team).bunch (Machine.slotOf t c b) = if 64 * b < (team i).threads then
      { (default : Bunch) with run := .placed, launch := (team i).launch, idx := b } else s.bunch (Machine.slotOf t c b) := by
  obtain ⟨x, same, seen⟩ := s.placeTeams_seen team nodup named at_ (fun s => s.bunch (Machine.slotOf t c b)) fun s a d j h =>
    (s.bunch_placeTeam ..).trans (s.placeBunches_other (small j) (hb.trans_le (small i)) h)
  rw [seen, State.bunch_placeTeam, x.placeBunches_own (small i) hb, same]

end

theorem maskClusters_nodup (towers mask : Nat) : (maskClusters towers mask).Nodup := by
  refine List.nodup_flatMap.mpr ⟨fun t _ => (List.nodup_range.filter _).map fun _ _ h => congrArg Prod.snd h, ?_⟩
  refine (List.nodup_range.filter _).imp fun {a b} differs x ha hb => differs ?_
  obtain ⟨c, -, rfl⟩ := List.mem_map.mp ha
  obtain ⟨d, -, same⟩ := List.mem_map.mp hb
  exact (congrArg Prod.fst same).symm

theorem maskClusters_lt {towers mask : Nat} {x : Nat × Nat} (h : x ∈ maskClusters towers mask) : x.2 < 128 := by
  simp only [maskClusters, List.mem_flatMap, List.mem_map, List.mem_filter, List.mem_range] at h
  obtain ⟨-, -, c, ⟨hc, -⟩, rfl⟩ := h
  exact hc

/-! ### LAUNCH -/

theorem State.checkRange_lt (s : State) (rt : Nat) : ∀ f ga n, s.checkRange rt f ga n < stWait
  | 0, _, _ => zero_lt_stWait
  | f + 1, ga, n => by
    unfold State.checkRange
    refine ite_lt_of_lt zero_lt_stWait ?_
    dsimp only
    split
    · decide
    · decide
    · exact State.checkRange_lt s rt f _ _

theorem State.codeStatus_lt (s : State) (t : Nat) (p : Packet) : s.codeStatus t p < stWait := by
  unfold State.codeStatus
  split
  · decide
  · exact ite_lt_of_lt (by decide) (s.checkRange_lt _ _ _ _)

theorem State.cluStatus_lt (s : State) (t c : Nat) : s.cluStatus t c < stWait :=
  ite_lt_of_lt (by decide) (ite_lt_of_lt (by decide) (by decide))

theorem State.cluReady_lt (s : State) (t c : Nat) : s.cluReady t c < stWait := by
  refine firstBad_lt (by decide) ?_
  simp only [List.forall_mem_cons, List.not_mem_nil, false_implies, implies_true, and_true]
  refine ⟨s.cluStatus_lt t c, ?_⟩
  split <;> decide

theorem State.checkLaunch_plain (s : State) (q : Nat) (p : Packet) : PlainCheck (s.checkLaunch q p) := by
  refine .firstBad ?_
  simp only [List.forall_mem_cons, List.not_mem_nil, false_implies, implies_true, and_true]
  refine ⟨s.codeStatus_lt _ p, ite_lt_of_lt (by decide) (by decide), firstBad_lt (by decide) ?_, ite_lt_of_lt (by decide) (by decide)⟩
  intro x hx
  obtain ⟨e, -, rfl⟩ := List.mem_map.mp hx
  exact s.cluReady_lt _ _

/-- The team with a number that a LAUNCH places. -/
def State.teamOf (s : State) (k : Pkt) (i : Nat) : Team :=
  let g (i : Nat) : Nat := (launchFields k.words).getD i 0
  { launch := k.id, index := i, team := g 1, threads := g 2, alloc := allocOf (g 0), cacheKib := cacheKibOf (g 3)
    spillDepth := g 4, spillBase := g 5, tallyBase := g 6, tallyCount := g 7, barTimeout := g 8
    codeBase := (s.moduleAddr (wordAt k.words 1)).getD 0, codeLen := pbytes k.words 16 4, args := launchArgs k.words
    retired := (List.range (g 1)).filter fun b => decide (g 2 ≤ 64 * b), stopped := false }

/-- The machine once a LAUNCH's teams stand. -/
def State.launched (s : State) (q : Nat) (k : Pkt) : State :=
  (s.placeTeams (launchClusters k.words) (s.teamOf k)).modMod fun m => { m with launches := m.launches ++
    [⟨k.id, q, k.id, (launchClusters k.words).map fun x => cluKey x.1 x.2, none, 0, s.stamp (qTower q)⟩] }

theorem State.workLaunch_refuses {s : State} {q : Nat} {p : Packet} (bad : (s.checkLaunch q p).1 ≠ 0) (k : Pkt) :
    State.workLaunch q p k s = .fail s (s.checkLaunch q p).1 := by
  simp only [State.workLaunch, bad, ne_eq, not_false_eq_true, if_true, (s.checkLaunch_plain q p).2]

theorem State.workLaunch_none {s : State} {q : Nat} {p : Packet} (good : (s.checkLaunch q p).1 = 0) (none : launchClusters p = []) (k : Pkt) :
    State.workLaunch q p k s =
      { s := s, st := okStatus (clampMask (launchRaw p) (launchFields p)), clamp := clampMask (launchRaw p) (launchFields p) } := by
  simp only [State.workLaunch, good, ne_eq, not_true, if_false, none, List.find?_nil, List.isEmpty_nil, if_true]

theorem State.workLaunch_places {s : State} {q : Nat} {k : Pkt} (good : (s.checkLaunch q k.words).1 = 0) (some_cluster : launchClusters k.words ≠ [])
    (runs : ∀ x ∈ launchClusters k.words, (s.tower x.1).inTower = false) : State.workLaunch q k.words k s =
      { s := s.launched q k, st := okStatus (clampMask (launchRaw k.words) (launchFields k.words))
        clamp := clampMask (launchRaw k.words) (launchFields k.words), waits := [waitTeams] } := by
  have notHeld : (launchClusters k.words).find? (fun x => (s.tower x.1).inTower) = none := by
    simpa only [List.find?_eq_none, Bool.not_eq_true] using runs
  have more : (launchClusters k.words).isEmpty = false := by simpa using some_cluster
  simp only [State.workLaunch, good, ne_eq, not_true, if_false, notHeld, more, Bool.false_eq_true]
  rfl

theorem State.teamOf_team_le (s : State) (k : Pkt) (i : Nat) : (s.teamOf k i).team ≤ 64 := by
  simp only [State.teamOf, launchFields, clampN, List.getD_cons_succ, List.getD_cons_zero]
  omega

theorem State.mem_retired_teamOf (s : State) (k : Pkt) (i b : Nat) : b ∈ (s.teamOf k i).retired ↔
    b < (launchFields k.words).getD 1 0 ∧ (launchFields k.words).getD 2 0 ≤ 64 * b := by
  simp [State.teamOf]

theorem okStatus_lt (clamp : Nat) : okStatus clamp < stWait := ite_lt_of_lt (by decide) (by decide)

theorem rest_of_sansTeams {s u : State} (h : { u.sansTeams with mod := s.mod } = s.sansTeams) : u.needs = s.needs ∧ u.sends = s.sends ∧
    u.reqs = s.reqs ∧ u.mem = s.mem ∧ u.queues = s.queues ∧ u.towers = s.towers := by
  have needs := congrArg State.needs h
  have sends := congrArg State.sends h
  have reqs := congrArg State.reqs h
  have mem := congrArg State.mem h
  have queues := congrArg State.queues h
  have towers := congrArg State.towers h
  exact ⟨needs, sends, reqs, mem, queues, towers⟩

theorem State.launched_sansTeams (s : State) (q : Nat) (k : Pkt) : { (s.launched q k).sansTeams with mod := s.mod } = s.sansTeams :=
  congrArg (fun u : State => { u with mod := s.mod }) (s.placeTeams_sansTeams (launchClusters k.words) (s.teamOf k))

theorem State.launched_launches (s : State) (q : Nat) (k : Pkt) : (s.launched q k).mod.launches = s.mod.launches ++
    [⟨k.id, q, k.id, (launchClusters k.words).map fun x => cluKey x.1 x.2, none, 0, s.stamp (qTower q)⟩] := by
  have same : (s.placeTeams (launchClusters k.words) (s.teamOf k)).mod = s.mod := keeps_of State.mod (s.placeTeams_sansTeams _ _)
  rw [State.launched, State.modMod_mod, same]

/-- A named cluster's team and its bunches. -/
theorem State.launched_team (s : State) (q : Nat) (k : Pkt) {i t c : Nat} (at_ : (launchClusters k.words)[i]? = some (t, c)) :
    ((s.launched q k).clu t c).team = some (s.teamOf k i) ∧ ∀ b, b < (s.teamOf k i).team → (s.launched q k).bunch (Machine.slotOf t c b) =
      if 64 * b < (s.teamOf k i).threads then { (default : Bunch) with run := .placed, launch := k.id, idx := b } else s.bunch (Machine.slotOf t c b) := by
  have team := s.team_placeTeams (s.teamOf k) (maskClusters_nodup _ _) (fun _ => maskClusters_lt) at_
  have bunches (b : Nat) := s.bunch_placeTeams (b := b) (s.teamOf k) (maskClusters_nodup _ _) (fun _ => maskClusters_lt) at_ (s.teamOf_team_le k)
  unfold State.launched launchClusters
  generalize s.placeTeams _ _ = u at team bunches
  exact ⟨team, bunches⟩

/-- A LAUNCH that passes its checks and names clusters of running towers. -/
theorem launch_spec {s : State} {q : Fin 1024} {k : Pkt} (due : Due s q 0x20 k) (good : (s.checkLaunch q k.words).1 = 0)
    (some_cluster : launchClusters k.words ≠ []) (runs : ∀ x ∈ launchClusters k.words, (s.tower x.1).inTower = false) :
    Waits (.launch q k.words) s k (clampMask (launchRaw k.words) (launchFields k.words)) [waitTeams] (· = s.launched q k) := by
  obtain ⟨needs, sends, reqs, -⟩ := rest_of_sansTeams (s.launched_sansTeams q k)
  exact waits_of_work due rfl (State.workLaunch_places good some_cluster runs) (List.cons_ne_nil _ _)
    ⟨needs.trans due.idle.1, sends.trans due.idle.2⟩ fun r hr => due.quiet r (reqs ▸ hr)

/-! ### The guard's evaluations (R133) -/

section

variable {s : State} {t tag : Nat} (tracked : tag < 4096)

include tracked

theorem State.modTag_tracked (f : TagEntry → TagEntry) :
    s.modTag t tag f = { s with tags := SMap.put default s.tags (tagKey t tag) (f (s.tag t tag)) } :=
  if_neg (by unfold noTag; omega)

theorem State.tag_modTag (f : TagEntry → TagEntry) : (s.modTag t tag f).tag t tag = f (s.tag t tag) := by
  rw [State.modTag_tracked tracked]
  exact SMap.get_put_self _ _ _ _

theorem State.modTag_modTag (f g : TagEntry → TagEntry) : (s.modTag t tag f).modTag t tag g = s.modTag t tag fun y => g (f y) := by
  rw [State.modTag_tracked tracked g, State.tag_modTag tracked, State.modTag_tracked tracked, State.modTag_tracked tracked]
  simp

theorem State.tags_modTag_other (f : TagEntry → TagEntry) {k : Nat} (other : k ≠ tagKey t tag) :
    SMap.get default (s.modTag t tag f).tags k = SMap.get default s.tags k := by
  rw [State.modTag_tracked tracked]
  exact SMap.get_put_other _ _ other

end

/-- An entry once an invocation is taken away. -/
def TagEntry.took (y : TagEntry) (a : GuardAcc) : TagEntry := { y with pendingEval := y.pendingEval.filter fun x => x ≠ a }

/-- An entry once an invocation is evaluated, with its run of bad ones and its reports from then on. -/
def TagEntry.judged (y : TagEntry) (a : GuardAcc) (bad reports : Nat) : TagEntry :=
  { y.took a with lastSqnr := sqnrOf a, badRun := bad, reports := reports }

/-- Mode 0, or a tag that is escalated. -/
def State.unguarded (s : State) (tag : Nat) : Prop := (s.pol tag).mode = 0 ∨ s.escalated tag = true

/-- A tag whose complete windows of bad invocations make it pending (R135). -/
def State.escalates (s : State) (t tag : Nat) : Prop := (s.pol tag).mode = 2 ∧ ((s.tag t tag).native = some 6 ∨ (s.tag t tag).native = some 7)

theorem State.evaluate_unguarded {s : State} {t tag : Nat} (h : s.unguarded tag) (a : GuardAcc) :
    s.evaluate t tag a = s.modTag t tag (TagEntry.took · a) := if_pos h

section

variable {s : State} {t tag : Nat} {a : GuardAcc} (tracked : tag < 4096) (guarded : ¬ s.unguarded tag)

include tracked guarded

theorem State.evaluate_uncounted (h : isBadRun (s.pol tag) a = none) :
    s.evaluate t tag a = s.modTag t tag fun y => y.judged a y.badRun y.reports := by
  refine (if_neg guarded).trans ?_
  simp only [h, State.modTag_modTag tracked]
  rfl

theorem State.evaluate_good (h : isBadRun (s.pol tag) a = some false) :
    s.evaluate t tag a = s.modTag t tag fun y => y.judged a 0 y.reports := by
  refine (if_neg guarded).trans ?_
  simp only [h, State.modTag_modTag tracked]
  rfl

variable (bad : isBadRun (s.pol tag) a = some true)

include bad

theorem State.evaluate_bad (h : (s.tag t tag).badRun + 1 < (s.pol tag).window) :
    s.evaluate t tag a = s.modTag t tag fun y => y.judged a ((s.tag t tag).badRun + 1) y.reports := by
  refine (if_neg guarded).trans ?_
  simp only [bad, State.modTag_modTag tracked, State.tag_modTag tracked, h, if_true]
  rfl

variable (full : (s.pol tag).window ≤ (s.tag t tag).badRun + 1)

include full

theorem State.evaluate_reports (h : ¬ s.escalates t tag) :
    s.evaluate t tag a = s.modTag t tag fun y => y.judged a 0 (satAdd 16 y.reports 1) := by
  refine (if_neg guarded).trans ?_
  have full' := Nat.not_lt.mpr full
  unfold State.escalates at h
  simp only [bad, State.modTag_modTag tracked, State.tag_modTag tracked, full', if_false, h]
  rfl

theorem State.evaluate_escalates (h : s.escalates t tag) : s.evaluate t tag a =
    let u := s.modTag t tag fun y => y.judged a 0 y.reports
    if s.escOf tag = .native then (u.setEsc tag .pending).logEvent 0x0031 0 t [tag % 4096, 1] else u := by
  refine (if_neg guarded).trans ?_
  have full' := Nat.not_lt.mpr full
  have esc (f : TagEntry → TagEntry) : (s.modTag t tag f).escOf tag = s.escOf tag := by rw [State.modTag_tracked tracked]; rfl
  unfold State.escalates at h
  simp only [bad, State.modTag_modTag tracked, State.tag_modTag tracked, full', if_false, h, esc, true_and]
  rfl

theorem State.evaluate_escalates_tags (h : s.escalates t tag) :
    (s.evaluate t tag a).tags = (s.modTag t tag fun y => y.judged a 0 y.reports).tags := by
  rw [State.evaluate_escalates tracked guarded bad full h]
  dsimp only
  split
  · exact (keeps_of State.tags (State.logEvent_sansHealth _ _ _ _ _)).trans rfl
  · rfl

/-- A complete window starts a new run of bad invocations. -/
theorem State.evaluate_full : ∃ reports, (s.evaluate t tag a).tags = (s.modTag t tag fun y => y.judged a 0 reports).tags := by
  by_cases h : s.escalates t tag
  · refine ⟨(s.tag t tag).reports, ?_⟩
    rw [State.evaluate_escalates_tags tracked guarded bad full h, State.modTag_tracked tracked, State.modTag_tracked tracked]
  · refine ⟨satAdd 16 (s.tag t tag).reports 1, ?_⟩
    rw [State.evaluate_reports tracked guarded bad full h, State.modTag_tracked tracked, State.modTag_tracked tracked]

omit bad full in
/-- Every guarded evaluation leaves a judged entry. -/
theorem State.evaluate_judges : ∃ bad reports, (s.evaluate t tag a).tags = (s.modTag t tag fun y => y.judged a bad reports).tags := by
  have same (f : TagEntry → TagEntry) : (s.modTag t tag f).tags = (s.modTag t tag fun _ => f (s.tag t tag)).tags := by
    rw [State.modTag_tracked tracked, State.modTag_tracked tracked]
  match judged : isBadRun (s.pol tag) a with
  | none =>
    refine ⟨(s.tag t tag).badRun, (s.tag t tag).reports, ?_⟩
    rw [State.evaluate_uncounted tracked guarded judged, same, same fun y => y.judged a _ _]
  | some false =>
    refine ⟨0, (s.tag t tag).reports, ?_⟩
    rw [State.evaluate_good tracked guarded judged, same, same fun y => y.judged a _ _]
  | some true =>
    obtain short | full := Nat.lt_or_ge ((s.tag t tag).badRun + 1) (s.pol tag).window
    · refine ⟨(s.tag t tag).badRun + 1, (s.tag t tag).reports, ?_⟩
      rw [State.evaluate_bad tracked guarded judged short, same, same fun y => y.judged a _ _]
    · exact ⟨0, State.evaluate_full tracked guarded judged full⟩

end

/-- An evaluation concerns its own entry alone, and there only the invocation, its SQNR, the run of bad ones and the reports. -/
theorem State.evaluate_entry {s : State} {t tag : Nat} (tracked : tag < 4096) (a : GuardAcc) :
    ∃ sqnr bad reports, (s.evaluate t tag a).tags =
      (s.modTag t tag fun y => { y.took a with lastSqnr := sqnr, badRun := bad, reports := reports }).tags := by
  by_cases h : s.unguarded tag
  · refine ⟨(s.tag t tag).lastSqnr, (s.tag t tag).badRun, (s.tag t tag).reports, ?_⟩
    rw [State.evaluate_unguarded h, State.modTag_tracked tracked, State.modTag_tracked tracked]
    rfl
  · obtain ⟨bad, reports, tags⟩ := State.evaluate_judges (t := t) (a := a) tracked h
    exact ⟨sqnrOf a, bad, reports, tags⟩

theorem State.logEvent_last (s : State) (code sev src : Nat) (d : List Nat) : (s.logEvent code sev src d).mod.log.getLast? =
    some ⟨s.mod.newest + 1, code, sev, src, BitVec.ofNat 64 (s.stamp src), d.map (BitVec.ofNat 32)⟩ := by
  rw [State.logEvent, State.logAt_log, List.getLast?_drop, if_neg (by simp), List.getLast?_concat]

/-- The oldest invocation of an entry goes when its command has ended. -/
theorem exec_guardEvaluate {s : State} {t : Fin 4} {tag : Fin 4096} {a : GuardAcc} {as : List GuardAcc}
    (oldest : (s.tag t tag).pendingEval = a :: as) (ended : ∀ l ∈ s.mod.launches, l.id ≠ a.owner) :
    exec (.guardEvaluate t tag) s = .next (s.evaluate t tag a) := by
  have live : (s.mod.launches.any fun l => decide (l.id = a.owner)) = false := by simpa using ended
  have found : (s.tag t tag).pendingEval.find? (fun a => !s.mod.launches.any fun l => decide (l.id = a.owner)) = some a := by
    rw [oldest, List.find?_cons_of_pos (by rw [live]; rfl)]
  change execGuardEvaluate t tag s = _
  simp only [execGuardEvaluate, found]

theorem TagEntry.took_oldest {y : TagEntry} {a : GuardAcc} {as : List GuardAcc} (oldest : y.pendingEval = a :: as) (once : a ∉ as) :
    y.took a = { y with pendingEval := as } := by
  have others : as.filter (fun x => decide (x ≠ a)) = as := List.filter_eq_self.mpr fun x hx => decide_eq_true fun e => once (e ▸ hx)
  rw [TagEntry.took, oldest, List.filter_cons_of_neg (by simp), others]

end Sys2Proof.Machine

open Sys2Proof Sys2Proof.Machine Sys2Proof.Claims

/-- Settles O24: the teams by the order of the clusters that the packet names, the evaluations by what each outcome makes of the
entry. -/
theorem launchesAndGuardEvaluations : Obligations.LaunchesAndGuardEvaluations := by
  refine ⟨?_, ?_⟩
  · rintro s q _ k due rfl
    dsimp only
    refine ⟨fun bad => ?_, fun good none => ?_, fun good some_cluster runs => ?_⟩
    · exact refuses_of_work due rfl (State.workLaunch_refuses bad k) (s.checkLaunch_plain q k.words).1
    · exact completes_of_work due rfl (State.workLaunch_none good none k) (okStatus_lt _) due.idle due.quiet due.mine
    · refine waits_mono (launch_spec due good some_cluster runs) ?_
      rintro u rfl
      obtain ⟨-, -, reqs, mem, queues, towers⟩ := rest_of_sansTeams (s.launched_sansTeams q k)
      refine ⟨s.launched_launches q k, fun i t c at_ => ?_, fun n other => s.placeTeams_clusters_other _ other, mem, queues, reqs, towers⟩
      obtain ⟨team, bunches⟩ := s.launched_team q k at_
      exact ⟨⟨_, team, rfl, rfl, rfl, rfl, rfl, rfl, rfl, rfl, rfl, rfl, rfl, rfl, rfl, rfl, s.mem_retired_teamOf k i⟩, bunches⟩
  · intro s t tag a as
    dsimp only
    intro oldest once ended
    have tracked : tag.val < 4096 := tag.isLt
    have took := TagEntry.took_oldest oldest once
    have entry {u : State} {f : TagEntry → TagEntry} (tags : u.tags = (s.modTag t tag f).tags) : u.tag t tag = f (s.tag t tag) := by
      rw [State.tag, tags, ← State.tag, State.tag_modTag tracked]
    obtain ⟨sqnr, bad, reports, tags⟩ := State.evaluate_entry (s := s) (t := t) tracked a
    refine ⟨_, exec_guardEvaluate oldest ended, ?_, fun k other => ?_, ?_, fun unguarded => ?_, fun mode normal => ?_⟩
    · rw [entry tags, took]
    · rw [tags, State.tags_modTag_other tracked _ other]
    · rw [entry tags, took]
    · have run := State.evaluate_unguarded (t := t) unguarded a
      rw [run, State.tag_modTag tracked, took, State.modTag_tracked tracked]
      exact ⟨rfl, rfl⟩
    · have guarded : ¬ s.unguarded tag := by simp [State.unguarded, mode, normal]
      obtain ⟨b, r, judged⟩ := State.evaluate_judges (t := t) (a := a) tracked guarded
      refine ⟨by rw [entry judged]; rfl, fun h => ?_, fun h => ?_, fun h short => ?_, fun h full => ⟨?_, fun two four => ?_, fun other => ?_⟩⟩
      · rw [State.evaluate_uncounted tracked guarded h, State.tag_modTag tracked]
        exact ⟨rfl, rfl⟩
      · rw [State.evaluate_good tracked guarded h, State.tag_modTag tracked]
        exact ⟨rfl, rfl⟩
      · rw [State.evaluate_bad tracked guarded h short, State.tag_modTag tracked]
        exact ⟨rfl, rfl⟩
      · obtain ⟨r, tags⟩ := State.evaluate_full tracked guarded h full
        rw [entry tags]
        rfl
      · refine ⟨?_, fun native => ?_⟩
        · rw [entry (State.evaluate_escalates_tags tracked guarded h full ⟨two, four⟩)]
          rfl
        · rw [State.evaluate_escalates tracked guarded h full ⟨two, four⟩]
          simp only [native, if_true]
          refine ⟨?_, _, State.logEvent_last _ _ _ _ _, rfl, ?_⟩
          · rw [State.escOf, keeps_of State.esc (State.logEvent_sansHealth _ _ _ _ _), State.setEsc]
            simp
          · rw [Nat.mod_eq_of_lt tracked]
            rfl
      · have noEscalation : ¬ s.escalates t tag := by
          rintro ⟨two, four⟩
          tauto
        rw [State.evaluate_reports tracked guarded h full noEscalation, State.tag_modTag tracked, State.modTag_tracked tracked]
        exact ⟨rfl, rfl⟩

end

section
/-! PROOF. Faults of bunches, barriers and fences (R161 to R163, R171, R174, R175, R202, R203, R292). -/

namespace Sys2Proof.Machine

open Sys2Proof.Claims

/-! ### Bunch faults (R174, R175) -/

/-- A cluster whose team of a launch stops. -/
def Cluster.stopped (launch : Nat) (x : Cluster) : Cluster :=
  match x.team with
  | some tm => if tm.launch = launch then { x with team := some { tm with stopped := true } } else x
  | none => x

theorem Cluster.stopped_of_team {x : Cluster} {tm : Team} (team : x.team = some tm) (launch : Nat) :
    (x.stopped launch).team = some (if tm.launch = launch then { tm with stopped := true } else tm) := by
  simp only [Cluster.stopped, team]
  split
  · rfl
  · exact team

theorem Cluster.stopped_bars (launch : Nat) (x : Cluster) : (x.stopped launch).bars = x.bars := by
  unfold Cluster.stopped
  split
  · split <;> rfl
  · rfl

theorem State.setReg_setReg_regs (s : State) (a b : Loc) (x y : W64) : ∃ regs, (s.setReg a x).setReg b y = { s with regs := regs } := ⟨_, rfl⟩

theorem State.fset_regs (s : State) (f : Fld) (v t u i j : Nat) : ∃ regs, s.fset f v t u i j = { s with regs := regs } := ⟨_, rfl⟩

/-- What a fault writes besides the record in its registers. -/
theorem State.bunchFault_parts (s : State) (b : BunchRef) (i : FaultInfo) : ∃ regs launches, s.bunchFault b i =
    { s with regs := regs, mod := { s.mod with launches := launches }
             bunches := SMap.put default s.bunches (bkey b) { s.bunch (bkey b) with run := .faulted }
             clusters := s.clusters.map fun e => (e.1, e.2.stopped (s.bunch (bkey b)).launch) } := by
  unfold State.bunchFault
  dsimp only
  generalize record : (if s.flag teFaultValid b.t b.c b.e = true then _ else _) = u
  have recorded : ∃ regs, u = { s with regs := regs } := by
    subst record
    split
    · exact State.fset_regs ..
    · exact State.setReg_setReg_regs ..
  obtain ⟨regs, rfl⟩ := recorded
  exact ⟨regs, _, rfl⟩

section

variable (s : State) (b : BunchRef) (i : FaultInfo)

theorem State.bunch_bunchFault : (s.bunchFault b i).bunch (bkey b) = { s.bunch (bkey b) with run := .faulted } := by
  obtain ⟨regs, launches, parts⟩ := s.bunchFault_parts b i
  rw [parts, State.bunch, SMap.get_put_self]

theorem State.bunch_bunchFault_other {k : Nat} (other : k ≠ bkey b) : (s.bunchFault b i).bunch k = s.bunch k := by
  obtain ⟨regs, launches, parts⟩ := s.bunchFault_parts b i
  rw [parts, State.bunch, SMap.get_put_other _ _ other, State.bunch]

/-- A fault stops its own bunch, and takes nothing else from any. -/
theorem State.bunch_bunchFault_sansRun (k : Nat) : { (s.bunchFault b i).bunch k with run := .ready } = { s.bunch k with run := .ready } := by
  by_cases own : k = bkey b
  · rw [own, State.bunch_bunchFault]
  · rw [s.bunch_bunchFault_other b i own]

theorem State.clu_bunchFault (t c : Nat) : (s.bunchFault b i).clu t c = (s.clu t c).stopped (s.bunch (bkey b)).launch := by
  obtain ⟨regs, launches, parts⟩ := s.bunchFault_parts b i
  rw [parts]
  exact SMap.get_map (Cluster.stopped _) Cluster.init s.clusters (cluKey t c)

end

/-! ### Barriers (R162) -/

/-- The bunches that wait at a barrier. -/
def State.waiting (s : State) (t c n : Nat) : List Nat := SMap.get [] (s.clu t c).bars n

/-- No barrier of a cluster but perhaps n has all of the `left` bunches. -/
def State.idleBars (s : State) (t c n left : Nat) : Prop := ∀ m, m ≠ n → (s.waiting t c m).length ≠ left ∨ s.waiting t c m = []

theorem State.checkBars_of_team {s : State} {t c : Nat} {tm : Team} (team : (s.clu t c).team = some tm) : s.checkBars t c =
    (List.range 16).foldl (fun s n => if (s.waiting t c n).length ≠ 0 ∧ (s.waiting t c n).length = tm.team - tm.retired.length
      then s.releaseBar t c n else s) s := by
  simp only [State.checkBars, team]
  rfl

/-- Where no barrier has all of its bunches, none is released. -/
theorem State.checkBars_idle {s : State} {t c : Nat} {tm : Team} (team : (s.clu t c).team = some tm)
    (idle : ∀ n, (s.waiting t c n).length ≠ tm.team - tm.retired.length ∨ s.waiting t c n = []) : s.checkBars t c = s := by
  rw [State.checkBars_of_team team]
  refine List.foldlRecOn _ _ (motive := (· = s)) rfl fun u hu n _ => ?_
  rw [hu, if_neg]
  rintro ⟨some_one, all⟩
  rcases idle n with differs | none
  · exact differs all
  · exact some_one (by rw [none]; rfl)

/-- A fold in which one element acts, and no other before or after it. -/
theorem foldl_once {σ α : Type} {f : σ → α → σ} {l : List α} {a : α} (nodup : l.Nodup) (ha : a ∈ l) {s : σ}
    (before : ∀ b ∈ l, b ≠ a → f s b = s) (after : ∀ b ∈ l, b ≠ a → f (f s a) b = f s a) : l.foldl f s = f s a := by
  obtain ⟨p, q, rfl⟩ := List.append_of_mem ha
  obtain ⟨-, hq, hp⟩ := List.nodup_append.mp nodup
  have keep (m : List α) (x : σ) (h : ∀ b ∈ m, f x b = x) : m.foldl f x = x :=
    List.foldlRecOn m f (motive := (· = x)) rfl fun y hy b hb => by rw [hy, h b hb]
  rw [List.foldl_append, List.foldl_cons, keep p s fun b hb => before b (by simp [hb]) (hp b hb a (.head _)),
    keep q _ fun b hb => after b (by simp [hb]) fun e => (List.nodup_cons.mp hq).1 (e ▸ hb)]

theorem State.clu_releaseBar (s : State) (t c n : Nat) : (s.releaseBar t c n).clu t c =
    { s.clu t c with bars := SMap.put [] (s.clu t c).bars n [], barSince := SMap.put 0 (s.clu t c).barSince n 0 } := by
  have same := foldl_keeps (fun s : State => s.clu t c) (fun (s : State) i => rfl : ∀ (u : State) (i : Nat),
    (u.modBunch (Machine.slotOf t c i) fun y => { y with run := .ready, pc := y.pc + 8 }).clu t c = u.clu t c) (s.waiting t c n) s
  rw [State.releaseBar, State.clu_modClu]
  exact congrArg (fun x : Cluster => { x with bars := SMap.put [] x.bars n [], barSince := SMap.put 0 x.barSince n 0 }) same

theorem State.waiting_releaseBar (s : State) (t c n : Nat) : (s.releaseBar t c n).waiting t c n = [] := by
  rw [State.waiting, State.clu_releaseBar, SMap.get_put_self]

theorem State.waiting_releaseBar_other (s : State) (t c : Nat) {m n : Nat} (other : m ≠ n) :
    (s.releaseBar t c n).waiting t c m = s.waiting t c m := by
  rw [State.waiting, State.clu_releaseBar, SMap.get_put_other _ _ other, State.waiting]

/-- The one barrier that has all of its bunches is released. -/
theorem State.checkBars_releases {s : State} {t c n : Nat} {tm : Team} (team : (s.clu t c).team = some tm) (hn : n < 16)
    (due : (s.waiting t c n).length = tm.team - tm.retired.length) (some_one : s.waiting t c n ≠ [])
    (idle : s.idleBars t c n (tm.team - tm.retired.length)) : s.checkBars t c = s.releaseBar t c n := by
  have unmet {u : State} {m : Nat} (h : (u.waiting t c m).length ≠ tm.team - tm.retired.length ∨ u.waiting t c m = []) :
      ¬ ((u.waiting t c m).length ≠ 0 ∧ (u.waiting t c m).length = tm.team - tm.retired.length) := by
    rintro ⟨more, all⟩
    rcases h with differs | none
    · exact differs all
    · exact more (by rw [none]; rfl)
  have met : (s.waiting t c n).length ≠ 0 ∧ (s.waiting t c n).length = tm.team - tm.retired.length :=
    ⟨fun none => some_one (List.length_eq_zero_iff.mp none), due⟩
  rw [State.checkBars_of_team team, foldl_once List.nodup_range (List.mem_range.mpr hn) (fun m _ other => if_neg (unmet (idle m other))), if_pos met]
  intro m _ other
  rw [if_pos met, if_neg (unmet (by rw [s.waiting_releaseBar_other t c other]; exact idle m other))]

/-- The bunches of a released barrier go on after their BAR. -/
theorem State.bunch_releaseBar (s : State) {t c n i : Nat} (nodup : (s.waiting t c n).Nodup) (small : ∀ j ∈ s.waiting t c n, j < 64)
    (hi : i ∈ s.waiting t c n) : (s.releaseBar t c n).bunch (Machine.slotOf t c i) =
      { s.bunch (Machine.slotOf t c i) with run := .ready, pc := (s.bunch (Machine.slotOf t c i)).pc + 8 } := by
  obtain ⟨x, same, seen⟩ := foldl_seen_at (f := fun (s : State) j => s.modBunch (Machine.slotOf t c j) fun y => { y with run := .ready, pc := y.pc + 8 })
    (fun s : State => s.bunch (Machine.slotOf t c i)) nodup hi (fun u j hj differs => State.bunch_setBunch_other _
      (fun e => differs (slotOf_inj (small i hi) (small j hj) e).2.symm) _) s
  rw [← same]
  exact seen.trans (x.bunch_modBunch _ _)

/-! ### BAR -/

theorem bunch_issued (s : State) (h : Th) (y : Bunch) (pc : W32) : (issued s h y pc).bunch (bkey h.b) = { y with pc := pc } := State.bunch_setBunch ..

theorem bunch_issued_other (s : State) (h : Th) (y : Bunch) (pc : W32) {k : Nat} (other : k ≠ bkey h.b) : (issued s h y pc).bunch k = s.bunch k :=
  State.bunch_setBunch_other _ other _

theorem clu_issued (s : State) (h : Th) (y : Bunch) (pc : W32) (t c : Nat) : (issued s h y pc).clu t c = s.clu t c := rfl

/-- A bunch has arrived at a barrier and waits there. -/
def State.atBarrier (s : State) (h : Th) (n : Nat) : State :=
  (s.setBunch (bkey h.b) { h.x with run := .waitBar n }).modClu h.b.t h.b.c fun x =>
    { x with bars := SMap.put [] x.bars n (s.waiting h.b.t h.b.c n ++ [h.x.idx])
             barSince := if SMap.get 0 x.barSince n = 0 then SMap.put 0 x.barSince n (s.stamp h.b.t + 1) else x.barSince }

/-- The same once the BAR has issued. -/
def State.barred (s : State) (h : Th) (n : Nat) : State := issued (s.atBarrier h n) h { h.x with run := .waitBar n } h.x.pc

theorem State.clu_barred (s : State) (h : Th) (n : Nat) : (s.barred h n).clu h.b.t h.b.c =
    let x := s.clu h.b.t h.b.c
    { x with bars := SMap.put [] x.bars n (s.waiting h.b.t h.b.c n ++ [h.x.idx])
             barSince := if SMap.get 0 x.barSince n = 0 then SMap.put 0 x.barSince n (s.stamp h.b.t + 1) else x.barSince } := by
  rw [State.barred, clu_issued, State.atBarrier, State.clu_modClu]
  rfl

theorem State.bunch_barred (s : State) (h : Th) (n : Nat) : (s.barred h n).bunch (bkey h.b) = { h.x with run := .waitBar n } :=
  bunch_issued ..

theorem State.bunch_barred_other (s : State) (h : Th) (n : Nat) {k : Nat} (other : k ≠ bkey h.b) : (s.barred h n).bunch k = s.bunch k :=
  (bunch_issued_other _ h _ _ other).trans (s.bunch_setBunch_other other { h.x with run := .waitBar n })

theorem State.waiting_barred (s : State) (h : Th) (n : Nat) : (s.barred h n).waiting h.b.t h.b.c n = s.waiting h.b.t h.b.c n ++ [h.x.idx] := by
  rw [State.waiting, State.clu_barred]
  exact SMap.get_put_self _ _ _ _

theorem State.waiting_barred_other (s : State) (h : Th) {m n : Nat} (other : m ≠ n) :
    (s.barred h n).waiting h.b.t h.b.c m = s.waiting h.b.t h.b.c m := by
  rw [State.waiting, State.clu_barred]
  exact SMap.get_put_other _ _ other

section

variable {s : State} {h : Th} (hi : Issues s h [0xC4] (sLegal false false false (atMost 1) (atMost 15) zero_))

include hi

/-- A BAR that arrives (R161). -/
theorem exec_bar_arrives (may : h.x.m0 = h.x.live ∨ bit h.w 8 = true) :
    exec (.bar h.b h.w) s = .next ((s.barred h (wN h.w)).checkBars h.b.t h.b.c) := by
  have whole : ¬ (h.x.m0 ≠ h.x.live ∧ (!bit h.w 8) = true) := by
    rintro ⟨partly, plain⟩
    rcases may with same | flag
    · exact partly same
    · rw [flag] at plain
      exact Bool.noConfusion plain
  have ran : runBar h s = .ok (s.atBarrier h (wN h.w)) h.x.pc := by
    simp only [runBar, if_neg whole, State.modBunch, ← hi.bunch]
    rfl
  have bunch : (s.atBarrier h (wN h.w)).bunch (bkey h.b) = { h.x with run := .waitBar (wN h.w) } :=
    s.bunch_setBunch (bkey h.b) { h.x with run := .waitBar (wN h.w) }
  exact congrArg (fun u : State => Host.Outcome.next (u.checkBars h.b.t h.b.c)) (issue_goes_on hi ran bunch)

/-- A BAR of a part of the live threads alone (R161). -/
theorem exec_bar_faults (partly : h.x.m0 ≠ h.x.live) (plain : bit h.w 8 = false) :
    exec (.bar h.b h.w) s = .next ((s.bunchFault h.b ⟨.barrierPartial, 0, 0⟩).checkBars h.b.t h.b.c) := by
  have ran : runBar h s = .fault s ⟨.barrierPartial, 0, 0⟩ := if_pos ⟨partly, by rw [plain]; rfl⟩
  exact congrArg (fun u : State => Host.Outcome.next (u.checkBars h.b.t h.b.c)) (issue_faults hi ran)

theorem barrier_lt_of_issues : wN h.w < 16 := by
  have decodes := hi.decodes
  simp only [sLegal, atMost, Bool.and_eq_true, decide_eq_true_eq] at decodes
  omega

/-- A partial BAR where no barrier has all of its bunches. -/
theorem exec_bar_faults_idle (partly : h.x.m0 ≠ h.x.live) (plain : bit h.w 8 = false)
    (idle : ∀ n, (s.waiting h.b.t h.b.c n).length ≠ h.tm.team - h.tm.retired.length ∨ s.waiting h.b.t h.b.c n = []) :
    exec (.bar h.b h.w) s = .next (s.bunchFault h.b ⟨.barrierPartial, 0, 0⟩) := by
  have clu := s.clu_bunchFault h.b ⟨.barrierPartial, 0, 0⟩ h.b.t h.b.c
  have team := Cluster.stopped_of_team hi.team (s.bunch (bkey h.b)).launch
  rw [exec_bar_faults hi partly plain, State.checkBars_idle (clu ▸ team)]
  intro n
  have same : (s.bunchFault h.b ⟨.barrierPartial, 0, 0⟩).waiting h.b.t h.b.c n = s.waiting h.b.t h.b.c n := by
    rw [State.waiting, clu, Cluster.stopped_bars, State.waiting]
  rw [same]
  split <;> exact idle n

variable (may : h.x.m0 = h.x.live ∨ bit h.w 8 = true) (idle : s.idleBars h.b.t h.b.c (wN h.w) (h.tm.team - h.tm.retired.length))

include may idle

/-- A BAR that others of its bunches have yet to reach. -/
theorem exec_bar_waits (more : (s.waiting h.b.t h.b.c (wN h.w)).length + 1 ≠ h.tm.team - h.tm.retired.length) :
    exec (.bar h.b h.w) s = .next (s.barred h (wN h.w)) := by
  have team : ((s.barred h (wN h.w)).clu h.b.t h.b.c).team = some h.tm := by rw [State.clu_barred]; exact hi.team
  rw [exec_bar_arrives hi may, State.checkBars_idle team]
  intro n
  by_cases own : n = wN h.w
  · rw [own, State.waiting_barred, List.length_append, List.length_singleton]
    exact .inl more
  · rw [s.waiting_barred_other h own]
    exact idle n own

/-- The last BAR that a barrier waits for. -/
theorem exec_bar_last (last : (s.waiting h.b.t h.b.c (wN h.w)).length + 1 = h.tm.team - h.tm.retired.length) :
    exec (.bar h.b h.w) s = .next ((s.barred h (wN h.w)).releaseBar h.b.t h.b.c (wN h.w)) := by
  have team : ((s.barred h (wN h.w)).clu h.b.t h.b.c).team = some h.tm := by rw [State.clu_barred]; exact hi.team
  have all := s.waiting_barred h (wN h.w)
  rw [exec_bar_arrives hi may, State.checkBars_releases team (barrier_lt_of_issues hi) (by simp [all, last]) (by simp [all])]
  intro n other
  rw [s.waiting_barred_other h other]
  exact idle n other

end

/-- What the last BAR makes of the bunches of its barrier. -/
theorem bunch_released {s : State} {h : Th} {n : Nat} (nodup : (s.waiting h.b.t h.b.c n ++ [h.x.idx]).Nodup)
    (small : ∀ i ∈ s.waiting h.b.t h.b.c n, i < 64) (idx : h.x.idx < 64) (own : slotOf h.b.t h.b.c h.x.idx = bkey h.b) :
    ((s.barred h n).releaseBar h.b.t h.b.c n).bunch (bkey h.b) = { h.x with run := .ready, pc := h.x.pc + 8 } ∧
    ∀ i ∈ s.waiting h.b.t h.b.c n, i ≠ h.x.idx → ((s.barred h n).releaseBar h.b.t h.b.c n).bunch (slotOf h.b.t h.b.c i) =
      { s.bunch (slotOf h.b.t h.b.c i) with run := .ready, pc := (s.bunch (slotOf h.b.t h.b.c i)).pc + 8 } := by
  have all := s.waiting_barred h n
  have released {i : Nat} := (s.barred h n).bunch_releaseBar (i := i) (all ▸ nodup) (by
    rw [all]
    intro j hj
    rcases List.mem_append.mp hj with old | new
    · exact small j old
    · exact List.mem_singleton.mp new ▸ idx)
  refine ⟨?_, fun i hi other => ?_⟩
  · rw [← own, released (by simp [all]), own, State.bunch_barred]
  · have slot : slotOf h.b.t h.b.c i ≠ bkey h.b := fun e => other (slotOf_inj (small i hi) idx (e.trans own.symm)).2
    rw [released (by simp [all, hi]), s.bunch_barred_other h n slot]

/-! ### BARRIER_TIMEOUT (R163) -/

/-- The bunch that a slot's key names. -/
theorem refOf_bunchKey {t c e k : Nat} (ht : t < 4) (hc : c < 128) (he : e < 4) (hk : k < 16) :
    refOf (bunchKey t c e k) = ⟨⟨t, ht⟩, ⟨c, hc⟩, ⟨e, he⟩, ⟨k, hk⟩⟩ := by
  have tower : bunchKey t c e k / 8192 % 4 = t := by unfold bunchKey; omega
  have cluster : bunchKey t c e k / 64 % 128 % 128 = c := by unfold bunchKey; omega
  have engine : bunchKey t c e k / 16 % 4 % 4 = e := by unfold bunchKey; omega
  have slot : bunchKey t c e k % 16 % 16 = k := by unfold bunchKey; omega
  simp only [refOf, Fin.ofNat, tower, cluster, engine, slot]

theorem refOf_bkey (b : BunchRef) : refOf (bkey b) = b := refOf_bunchKey b.t.isLt b.c.isLt b.e.isLt b.k.isLt

theorem bkey_refOf_slotOf (r : CluRef) {i : Nat} (hi : i < 64) : bkey (refOf (slotOf r.t r.c i)) = slotOf r.t r.c i := by
  rw [slotOf, refOf_bunchKey r.t.isLt r.c.isLt (Nat.mod_lt i (by decide)) (by omega)]
  rfl

/-- Faults of the bunches that wait at a barrier. -/
def State.faultAll (s : State) (r : CluRef) (ids : List Nat) (f : FaultInfo) : State :=
  ids.foldl (fun s i => s.bunchFault (refOf (Machine.slotOf r.t r.c i)) f) s

theorem State.faultAll_sansRun (s : State) (r : CluRef) (ids : List Nat) (f : FaultInfo) (k : Nat) :
    { (s.faultAll r ids f).bunch k with run := .ready } = { s.bunch k with run := .ready } :=
  foldl_keeps (fun s : State => { s.bunch k with run := .ready }) (fun u _ => u.bunch_bunchFault_sansRun _ f k) ids s

theorem State.faultAll_faulted (s : State) (r : CluRef) {ids : List Nat} (f : FaultInfo) (small : ∀ i ∈ ids, i < 64) {i : Nat} (hi : i ∈ ids) :
    ((s.faultAll r ids f).bunch (Machine.slotOf r.t r.c i)).run = .faulted := by
  have own := foldl_makes (f := fun (s : State) i => s.bunchFault (refOf (Machine.slotOf r.t r.c i)) f)
    (P := fun i s => (s.bunch (bkey (refOf (Machine.slotOf r.t r.c i)))).run = .faulted) (fun u a => by rw [State.bunch_bunchFault])
    (fun u a b already => by
      by_cases same : bkey (refOf (Machine.slotOf r.t r.c a)) = bkey (refOf (Machine.slotOf r.t r.c b))
      · rw [same, State.bunch_bunchFault]
      · rw [u.bunch_bunchFault_other _ f same]
        exact already) ids s i hi
  rwa [bkey_refOf_slotOf r (small i hi)] at own

/-- A team whose launch a fault of its own stops. -/
theorem State.faultAll_team {s : State} {r : CluRef} {ids : List Nat} (f : FaultInfo) {tm : Team} (team : (s.clu r.t r.c).team = some tm)
    (small : ∀ i ∈ ids, i < 64) : ∃ tm', ((s.faultAll r ids f).clu r.t r.c).team = some tm' ∧ tm'.launch = tm.launch ∧
      (tm.stopped = true → tm'.stopped = true) ∧
      (tm'.stopped = true ∨ ∀ i ∈ ids, (s.bunch (Machine.slotOf r.t r.c i)).launch ≠ tm.launch) := by
  induction ids generalizing s tm with
  | nil => exact ⟨tm, team, rfl, id, .inr fun i hi => absurd hi List.not_mem_nil⟩
  | cons i ids ih =>
    have key := bkey_refOf_slotOf r (small i (.head _))
    have next := (congrArg Cluster.team (s.clu_bunchFault (refOf (Machine.slotOf r.t r.c i)) f r.t r.c)).trans (Cluster.stopped_of_team team _)
    rw [key] at next
    obtain ⟨tm', last, launch, sticky, stops⟩ := ih next fun j hj => small j (.tail _ hj)
    have launches (k : Nat) : ((s.bunchFault (refOf (Machine.slotOf r.t r.c i)) f).bunch k).launch = (s.bunch k).launch := by
      have same := congrArg Bunch.launch (s.bunch_bunchFault_sansRun (refOf (Machine.slotOf r.t r.c i)) f k)
      exact same
    refine ⟨tm', last, launch.trans (by split <;> rfl), fun already => sticky (by split <;> first | rfl | exact already), ?_⟩
    by_cases own : tm.launch = (s.bunch (Machine.slotOf r.t r.c i)).launch
    · exact .inl (sticky (by rw [if_pos own]))
    · rw [if_neg own] at stops
      refine stops.imp_right fun none j hj => ?_
      rcases List.mem_cons.mp hj with rfl | later
      · exact fun e => own e.symm
      · rw [← launches]
        exact none j later

/-- The machine once a barrier's timer has run out. -/
def State.timedOut (s : State) (r : CluRef) (n : Nat) : State :=
  (s.faultAll r (s.waiting r.t r.c n) ⟨.barrierTimeout, 0, 0⟩).modClu r.t r.c fun x =>
    { x with bars := SMap.put [] x.bars n [], barSince := SMap.put 0 x.barSince n 0 }

theorem exec_barrierTimeout {s : State} {r : CluRef} {n : Fin 16} {tm : Team} (team : (s.clu r.t r.c).team = some tm) (runs : tm.stopped = false)
    (some_one : s.waiting r.t r.c n ≠ []) (late : tm.barTimeout * 1024 ≤ 6 * (s.stamp r.t + 1 - SMap.get 0 (s.clu r.t r.c).barSince n)) :
    exec (.barrierTimeout r n) s = .next (s.timedOut r n) := by
  have due : s.waiting r.t r.c n ≠ [] ∧ (!tm.stopped) = true ∧
      tm.barTimeout * 1024 ≤ 6 * (s.stamp r.t + 1 - SMap.get 0 (s.clu r.t r.c).barSince n) := ⟨some_one, by rw [runs]; rfl, late⟩
  change execBarrierTimeout r n s = _
  simp only [execBarrierTimeout, team]
  exact if_pos due

/-! ### FENCE (R171, R202, R292) -/

/-- A cluster's shelf cache emptied. -/
def State.emptied (s : State) (t c : Nat) : State := s.modClu t c fun x => { x with cache := [] }

/-- A shelf cache without dirty bytes has nothing to write back. -/
theorem State.flushCache_clean {s : State} {t c : Nat} (clean : ∀ l ∈ (s.clu t c).cache, l.dirty = 0#128) (launch : Nat) :
    s.flushCache t c launch = s.emptied t c := by
  have kept : (s.clu t c).cache.foldl (fun s l => s.lineBack t c launch l) s = s :=
    List.foldlRecOn _ _ (motive := (· = s)) rfl fun u hu l hl => hu ▸ if_pos (clean l hl)
  simp only [State.flushCache, kept, State.emptied]

theorem State.fenceHeld_of_quiet {s : State} {b : BunchRef} (quiet : ∀ r ∈ s.reqs, (∀ l, r.owner ≠ .writeBack b.t b.c l) ∧ r.owner ≠ .bunch (bkey b))
    (scope : Nat) : s.fenceHeld b scope = false := by
  refine List.any_eq_false.mpr fun r hr => ?_
  obtain ⟨noBack, noAccess⟩ := quiet r hr
  cases owner : r.owner with
  | bunch k =>
    have other : k ≠ bkey b := fun e => noAccess (e ▸ owner)
    simpa using other
  | writeBack t c l =>
    have other : ¬ (t = b.t ∧ c = b.c) := fun e => noBack l (by rw [owner, e.1, e.2])
    simpa using fun ht hc => absurd ⟨ht, hc⟩ other
  | _ => simp

theorem State.fenceHeld_of_access {s : State} {b : BunchRef} (access : ∃ r ∈ s.reqs, r.owner = .bunch (bkey b)) (scope : Nat) :
    s.fenceHeld b scope = true := by
  obtain ⟨r, hr, owner⟩ := access
  refine List.any_eq_true.mpr ⟨r, hr, ?_⟩
  rw [owner]
  exact decide_eq_true rfl

section

variable {s : State} {h : Th} (hi : Issues s h [0xC9] (sLegal false false false (atMost 4) zero_ zero_))
  (clean : ∀ l ∈ (s.clu h.b.t h.b.c).cache, l.dirty = 0#128)

include hi clean

/-- A FENCE with nothing on its way (R202). -/
theorem exec_fence_quiet (quiet : ∀ r ∈ s.reqs, (∀ l, r.owner ≠ .writeBack h.b.t h.b.c l) ∧ r.owner ≠ .bunch (bkey h.b)) :
    exec (.fence h.b h.w) s = .next (issued (if wSmod h.w = 4 then (s.emptied h.b.t h.b.c).dropEveryFar else s.emptied h.b.t h.b.c) h h.x (h.x.pc + 8)) := by
  have free : (s.emptied h.b.t h.b.c).fenceHeld h.b (wSmod h.w) = false := State.fenceHeld_of_quiet (s := s.emptied h.b.t h.b.c) quiet _
  have ran : runFence h s = .ok (if wSmod h.w = 4 then (s.emptied h.b.t h.b.c).dropEveryFar else s.emptied h.b.t h.b.c) h.next := by
    simp only [runFence, State.flushCache_clean clean, free, Bool.false_eq_true, if_false]
  refine congrArg Host.Outcome.next (issue_goes_on hi ran ?_)
  split
  · exact (congrArg (SMap.get default · (bkey h.b)) (keeps_of State.bunches (State.dropEveryFar_sansLines _))).trans hi.bunch.symm
  · exact hi.bunch.symm

/-- A FENCE while an access of the bunch is on its way. -/
theorem exec_fence_held (access : ∃ r ∈ s.reqs, r.owner = .bunch (bkey h.b)) :
    exec (.fence h.b h.w) s = .next (issued (s.emptied h.b.t h.b.c) h { h.x with run := .waitAccess, inst := some h.w } h.x.pc) := by
  have held : (s.emptied h.b.t h.b.c).fenceHeld h.b (wSmod h.w) = true := State.fenceHeld_of_access (s := s.emptied h.b.t h.b.c) access _
  have ran : runFence h s = .ok ((s.emptied h.b.t h.b.c).setBunch (bkey h.b) { h.x with run := .waitAccess, inst := some h.w }) h.x.pc := by
    simp only [runFence, State.flushCache_clean clean, held, if_true, hi.bunch]
    rfl
  exact congrArg Host.Outcome.next (issue_writes hi ran)

end

/-- TFENCE (R203). -/
theorem exec_tfence {s : State} {h : Th} (hi : Issues s h [0xCA] (sLegal false false false zero_ zero_ zero_)) :
    exec (.tfence h.b h.w) s = .next (issued s h { h.x with bank := (s.clu h.b.t h.b.c).active } (h.x.pc + 8)) :=
  congrArg Host.Outcome.next (issue_writes (run := fun h s => h.bunch s { h.x with bank := (s.clu h.b.t h.b.c).active }) hi rfl)

end Sys2Proof.Machine

open Sys2Proof Sys2Proof.Machine Sys2Proof.Claims

/-- Settles O13: a barrier by its arrivals and its timer, a fence by what is still on its way. -/
theorem barriersAndFences : Obligations.BarriersAndFences := by
  refine ⟨⟨?_, ?_⟩, ?_⟩
  · intro s h hi
    dsimp only
    intro idle
    refine ⟨fun ⟨partly, plain⟩ own => ?_, fun may more => ?_, fun may last nodup small idx own => ?_⟩
    · refine exec_bar_faults_idle hi partly plain fun n => ?_
      by_cases here : n = wN h.w
      · exact here ▸ own
      · exact idle n here
    · exact ⟨_, exec_bar_waits hi may idle more, s.bunch_barred h _, fun k other => s.bunch_barred_other h _ other, s.waiting_barred h _⟩
    · obtain ⟨self, others⟩ := bunch_released nodup small idx own
      exact ⟨_, exec_bar_last hi may idle last, self, others, State.waiting_releaseBar ..⟩
  · intro s r n tm team runs
    dsimp only
    intro some_one small late
    refine ⟨_, exec_barrierTimeout team runs some_one late, ?_, fun i hi => ⟨?_, ?_⟩, ?_⟩
    · rw [State.timedOut, State.clu_modClu, SMap.get_put_self]
    · exact s.faultAll_faulted r _ small hi
    · have same := congrArg Bunch.pc (s.faultAll_sansRun r (s.waiting r.t r.c n) ⟨.barrierTimeout, 0, 0⟩ (slotOf r.t r.c i))
      exact same
    · obtain ⟨tm', after, -, -, stops⟩ := State.faultAll_team ⟨.barrierTimeout, 0, 0⟩ team small
      refine ⟨tm', ?_, stops⟩
      rw [State.timedOut, State.clu_modClu]
      exact after
  · intro s h
    dsimp only
    refine ⟨fun hi clean quiet => ⟨fun near => ?_, fun far => ?_⟩, fun hi clean access => exec_fence_held hi clean access, fun hi => exec_tfence hi⟩
    · rw [exec_fence_quiet hi clean quiet]
      simp only [wSmod, near, if_false]
      rfl
    · refine ⟨(s.emptied h.b.t h.b.c).dropEveryFar, ?_, fun e he tower => ?_, fun e he near => ?_, State.dropEveryFar_frame _⟩
      · rw [exec_fence_quiet hi clean quiet]
        simp only [wSmod, far, if_true]
      · exact not_holdsFar_iff.mp fun lines => (State.mem_dropEveryFar.mp he).2 ⟨tower, lines⟩
      · exact State.mem_dropEveryFar.mpr ⟨he, fun lines => not_holdsFar_iff.mpr near lines.2⟩

end

section
/-! PROOF. What writes of the shelf leave in it, the numbers that its bytes hold, and what write-backs of the shelf cache leave alone
(R7, R239, R262). -/

namespace Sys2Proof.Machine

open Sys2Proof.Claims

/-! ### Writes of the shelf -/

theorem towers_of_shelfWasWritten {s u : State} {t c : Nat} {byte : Nat → Option (BitVec 8)} (h : ShelfWasWritten s u t c byte) :
    u.towers = s.towers := by
  have towers := congrArg State.towers h.rest
  exact towers

theorem ShelfWasWritten_refl (s : State) (t c : Nat) : ShelfWasWritten s s t c fun _ => none :=
  ⟨fun _ _ h => absurd h nofun, fun _ _ => rfl, fun _ _ => rfl, rfl⟩

/-- Writes after writes: the later byte stays. -/
theorem ShelfWasWritten_trans {s u v : State} {t c : Nat} {a b : Nat → Option (BitVec 8)} (first : ShelfWasWritten s u t c a)
    (second : ShelfWasWritten u v t c b) (armed : ∀ off, flipArmed u t c off → flipArmed s t c off) :
    ShelfWasWritten s v t c fun off => (b off).or (a off) := by
  have key (off : Nat) : u.shelfKey t c off = s.shelfKey t c off := State.shelfKey_of_towers (towers_of_shelfWasWritten first) t c off
  have last (off : Nat) : Claims.shelfByte v t c off = codeByte v (u.shelfKey t c off) :=
    State.shelfByte_of_towers (towers_of_shelfWasWritten second) t c off
  refine ⟨fun off x hx unarmed => ?_, fun k hk => ?_, fun l hl => (second.registers l hl).trans (first.registers l hl), ?_⟩
  · cases hb : b off with
    | some y =>
      rw [hb] at hx
      exact Option.some.inj hx ▸ second.written off y hb fun h => unarmed (armed off h)
    | none =>
      rw [hb] at hx
      have kept := second.others (u.shelfKey t c off) fun o ho e => ho (State.shelfKey_inj e ▸ hb)
      rw [last, codeByte, kept]
      exact first.written off x hx unarmed
  · refine (second.others k fun off hoff => ?_).trans (first.others k fun off hoff => ?_)
    · rw [key]
      exact hk off (by simp [hoff])
    · refine hk off ?_
      cases b off <;> simp [hoff]
  · have frame := congrArg (fun x : State => { x with regs := s.regs, mem := { x.mem with shelf := s.mem.shelf } }) second.rest
    exact frame.trans first.rest

/-- A byte written where an error is armed, which disarms it (R262). -/
theorem State.shelfPut_armed {s : State} {t c off : Nat} (armed : flipArmed s t c off) (v : BitVec 9) : s.shelfPut t c off v =
    (s.setReg ⟨.shfFlipmask, t, c, 0, 0⟩ (setFld (s.reg ⟨.shfFlipmask, t, c, 0, 0⟩) 63 63 0)).modMem fun m =>
      { m with shelf := SMap.put 0#13 m.shelf (s.shelfKey t c off)
                 (markedCode v ^^^ BitVec.ofNat 13 (fld (s.reg ⟨.shfFlipmask, t, c, 0, 0⟩) 12 0)) } := by
  obtain ⟨arm, place⟩ := armed
  simp only [State.shelfPut, arm, place, decide_true, Bool.and_true, if_true]

theorem State.shelfPut_disarmed {s : State} {t c off : Nat} (unarmed : ¬ flipArmed s t c off) (v : BitVec 9) :
    s.shelfPut t c off v = s.modMem fun m => { m with shelf := SMap.put 0#13 m.shelf (s.shelfKey t c off) (markedCode v) } := by
  have off_ : (bit (s.reg ⟨.shfFlipmask, t, c, 0, 0⟩) 63 && decide (fld (s.reg ⟨.shfFlipmask, t, c, 0, 0⟩) 51 32 = off)) = false :=
    Bool.eq_false_iff.mpr fun h => unarmed (by simpa [flipArmed] using h)
  simp only [State.shelfPut, off_, Bool.false_eq_true, if_false]

theorem not_flipArmed_of_disarm {s : State} {t c : Nat} (w : W64) (off : Nat) :
    ¬ flipArmed (s.setReg ⟨.shfFlipmask, t, c, 0, 0⟩ (setFld w 63 63 0)) t c off := by
  rintro ⟨arm, -⟩
  rw [State.reg_setReg, bit, setFld_getLsbD _ _ _ _ _ (by decide) (by decide)] at arm
  simp at arm

theorem clean_eq_zeroExtend (v : Byte) : clean v = v.zeroExtend 9 := BitVec.eq_of_toNat_eq (by simp [clean])

/-- One byte written. -/
theorem State.shelfPut_was (s : State) (t c off : Nat) (v : Byte) :
    ShelfWasWritten s (s.shelfPut t c off (clean v)) t c (fun o => if o = off then some v else none) ∧
    ∀ o, flipArmed (s.shelfPut t c off (clean v)) t c o → flipArmed s t c o := by
  have other (m : SMap (BitVec 13)) (code : BitVec 13) (k : Nat) (hk : ∀ o, (if o = off then some v else none) ≠ none → k ≠ s.shelfKey t c o) :
      SMap.get 0#13 (SMap.put 0#13 m (s.shelfKey t c off) code) k = SMap.get 0#13 m k :=
    SMap.get_put_other _ _ (hk off (by simp))
  by_cases armed : flipArmed s t c off
  · rw [State.shelfPut_armed armed]
    refine ⟨⟨fun o x hx unarmed => ?_, fun k hk => other _ _ k hk, fun l hl => State.reg_setReg_other _ hl _, rfl⟩, fun o h => ?_⟩
    · split at hx
      next same => exact absurd (same ▸ armed) unarmed
      next => exact absurd hx nofun
    · exact absurd h (not_flipArmed_of_disarm _ o)
  · rw [State.shelfPut_disarmed armed]
    refine ⟨⟨fun o x hx _ => ?_, fun k hk => other _ _ k hk, fun _ _ => rfl, rfl⟩, fun _ h => h⟩
    split at hx
    next same =>
      obtain rfl := Option.some.inj hx
      have cell : SMap.get 0#13 (SMap.put 0#13 s.mem.shelf (s.shelfKey t c off) (markedCode (clean v))) (s.shelfKey t c off) = markedCode (clean v) :=
        SMap.get_put_self _ _ _ _
      rw [same]
      exact (congrArg (fun w => (byteRead w).marked) cell).trans ((marked_read_clean v).trans (clean_eq_zeroExtend v))
    next => exact absurd hx nofun

/-- The byte that stays at an offset after writes of bytes at offsets: the last one of the list. -/
def lastByte : List (Nat × Byte) → Nat → Option Byte
  | [], _ => none
  | e :: es, o => (lastByte es o).or (if o = e.1 then some e.2 else none)

theorem State.shelfPuts_was (s : State) (t c : Nat) (bs : List (Nat × Byte)) :
    ShelfWasWritten s (s.shelfPuts t c (bs.map fun b => (b.1, clean b.2))) t c (lastByte bs) := by
  induction bs generalizing s with
  | nil => exact ShelfWasWritten_refl s t c
  | cons b bs ih =>
    obtain ⟨first, armed⟩ := s.shelfPut_was t c b.1 b.2
    exact ShelfWasWritten_trans first (ih _) armed

/-- Consecutive bytes. -/
theorem lastByte_placed (off : Nat) (vs : List Byte) (o : Nat) : lastByte (placed off vs) o = if off ≤ o then vs[o - off]? else none := by
  induction vs generalizing off with
  | nil => simp [placed, lastByte]
  | cons v vs ih =>
    have cons : placed off (v :: vs) = (off, v) :: placed (off + 1) vs := placed_append off [v] vs
    rw [cons, lastByte, ih]
    rcases Nat.lt_trichotomy o off with low | rfl | high
    · rw [if_neg (by omega), if_neg (by omega), if_neg (by omega)]
      rfl
    · rw [if_neg (by omega), if_pos rfl, if_pos le_rfl, Nat.sub_self]
      rfl
    · obtain ⟨d, rfl⟩ := Nat.exists_eq_add_of_le (show off + 1 ≤ o from high)
      rw [if_pos (by omega), if_neg (by simp; omega), if_pos (by omega), Option.or_none, Nat.add_sub_cancel_left, show off + 1 + d - off = d + 1 by omega]
      rfl

/-- A write of consecutive bytes. -/
theorem State.shelfWrite_was (s : State) (t c off : Nat) (vs : List Byte) :
    ShelfWasWritten s (s.shelfWrite t c off (vs.map clean)) t c fun o => if off ≤ o then vs[o - off]? else none := by
  have bytes := s.shelfPuts_was t c (placed off vs)
  have list : numbered off (vs.map clean) = (placed off vs).map fun b => (b.1, clean b.2) := by
    have shifted := numbered_map_clean 0 off vs
    simpa [shelfPairs] using shifted
  rw [State.shelfWrite, list]
  exact funext (lastByte_placed off vs) ▸ bytes

/-! ### The numbers that bytes hold (R7) -/

theorem leNat_map_range (n : Nat) (b : Nat → Byte) : leNat ((List.range n).map b) = ((List.range n).map fun i => (b i).toNat * 256 ^ i).sum := by
  induction n generalizing b with
  | zero => rfl
  | succ n ih =>
    rw [List.range_succ_eq_map, List.map_cons, List.map_map, leNat, ih, List.map_cons, List.map_map, List.sum_cons, pow_zero, Nat.mul_one,
      ← List.sum_map_mul_left]
    refine congrArg (_ + List.sum ·) (List.map_congr_left fun i _ => ?_)
    simp only [Function.comp_apply, pow_succ]
    ring

/-- The number that bytes read from the shelf hold. -/
theorem leNat_shelfRead (s : State) (t c off n : Nat) : leNat ((s.shelfRead t c off n).1.map dataOf) = shelfValue s t c off n := by
  have bytes : (s.shelfRead t c off n).1.map dataOf = (List.range n).map fun i => dataOf (Claims.shelfByte s t c (off + i)) := by
    simp only [State.shelfRead, List.map_map]
    refine List.map_congr_left fun i _ => ?_
    simp [Claims.shelfByte, State.shelfKey, Nat.add_assoc]
  rw [bytes, leNat_map_range]
  refine congrArg List.sum (List.map_congr_left fun i _ => ?_)
  rw [dataOf, BitVec.toNat_ofNat]

theorem shelfValue_lt (s : State) (t c off n : Nat) : shelfValue s t c off n < 256 ^ n := by
  induction n with
  | zero => exact Nat.one_pos
  | succ n ih =>
    unfold shelfValue at ih ⊢
    rw [List.range_succ, List.map_append, List.sum_append, List.map_singleton, List.sum_singleton, pow_succ]
    have digit : (Claims.shelfByte s t c (off + n)).toNat % 256 * 256 ^ n ≤ 255 * 256 ^ n := Nat.mul_le_mul_right _ (by omega)
    omega

theorem shelfValue_add (s : State) (t c off m n : Nat) :
    shelfValue s t c off (m + n) = shelfValue s t c off m + shelfValue s t c (off + m) n * 256 ^ m := by
  unfold shelfValue
  rw [List.range_add, List.map_append, List.sum_append, List.map_map, ← List.sum_map_mul_right]
  refine congrArg (_ + ·) (congrArg List.sum (List.map_congr_left fun i _ => ?_))
  simp only [Function.comp_apply, Nat.add_assoc, pow_add]
  ring

end Sys2Proof.Machine
end

section
/-! PROOF. Control instructions and the mask stack (R152 to R155, R197, R198). -/

namespace Sys2Proof.Machine

open Sys2Proof.Claims

/-! ### Where control goes (R153, R197, R198) -/

/-- An instruction that only goes somewhere. -/
theorem exec_goes {i : Instr} {op : Nat} {legal : Th → Bool} {run : Th → State → Ran} {s : State} {h : Th} (hi : Issues s h [op] legal)
    (exec_ : exec i s = .next (issue [op] legal run h.b h.w s)) {pc : W32} (ran : run h s = .ok s pc) (listed : opListed op = true := by decide) :
    exec i s = .next (issued s h h.x pc) :=
  exec_.trans (congrArg Host.Outcome.next (issue_goes_on hi ran hi.bunch.symm listed))

/-- An instruction that raises a fault and changes nothing before. -/
theorem exec_raises {i : Instr} {op : Nat} {legal : Th → Bool} {run : Th → State → Ran} {s : State} {h : Th} (hi : Issues s h [op] legal)
    (exec_ : exec i s = .next (issue [op] legal run h.b h.w s)) {f : FaultInfo} (ran : run h s = .fault s f) (listed : opListed op = true := by decide) :
    exec i s = .next (s.bunchFault h.b f) :=
  exec_.trans (congrArg Host.Outcome.next (issue_faults hi ran listed))

theorem jumpIf_true {p : Th → Bool} {h : Th} (taken : p h = true) (s : State) : jumpIf p h s = .ok s (wTarget h.w) := by
  rw [jumpIf, if_pos taken]

theorem jumpIf_false {p : Th → Bool} {h : Th} (passed : p h = false) (s : State) : jumpIf p h s = .ok s h.next := by
  rw [jumpIf, if_neg (Bool.eq_false_iff.mp passed)]

theorem Bunch.uni_setUni (x : Bunch) (f : Nat) (v : W32) {j : Nat} (hj : j ≤ 63) :
    (x.setUni f v).uni j = if j = f then v else x.uni j := by
  have named : j ≠ uz := by unfold uz; omega
  unfold Bunch.setUni
  by_cases zero : f = uz
  · rw [if_pos zero, if_neg (zero ▸ named)]
  · rw [if_neg zero, Bunch.uni, if_neg named, Bunch.uni, if_neg named]
    split
    next same => rw [same, SMap.get_put_self]
    next other => rw [SMap.get_put_other _ _ other]

theorem Bunch.setUni_rest (x : Bunch) (f : Nat) (v : W32) : { x.setUni f v with u := x.u } = x := by
  unfold Bunch.setUni
  split <;> rfl

/-! ### The mask stack (R152, R154, R155) -/

/-- A stack with room, or with room in its spill area. -/
theorem runPushm_held {h : Th} (s : State) (room : h.x.stack.length < 16) : runPushm h s =
    .ok (s.setBunch (bkey h.b) { h.x with m0 := h.x.m0 &&& ckMask h, stack := ⟨h.x.m0, wTarget h.w⟩ :: h.x.stack })
      (if h.x.m0 &&& ckMask h = 0#64 then wTarget h.w else h.next) := by
  have notFull : decide (16 ≤ h.x.stack.length) = false := decide_eq_false (by omega)
  simp only [runPushm, notFull, Bool.false_eq_true, false_and, if_false]

theorem runPushm_spills {h : Th} (s : State) (full : 16 ≤ h.x.stack.length) (room : h.x.spilled < h.tm.spillDepth) {o : MaskEnt}
    (oldest : h.x.stack.getLast? = some o) : runPushm h s =
    .ok ((s.shelfWrite h.b.t h.b.c (spillAt h h.x.spilled) (spillBytes o)).setBunch (bkey h.b)
        { h.x with m0 := h.x.m0 &&& ckMask h, stack := ⟨h.x.m0, wTarget h.w⟩ :: h.x.stack.dropLast, spilled := h.x.spilled + 1 })
      (if h.x.m0 &&& ckMask h = 0#64 then wTarget h.w else h.next) := by
  have last (e : MaskEnt) : h.x.stack.getLastD e = o := by rw [List.getLastD_eq_getLast?, oldest, Option.getD_some]
  simp only [runPushm, full, decide_true, if_true, true_and, Nat.not_le.mpr room, if_false, last]

theorem runPushm_exhausted {h : Th} (s : State) (full : 16 ≤ h.x.stack.length) (none : h.tm.spillDepth ≤ h.x.spilled) :
    runPushm h s = .fault s ⟨.maskSpillExhausted, 0, 0⟩ := by
  simp only [runPushm, full, decide_true, true_and, none, if_true]

/-- The low bytes of a number do not show what stands above them. -/
theorem leBytes_add_mul (n a b : Nat) : leBytes n (a + b * 256 ^ n) = leBytes n a := by
  induction n generalizing a with
  | zero => rfl
  | succ n ih =>
    have low : (a + b * 256 ^ (n + 1)) % 256 = a % 256 := by rw [pow_succ, ← Nat.mul_assoc, Nat.add_mul_mod_self_right]
    have high : (a + b * 256 ^ (n + 1)) / 256 = a / 256 + b * 256 ^ n := by
      rw [pow_succ, ← Nat.mul_assoc, Nat.add_mul_div_right _ _ (by decide)]
    rw [leBytes, leBytes, low, high, ih]

/-- The bytes of a spilled entry are those of one number. -/
theorem spillBytes_eq (o : MaskEnt) : spillBytes o = (leBytes 16 (o.outer.toNat + o.join.toNat * 2 ^ 64)).map clean := by
  have outer : (o.outer.toNat + o.join.toNat * 256 ^ 8) / 256 ^ 8 = o.join.toNat := by have := o.outer.isLt; omega
  have join : o.join.toNat / 256 ^ 4 = 0 := by have := o.join.isLt; omega
  have high : leBytes 8 o.join.toNat = leBytes 4 o.join.toNat ++ leBytes 4 0 := by rw [leBytes_add 4 4, join]
  rw [spillBytes, show (2 : Nat) ^ 64 = 256 ^ 8 by decide, leBytes_add 8 8, leBytes_add_mul, outer, high, List.append_assoc]

/-- A spilled entry in the shelf (R154). -/
theorem State.spill_was (s : State) (t c off : Nat) (o : MaskEnt) : ShelfWasWritten s (s.shelfWrite t c off (spillBytes o)) t c fun x =>
    if off ≤ x ∧ x < off + 16 then some (byteNo (o.outer.toNat + o.join.toNat * 2 ^ 64) (x - off)) else none := by
  have written := s.shelfWrite_was t c off (leBytes 16 (o.outer.toNat + o.join.toNat * 2 ^ 64))
  rw [← spillBytes_eq] at written
  simp only [getElem?_leBytes] at written
  convert written using 2 with x
  by_cases low : off ≤ x
  · simp only [low, if_true, true_and, show x - off < 16 ↔ x < off + 16 by omega]
  · simp only [low, if_false, false_and]

/-- A spilled entry that reads back. -/
theorem spillEntry_shelfRead (s : State) (t c off : Nat) : spillEntry (s.shelfRead t c off 16).1 =
    ⟨BitVec.ofNat 64 (shelfValue s t c off 8), BitVec.ofNat 32 (shelfValue s t c (off + 8) 4)⟩ := by
  have low := shelfValue_lt s t c off 8
  have parts := shelfValue_add s t c off 8 8
  have join := shelfValue_add s t c (off + 8) 4 4
  simp only [spillEntry, leNat_shelfRead]
  rw [show 16 = 8 + 8 from rfl, parts, show 8 = 4 + 4 from rfl, join]
  generalize shelfValue s t c off (4 + 4) = a at low
  generalize shelfValue s t c (off + (4 + 4)) 4 = b
  generalize shelfValue s t c (off + (4 + 4) + 4) 4 = d
  have outer : BitVec.ofNat 64 (a + (b + d * 256 ^ 4) * 256 ^ (4 + 4)) = BitVec.ofNat 64 a := BitVec.eq_of_toNat_eq (by simp)
  have back : BitVec.ofNat 32 ((a + (b + d * 256 ^ 4) * 256 ^ (4 + 4)) / 2 ^ 64) = BitVec.ofNat 32 b := BitVec.eq_of_toNat_eq (by simp; omega)
  rw [outer, back]

theorem runPopm_reloads {h : Th} (s : State) {top : MaskEnt} {rest : List MaskEnt} (stack : h.x.stack = top :: rest) (spilled : 0 < h.x.spilled) :
    runPopm h s =
      let off := spillAt h (h.x.spilled - 1)
      h.bunch (s.shelfRead h.b.t h.b.c off 16).2 { h.x with
        m0 := top.outer &&& h.x.live, spilled := h.x.spilled - 1
        stack := rest ++ [⟨BitVec.ofNat 64 (shelfValue s h.b.t h.b.c off 8), BitVec.ofNat 32 (shelfValue s h.b.t h.b.c (off + 8) 4)⟩] } := by
  have some_spilled : ¬ h.x.spilled = 0 := by omega
  simp only [runPopm, stack, some_spilled, if_false, ← spillEntry_shelfRead]

end Sys2Proof.Machine
end

section
/-! PROOF. Bunches that retire and teams that end (R145); a write-back of the shelf cache leaves every bunch alone (R171). -/

namespace Sys2Proof.Machine

open Sys2Proof.Claims

/-! ### What leaves the bunches alone -/

theorem State.bunches_of_core {s u : State} (h : u.core = s.core) : u.bunches = s.bunches :=
  keeps_by (fun x => x.1.bunches) State.bunches h

theorem State.bunches_ite {c : Prop} [Decidable c] {a b s : State} (ha : a.bunches = s.bunches) (hb : b.bunches = s.bunches) :
    (if c then a else b).bunches = s.bunches := by
  split
  · exact ha
  · exact hb

theorem State.tallyWrite_bunches (s : State) (t c n : Nat) (a : TallyWrite) : (s.tallyWrite t c n a).bunches = s.bunches := by
  have frame := congrArg State.bunches (s.tallyWrite_becomes t c n a).rest
  exact frame

theorem State.requestCommit_bunches (s : State) (r : RegName) (t u : Nat) : (s.requestCommit r t u).bunches = s.bunches := by
  have frame := congrArg State.bunches (s.requestCommit_spec r t u).rest
  exact frame

theorem State.saneCmd_bunches (s : State) (t : Nat) : (s.saneCmd t).bunches = s.bunches := by
  have frame := congrArg State.bunches (s.saneCmd_stagedOnly t)
  exact frame

theorem bunches_of_cvuOnly {s u : State} (h : CvuOnly s u) : u.bunches = s.bunches := by
  have frame := congrArg State.bunches h
  exact frame

theorem State.cvuCommitAll_bunches (s : State) (t u : Nat) : (s.cvuCommitAll t u).bunches = s.bunches := bunches_of_cvuOnly (s.cvuCommitAll_only t u)

theorem State.writeCodes_bunches (s : State) (l : Loc) (v mask : W64) : (s.writeCodes l v mask).bunches = s.bunches := by
  have frame := congrArg State.bunches (s.writeCodes_spec l v mask).rest
  exact frame

theorem State.doorbell_bunches (s : State) (q : Nat) (tail : W32) : (s.doorbell q tail).bunches = s.bunches :=
  State.bunches_ite rfl (State.bunches_ite rfl rfl)

theorem State.putChead_bunches (s : State) (q : Nat) (v : W32) : (s.putChead q v).bunches = s.bunches := State.bunches_ite rfl rfl

/-- A register write, whatever the register does. -/
theorem State.regWrite_bunches (s : State) (l : Loc) (v mask : W64) : (s.regWrite l v mask).bunches = s.bunches := by
  have latch : (s.unlatch l.key).bunches = s.bunches := rfl
  have commit (r : RegName) (u : Nat) := ((s.unlatch l.key).requestCommit_bunches r l.t u).trans latch
  unfold State.regWrite
  dsimp only
  split
  · exact State.tallyWrite_bunches _ _ _ _ _
  · exact State.bunches_ite latch (State.tallyWrite_bunches _ _ _ _ _)
  iterate 5 exact State.bunches_ite (commit _ _) latch
  · exact State.bunches_ite ((State.requestCommit_bunches _ _ _ _).trans (State.saneCmd_bunches _ _)) latch
  · exact State.bunches_ite (commit _ _) latch
  · exact State.bunches_ite (State.cvuCommitAll_bunches _ _ _) latch
  · exact latch
  · exact State.bunches_ite latch (State.doorbell_bunches _ _ _)
  · exact State.bunches_ite latch (State.putChead_bunches _ _ _)
  iterate 3 exact State.bunches_ite latch latch
  · exact latch
  · exact State.bunches_ite latch (((s.unlatch l.key).writeCodes_bunches l v mask).trans latch)

theorem State.writePiece_bunches (s : State) (g : Agent) (ga : Nat) (bs : List (Nat × BitVec 9)) (n : Nat) :
    (s.writePiece g ga bs n).s.bunches = s.bunches := by
  unfold State.writePiece
  split
  · exact State.bunches_of_core (State.panWrite_core _ _ _ _ _)
  · exact State.bunches_of_core ((State.rowWrite_core _ _ _ _ _ _).trans (State.wakeDie_core _ _ _ _))
  · exact State.bunches_of_core (State.shelfPuts_core _ _ _ _)
  · exact foldl_keeps State.bunches (fun _ _ => State.regWrite_bunches _ _ _ _) _ s
  all_goals rfl

theorem State.writeAt_bunches (f : Nat) (s : State) (g : Agent) (ga : Nat) (bs : List (Option (BitVec 9))) :
    (State.writeAt f s g ga bs).s.bunches = s.bunches := by
  induction f generalizing s ga bs with
  | zero => rfl
  | succ f ih =>
    have piece (c : Bool) (part : List (Nat × BitVec 9)) (k : Nat) :
        (if c = true then (⟨0, ga, s⟩ : Put) else s.writePiece g ga part k).s.bunches = s.bunches := by
      split
      · rfl
      · exact s.writePiece_bunches g ga part k
    unfold State.writeAt
    dsimp only
    generalize written : (if List.isEmpty _ = true then (⟨0, ga, s⟩ : Put) else s.writePiece g ga _ _) = r
    have own : r.s.bunches = s.bunches := written ▸ piece _ _ _
    split
    · rfl
    · split <;> exact (ih _ _ _).trans own

theorem State.launchReq_bunches (s : State) (r : Req) : (s.launchReq r).bunches = s.bunches := by
  obtain ⟨stage, status, reqs, frame⟩ := s.launchReq_notes r
  have bunches := congrArg State.bunches frame
  exact bunches

theorem State.lineBack_bunches (s : State) (t c launch : Nat) (l : CLine) : (s.lineBack t c launch l).bunches = s.bunches := by
  unfold State.lineBack
  dsimp only
  refine State.bunches_ite rfl ?_
  split
  · exact State.launchReq_bunches _ _
  · rfl
  · rfl
  · rfl
  · exact State.writeAt_bunches _ s _ _ _

/-! ### Barriers of a bunch that waits at none -/

/-- A release of barriers: bunches that wait at none stay, and so does the team. -/
theorem State.checkBars_spares (s : State) {t c k : Nat} (none : ∀ n, ∀ i ∈ s.waiting t c n, Machine.slotOf t c i ≠ k) :
    (s.checkBars t c).bunch k = s.bunch k ∧ ((s.checkBars t c).clu t c).team = (s.clu t c).team := by
  cases team : (s.clu t c).team with
  | none =>
    have idle : s.checkBars t c = s := by simp only [State.checkBars, team]
    rw [idle]
    exact ⟨rfl, team⟩
  | some tm =>
    rw [State.checkBars_of_team team]
    have all := List.foldlRecOn (List.range 16) (fun (s : State) n => if (s.waiting t c n).length ≠ 0 ∧
        (s.waiting t c n).length = tm.team - tm.retired.length then s.releaseBar t c n else s)
      (motive := fun u => u.bunch k = s.bunch k ∧ (u.clu t c).team = some tm ∧ ∀ n, ∀ i ∈ u.waiting t c n, Machine.slotOf t c i ≠ k)
      ⟨rfl, team, none⟩ ?_
    · exact ⟨all.1, all.2.1⟩
    · rintro u ⟨bunch, same, away⟩ n -
      split
      · refine ⟨?_, by rw [State.clu_releaseBar]; exact same, fun m i hi => ?_⟩
        · refine (foldl_unseen (fun s : State => s.bunch k) (fun v i hi => ?_) u).trans bunch
          exact State.bunch_setBunch_other _ (away n i hi).symm _
        · by_cases own : m = n
          · rw [own, State.waiting_releaseBar] at hi
            exact absurd hi List.not_mem_nil
          · rw [u.waiting_releaseBar_other t c own] at hi
            exact away m i hi
      · exact ⟨bunch, same, away⟩

/-! ### The end of a team (R145) -/

theorem teLaunch_key (t c : Nat) : Loc.key ⟨.teLaunch, t, c, 0, 0⟩ ≠ Loc.key ⟨.teTallyWin, t, c, 0, 0⟩ := by
  simp only [Loc.key, RegName.shared, RegName.unitBase, RegName.place, Bool.false_eq_true, if_false]
  omega

theorem teLaunch_key_ne_issueCnt (t c e : Nat) : Loc.key ⟨.teLaunch, t, c, 0, 0⟩ ≠ Loc.key ⟨.teIssueCnt, t, c, e, 0⟩ := by
  simp only [Loc.key, RegName.shared, RegName.unitBase, RegName.place, Bool.false_eq_true, if_false]
  omega

theorem State.clu_teamRegs (s : State) (t c a b : Nat) : (s.teamRegs t c).clu a b = s.clu a b := by
  obtain ⟨regs, shown⟩ := State.setReg_setReg_regs s ⟨.teLaunch, t, c, 0, 0⟩ ⟨.teTallyWin, t, c, 0, 0⟩ 0#64 0#64
  rw [State.teamRegs, shown]
  rfl

theorem State.bunch_teamRegs (s : State) (t c k : Nat) : (s.teamRegs t c).bunch k = s.bunch k := by
  obtain ⟨regs, shown⟩ := State.setReg_setReg_regs s ⟨.teLaunch, t, c, 0, 0⟩ ⟨.teTallyWin, t, c, 0, 0⟩ 0#64 0#64
  rw [State.teamRegs, shown]
  rfl

/-- A team that ends: its cluster is free, its shelf cache and registers are released, and no bunch changes. -/
theorem State.endTeam_spec {s : State} {t c : Nat} {tm : Team} (team : (s.clu t c).team = some tm) :
    ((s.endTeam t c).clu t c).team = none ∧ ((s.endTeam t c).clu t c).cache = [] ∧ (s.endTeam t c).reg ⟨.teLaunch, t, c, 0, 0⟩ = 0#64 ∧
    ∀ k, (s.endTeam t c).bunch k = s.bunch k := by
  have run : s.endTeam t c = ((s.flushCache t c tm.launch).modClu t c fun x => { x with team := none, bars := [], barSince := [] }).teamRegs t c := by
    simp only [State.endTeam, team]
  have flushed (f : Cluster → Cluster) : (((s.flushCache t c tm.launch).modClu t c f).teamRegs t c).clu t c = f ((s.flushCache t c tm.launch).clu t c) := by
    rw [State.clu_teamRegs, State.clu_modClu]
  rw [run]
  refine ⟨by rw [flushed], ?_, ?_, fun k => ?_⟩
  · rw [flushed, State.flushCache, State.clu_modClu]
  · rw [State.teamRegs, State.reg_setReg_other _ (teLaunch_key t c), State.reg_setReg]
  · have bunches := foldl_keeps State.bunches (fun (u : State) l => u.lineBack_bunches t c tm.launch l) (s.clu t c).cache s
    rw [State.bunch_teamRegs]
    exact congrArg (SMap.get default · k) bunches

/-- The slot of a bunch that retires is free, and its team counts it (R145). -/
def State.vacated (s : State) (b : BunchRef) : State :=
  (s.clearBunch (bkey b)).modClu b.t b.c fun y =>
    { y with team := y.team.map fun tm => { tm with retired := tm.retired ++ [(s.bunch (bkey b)).idx] } }

theorem State.retire_spec {s : State} {b : BunchRef} {tm : Team} (team : (s.clu b.t b.c).team = some tm)
    (away : ∀ n, ∀ i ∈ s.waiting b.t b.c n, Machine.slotOf b.t b.c i ≠ bkey b) :
    (s.retire b).bunch (bkey b) = default ∧
    (tm.retired.length + 1 = tm.team → ((s.retire b).clu b.t b.c).team = none ∧ ((s.retire b).clu b.t b.c).cache = [] ∧
      (s.retire b).reg ⟨.teLaunch, b.t, b.c, 0, 0⟩ = 0#64) ∧
    (tm.retired.length + 1 ≠ tm.team →
      ((s.retire b).clu b.t b.c).team = some { tm with retired := tm.retired ++ [(s.bunch (bkey b)).idx] }) := by
  have clu : (s.vacated b).clu b.t b.c =
      { s.clu b.t b.c with team := some { tm with retired := tm.retired ++ [(s.bunch (bkey b)).idx] } } := by
    have cleared : (s.clearBunch (bkey b)).clu b.t b.c = s.clu b.t b.c := rfl
    rw [State.vacated, State.clu_modClu, cleared, team]
    rfl
  have waiting (n : Nat) : (s.vacated b).waiting b.t b.c n = s.waiting b.t b.c n := by rw [State.waiting, clu, State.waiting]
  have slot : (s.vacated b).bunch (bkey b) = default := s.bunch_setBunch (bkey b) default
  obtain ⟨bunch, kept⟩ := (s.vacated b).checkBars_spares (t := b.t) (c := b.c) (k := bkey b) fun n i hi => away n i (waiting n ▸ hi)
  have after : (((s.vacated b).checkBars b.t b.c).clu b.t b.c).team = some { tm with retired := tm.retired ++ [(s.bunch (bkey b)).idx] } :=
    kept.trans (by rw [clu])
  have run : s.retire b = if (tm.retired ++ [(s.bunch (bkey b)).idx]).length = tm.team then ((s.vacated b).checkBars b.t b.c).endTeam b.t b.c
      else (s.vacated b).checkBars b.t b.c := by
    change (match (((s.vacated b).checkBars b.t b.c).clu b.t b.c).team with | some tm => _ | none => _) = _
    rw [after]
    rfl
  obtain ⟨free, cache, register, bunches⟩ := State.endTeam_spec after
  rw [run]
  simp only [List.length_append, List.length_singleton]
  split
  next last => exact ⟨(bunches _).trans (bunch.trans slot), fun _ => ⟨free, cache, register⟩, fun more => absurd last more⟩
  next more => exact ⟨bunch.trans slot, fun last => absurd last more, fun _ => after⟩

/-! ### EXIT (R145, R152) -/

section

variable {s : State} {h : Th} (hi : Issues s h [0xAC] (cLegal kNone false))

include hi

theorem exec_exit_goes {top : MaskEnt} {rest : List MaskEnt} (left : h.x.live &&& ~~~h.x.m0 ≠ 0#64) (stack : h.x.stack = top :: rest) :
    exec (.exit h.b h.w) s = .next (issued s h { h.x with live := h.x.live &&& ~~~h.x.m0, m0 := 0#64 } top.join) := by
  have ran : runExit h s = .ok (s.setBunch (bkey h.b) { h.x with live := h.x.live &&& ~~~h.x.m0, m0 := 0#64 }) top.join := by
    simp only [runExit, left, if_false, stack]
  exact congrArg Host.Outcome.next (issue_writes hi ran)

theorem exec_exit_faults (left : h.x.live &&& ~~~h.x.m0 ≠ 0#64) (empty : h.x.stack = []) :
    exec (.exit h.b h.w) s = .next (s.bunchFault h.b ⟨.illegalInstruction, 0, 0⟩) := by
  have ran : runExit h s = .fault s ⟨.illegalInstruction, 0, 0⟩ := by simp only [runExit, left, if_false, empty]
  exact exec_raises hi rfl ran

theorem exec_exit_retires (none : h.x.live &&& ~~~h.x.m0 = 0#64) :
    exec (.exit h.b h.w) s = .next ((s.retire h.b).bump teIssueCntCount 1 h.b.t h.b.c h.b.e) := by
  have ran : runExit h s = .gone (s.retire h.b) := if_pos none
  exact congrArg Host.Outcome.next (issue_retires hi ran)

end

end Sys2Proof.Machine

open Sys2Proof Sys2Proof.Machine Sys2Proof.Claims

/-- Settles O8: control goes where a mask or uniform says, masks by the stack and its spill area, and an EXIT by the threads left. -/
theorem controlFlowAndMaskStack : Obligations.ControlFlowAndMaskStack := by
  refine ⟨?_, ?_, ?_⟩
  · intro s h
    dsimp only
    refine ⟨fun hi => exec_goes hi rfl rfl, fun hi => exec_goes hi rfl (jumpIf_true rfl s), fun hi => ?_, fun hi => ?_, fun hi => ?_, fun hi => ?_,
      fun hi => ?_, fun hi => ?_, fun hi => ?_⟩
    · split
      next none => exact exec_goes hi rfl (jumpIf_false (by simpa [anyOf, ckMask, wCk] using none) s)
      next some_one => exact exec_goes hi rfl (jumpIf_true (by simpa [anyOf, ckMask, wCk] using some_one) s)
    · split
      next all => exact exec_goes hi rfl (jumpIf_true (by simpa [allOf, ckMask, wCk] using all) s)
      next one_less => exact exec_goes hi rfl (jumpIf_false (by simpa [allOf, ckMask, wCk] using one_less) s)
    · split
      next none => exact exec_goes hi rfl (jumpIf_true (by simpa [noneOf, ckMask, wCk] using none) s)
      next some_one => exact exec_goes hi rfl (jumpIf_false (by simpa [noneOf, ckMask, wCk] using some_one) s)
    · split
      next zero => exact exec_goes hi rfl (jumpIf_true (by simpa [wCk] using zero) s)
      next other => exact exec_goes hi rfl (jumpIf_false (by simpa [wCk] using other) s)
    · split
      next zero => exact exec_goes hi rfl (jumpIf_false (by simpa [wCk] using zero) s)
      next other => exact exec_goes hi rfl (jumpIf_true (by simpa [wCk] using other) s)
    · exact ⟨_, congrArg Host.Outcome.next (issue_writes hi rfl), fun j hj => h.x.uni_setUni _ _ hj, h.x.setUni_rest _ _⟩
    · split
      next aligned => exact exec_goes hi rfl (if_pos aligned)
      next off => exact exec_raises hi rfl (if_neg off)
  · intro s h
    dsimp only
    refine ⟨fun hi => ⟨fun room => ?_, fun full room => ?_, fun full none => ?_⟩, fun hi => ⟨fun top rest stack => ?_, fun empty => ?_⟩,
      fun hi => ⟨fun top rest stack none => ?_, fun top rest stack some_spilled => ?_, fun empty => ?_⟩⟩
    · exact congrArg Host.Outcome.next (issue_writes hi (runPushm_held s room))
    · obtain ⟨o, oldest⟩ : ∃ o, h.x.stack.getLast? = some o := by
        cases last : h.x.stack.getLast? with
        | some o => exact ⟨o, rfl⟩
        | none => simp [List.getLast?_eq_none_iff.mp last] at full
      refine ⟨o, _, oldest, ?_, congrArg Host.Outcome.next (issue_writes hi (runPushm_spills s full room oldest))⟩
      rw [spillAt, Nat.mul_comm h.x.spilled 16]
      exact s.spill_was _ _ _ o
    · exact exec_raises hi rfl (runPushm_exhausted s full none)
    · have ran : runAndm h s = .ok (s.setBunch (bkey h.b) { h.x with m0 := h.x.m0 &&& ckMask h })
          (if h.x.m0 &&& ckMask h = 0#64 then top.join else h.next) := by simp only [runAndm, stack]
      exact congrArg Host.Outcome.next (issue_writes hi ran)
    · exact exec_raises hi rfl (by simp only [runAndm, empty])
    · have ran : runPopm h s = h.bunch s { h.x with m0 := top.outer &&& h.x.live, stack := rest } := by simp only [runPopm, stack, none, if_true]
      exact congrArg Host.Outcome.next (issue_writes hi ran)
    · have ran := runPopm_reloads s stack some_spilled
      rw [spillAt, Nat.mul_comm (h.x.spilled - 1) 16] at ran
      exact ⟨_, s.shelfRead_was _ _ _ _, congrArg Host.Outcome.next (issue_writes hi ran)⟩
    · exact exec_raises hi rfl (by simp only [runPopm, empty])
  · intro s h hi
    dsimp only
    refine ⟨fun top rest left stack => exec_exit_goes hi left stack, fun left empty => exec_exit_faults hi left empty, fun none away => ?_⟩
    obtain ⟨slot, last, more⟩ := State.retire_spec hi.team away
    rw [← hi.bunch] at more
    have run := exec_exit_retires hi none
    generalize s.retire h.b = u at run slot last more
    refine ⟨_, run, slot, fun all => ?_, more⟩
    obtain ⟨free, cache, register⟩ := last all
    exact ⟨free, cache, (u.reg_bump_other teIssueCntCount 1 h.b.t h.b.c h.b.e 0 (teLaunch_key_ne_issueCnt h.b.t h.b.c h.b.e)).trans register⟩

end

section
/-! PROOF. Register groups that instructions write (R183, R185, R186). -/

namespace Sys2Proof.Machine

open Sys2Proof.Claims

/-! ### Groups of registers -/

/-- The words of a value, from a key on. -/
def putWords (m : SMap W32) (k : Nat) : Nat → Nat → SMap W32
  | 0, _ => m
  | n + 1, v => SMap.put 0#32 (putWords m k n v) (k + n) (BitVec.ofNat 32 (v / 2 ^ (32 * n)))

theorem get_putWords (m : SMap W32) (k n v j : Nat) : SMap.get 0#32 (putWords m k n v) j =
    if k ≤ j ∧ j < k + n then BitVec.ofNat 32 (v / 2 ^ (32 * (j - k))) else SMap.get 0#32 m j := by
  induction n with
  | zero => rw [putWords, if_neg (by omega)]
  | succ n ih =>
    rw [putWords]
    by_cases own : j = k + n
    · rw [own, SMap.get_put_self, if_pos (by omega), Nat.add_sub_cancel_left]
    · rw [SMap.get_put_other _ _ own, ih]
      exact if_congr (by omega) rfl rfl

theorem Bunch.setVal_tz (x : Bunch) (n l v : Nat) : x.setVal tz n l v = x := by
  induction n with
  | zero => rfl
  | succ n ih => rw [Bunch.setVal, ih, Bunch.setWord, if_pos rfl]

theorem Bunch.setVal_thread (x : Bunch) {d : Nat} (hd : d < 255) (n l v : Nat) : x.setVal d n l v = { x with t := putWords x.t (l * 256 + d) n v } := by
  have named : d ≠ tz := by unfold tz; omega
  have thread : isUni d = false := decide_eq_false (by omega)
  induction n with
  | zero => rfl
  | succ n ih =>
    rw [Bunch.setVal, ih, Bunch.setWord, if_neg named, thread]
    rfl

theorem Bunch.setVal_uniform (x : Bunch) {d : Nat} (hd : 256 ≤ d) (n l v : Nat) : x.setVal d n l v = { x with u := putWords x.u (d % 256) n v } := by
  have named : d ≠ tz := by unfold tz; omega
  have uniform : isUni d = true := decide_eq_true hd
  induction n with
  | zero => rfl
  | succ n ih => rw [Bunch.setVal, ih, Bunch.setWord, if_neg named, if_pos uniform, putWords]

theorem Bunch.word_thread (x : Bunch) {d : Nat} (hd : d < 255) (i l : Nat) : x.word d i l = SMap.get 0#32 x.t (l * 256 + d + i) := by
  have named : d ≠ tz := by unfold tz; omega
  have thread : isUni d = false := decide_eq_false (by omega)
  rw [Bunch.word, if_neg named, thread]
  rfl

theorem Bunch.word_uniform (x : Bunch) {d : Nat} (hd : 256 ≤ d) (i l : Nat) : x.word d i l = SMap.get 0#32 x.u (d % 256 + i) := by
  have named : d ≠ tz := by unfold tz; omega
  have uniform : isUni d = true := decide_eq_true hd
  rw [Bunch.word, if_neg named, if_pos uniform]

/-! ### The lanes that execute (R153, R186) -/

theorem mem_lanesFor (x : Bunch) (d l : Nat) : l ∈ x.lanesFor d ↔ Runs x d l := by
  by_cases uniform : 256 ≤ d
  · simp [Bunch.lanesFor, isUni, Runs, uniform]
  · simp [Bunch.lanesFor, isUni, Runs, uniform, lanesOf]

theorem lanesFor_nodup (x : Bunch) (d : Nat) : (x.lanesFor d).Nodup := by
  unfold Bunch.lanesFor
  split
  · exact List.nodup_singleton 0
  · exact List.nodup_range.filter _

/-- Values written into a group, one lane after another. -/
def Bunch.setVals (x : Bunch) (d n : Nat) (vs : List (Nat × Nat)) : Bunch := vs.foldl (fun y v => y.setVal d n v.1 v.2) x

/-- A group that instructions may name, of at least one register. -/
def Grouped (d n : Nat) : Prop := d < 512 ∧ (d ≠ tz → if 256 ≤ d then d % 256 + n ≤ 64 else d + n ≤ 255)

theorem grouped_of_okReg {alloc n d : Nat} (hd : d < 512) (ok : okReg alloc n d = true) : Grouped d n := by
  refine ⟨hd, fun named => ?_⟩
  rw [okReg, if_neg named] at ok
  by_cases uniform : 256 ≤ d
  · simp only [isUni, uniform, decide_true, if_true, Bool.and_eq_true, decide_eq_true_eq] at ok ⊢
    exact ok.2
  · simp only [isUni, uniform, decide_false, Bool.false_eq_true, if_false, Bool.and_eq_true, decide_eq_true_eq] at ok ⊢
    omega

section

variable {x : Bunch} {d n : Nat} {vs : List (Nat × Nat)} {r : Nat → Nat} (group : Grouped d n) (lanes : vs.map Prod.fst = x.lanesFor d)
  (values : ∀ v ∈ vs, r v.1 = v.2)

include group lanes values

/-- A group of a thread's registers. -/
theorem writes_setVals_thread (hd : d < 255) : Writes x (x.setVals d n vs) d n r := by
  obtain ⟨-, bound⟩ := group
  have fits : d + n ≤ 255 := by
    have := bound (by unfold tz; omega)
    rwa [if_neg (by omega)] at this
  have nodup : (vs.map Prod.fst).Nodup := lanes ▸ lanesFor_nodup x d
  have cell (y : Bunch) (v : Nat × Nat) (k : Nat) : SMap.get 0#32 (y.setVal d n v.1 v.2).t k =
      if v.1 * 256 + d ≤ k ∧ k < v.1 * 256 + d + n then BitVec.ofNat 32 (v.2 / 2 ^ (32 * (k - (v.1 * 256 + d)))) else SMap.get 0#32 y.t k := by
    rw [y.setVal_thread hd, get_putWords]
  have same (y : Bunch) (v : Nat × Nat) (k : Nat) : SMap.get 0#32 (y.setVal d n v.1 v.2).u k = SMap.get 0#32 y.u k := by rw [y.setVal_thread hd]
  refine ⟨fun _ l i runs hi => ?_, fun l k hl hk away => ?_, fun k _ _ => ?_, ?_⟩
  · obtain ⟨v, hv, rfl⟩ := List.mem_map.mp (lanes ▸ (mem_lanesFor x d l).mpr runs)
    obtain ⟨y, -, seen⟩ := foldl_seen_at (f := fun (y : Bunch) (v : Nat × Nat) => y.setVal d n v.1 v.2)
      (fun y : Bunch => SMap.get 0#32 y.t (v.1 * 256 + d + i)) (.of_map _ nodup) hv (fun y w hw other => by
        have lane : w.1 ≠ v.1 := fun e => other (List.inj_on_of_nodup_map nodup hw hv e)
        rw [cell, if_neg (by omega)]) x
    rw [Bunch.word_thread _ hd, values v hv]
    refine seen.trans ?_
    rw [cell, if_pos (by omega), Nat.add_sub_cancel_left]
  · rw [Bunch.word_thread _ hk, Bunch.word_thread _ hk]
    refine foldl_unseen (fun y : Bunch => SMap.get 0#32 y.t (l * 256 + k + 0)) (fun y v hv => ?_) x
    have runs : Runs x d v.1 := (mem_lanesFor x d v.1).mp (lanes ▸ List.mem_map_of_mem hv)
    rw [cell, if_neg]
    intro inside
    have lane : v.1 = l := by omega
    exact away ⟨lane ▸ runs, by omega, by omega, hd⟩
  · rw [Bunch.word_uniform _ (by omega), Bunch.word_uniform _ (by omega)]
    exact foldl_keeps (fun y : Bunch => SMap.get 0#32 y.u ((256 + k) % 256 + 0)) (fun y v => same y v _) vs x
  · refine List.foldlRecOn vs _ (motive := fun y : Bunch => { y with t := x.t, u := x.u } = x) rfl fun y hy v _ => ?_
    rw [y.setVal_thread hd]
    exact hy

/-- A group of uniform registers. -/
theorem writes_setVals_uniform (hd : 256 ≤ d) : Writes x (x.setVals d n vs) d n r := by
  obtain ⟨small, bound⟩ := group
  have fits : d % 256 + n ≤ 64 := by
    have := bound (by unfold tz; omega)
    rwa [if_pos hd] at this
  have one : x.lanesFor d = [0] := if_pos (decide_eq_true hd)
  obtain ⟨v, rfl, lane⟩ : ∃ v, vs = [v] ∧ v.1 = 0 := by
    rw [one] at lanes
    obtain ⟨v, rest, rfl, lane, none⟩ := List.map_eq_cons_iff.mp lanes
    exact ⟨v, by rw [List.map_eq_nil_iff.mp none], lane⟩
  have value : r 0 = v.2 := lane ▸ values v (.head _)
  have written : x.setVals d n [v] = { x with u := putWords x.u (d % 256) n v.2 } := x.setVal_uniform hd n v.1 v.2
  rw [written]
  refine ⟨fun _ l i runs hi => ?_, fun l k _ hk _ => ?_, fun k hk away => ?_, rfl⟩
  · have only : l = 0 := by simpa [Runs, hd] using runs
    rw [Bunch.word_uniform _ hd, get_putWords, if_pos (by omega), Nat.add_sub_cancel_left, only, value]
  · rw [Bunch.word_thread _ hk, Bunch.word_thread _ hk]
  · rw [Bunch.word_uniform _ (by omega), Bunch.word_uniform _ (by omega), get_putWords, if_neg (by omega)]

/-- What an instruction writes into its destination, lane by lane. -/
theorem writes_setVals : Writes x (x.setVals d n vs) d n r := by
  obtain thread | rfl | uniform : d < 255 ∨ d = tz ∨ 256 ≤ d := by unfold tz; omega
  · exact writes_setVals_thread group lanes values thread
  · have none : x.setVals tz n vs = x := List.foldlRecOn vs _ (motive := (· = x)) rfl fun y hy v _ => hy ▸ y.setVal_tz n v.1 v.2
    rw [none]
    exact ⟨fun named => absurd rfl named, fun _ _ _ _ _ => rfl, fun _ _ _ => rfl, rfl⟩
  · exact writes_setVals_uniform group lanes values uniform

end

end Sys2Proof.Machine
end

section
/-! PROOF. Global accesses: their addresses, values and pieces, what sends them, and what the bytes at hand are (R170, R193, R270). -/

namespace Sys2Proof.Machine

open Sys2Proof.Claims

/-! ### Addresses and values (R193) -/

theorem codeOf_eq_ofInt (n : Nat) (i : Int) : codeOf n i = (BitVec.ofInt n i).toNat := (BitVec.toNat_ofInt i).symm

/-- The address of a lane's global access: its register group and the signed offset, which wraps. -/
def addrOf (h : Th) (l : Nat) : Nat := (BitVec.ofNat 64 (h.x.val (wA h.w) 2 l) + (BitVec.ofNat 20 (fld h.w 63 44)).signExtend 64).toNat

theorem globOff_eq (h : Th) (l : Nat) : globOff h l = addrOf h l := by
  rw [globOff, mOff, signedOf_eq_toInt (by decide), codeOf_eq_ofInt, BitVec.ofInt_add, BitVec.ofInt_natCast, addrOf, BitVec.signExtend]

/-- The value that a load's bytes give. -/
theorem loadVal_eq (h : Th) (bs : List (BitVec 9)) : loadVal h.w bs = loaded h (leNat (bs.map dataOf)) := by
  generalize hv : leNat (bs.map dataOf) = v
  have wide : ¬ mW h.w ≤ 1 → loadVal h.w bs = v := fun big => by simp only [loadVal, big, false_and, if_false, hv]
  have signed {n : Nat} (hn : 8 * mBytes h.w = n) (pos : 0 < n) (small : mW h.w ≤ 1) :
      loadVal h.w bs = if bit h.w 35 then ((BitVec.ofNat n v).signExtend 32).toNat else v := by
    simp only [loadVal, small, true_and, hv, hn, signedOf_eq_toInt pos, codeOf_eq_ofInt, BitVec.signExtend]
  unfold loaded
  split
  next width => exact signed (by rw [mBytes, mW, width]; rfl) (by decide) (by rw [mW, width]; decide)
  next width => exact signed (by rw [mBytes, mW, width]; rfl) (by decide) (by rw [mW, width])
  next _ zero one =>
    refine wide fun small => ?_
    obtain width | width : fld h.w 43 41 = 0 ∨ fld h.w 43 41 = 1 := by change fld h.w 43 41 ≤ 1 at small; omega
    · exact zero width
    · exact one width

/-- Operand and compare value of an atomic of 4 or 8 bytes. -/
theorem amOperand_eq (h : Th) (width : mW h.w = 2 ∨ mW h.w = 3) (l : Nat) : amOperand h l = atomicOperands h l := by
  have regs : mRegs h.w = accessBytes h / 4 := by
    change cdiv (2 ^ mW h.w) 4 = 2 ^ mW h.w / 4
    rcases width with two | three
    · rw [two]; rfl
    · rw [three]; rfl
  unfold amOperand atomicOperands
  rw [regs]
  rfl

/-- Every piece of an access lies inside it. -/
theorem mem_pieces {f ga n : Nat} {p : Nat × Nat} (h : p ∈ pieces f ga n) : ga ≤ p.1 ∧ p.1 + p.2 ≤ ga + n := by
  induction f generalizing ga n with
  | zero => exact absurd h List.not_mem_nil
  | succ f ih =>
    unfold pieces at h
    split at h
    · exact absurd h List.not_mem_nil
    · rcases List.mem_cons.mp h with rfl | later
      · exact ⟨le_rfl, by omega⟩
      · have := ih later
        omega

/-- The bytes of a piece of a value. -/
theorem pieceBytes_eq (n v d k : Nat) (inside : d + k ≤ n) :
    ((((leBytes n v).map clean).drop d).take k).map some = (List.range k).map fun i => some ((byteNo v (d + i)).zeroExtend 9) := by
  refine List.ext_getElem? fun i => ?_
  by_cases hi : i < k
  · rw [List.getElem?_map, List.getElem?_take_of_lt hi, List.getElem?_drop, List.getElem?_map, getElem?_leBytes, if_pos (by omega),
      List.getElem?_map, List.getElem?_range hi, Option.map_some, Option.map_some, clean_eq_zeroExtend, Option.map_some]
  · simp [hi]

/-! ### Accesses that leave for homes of this module (R271) -/

/-- The access of a bunch with a number. -/
def accessOf (h : Th) (id a : Nat) (op : ReqOp) : Req := ⟨id, BitVec.ofNat 64 a, op, 4, .bunch (bkey h.b), h.b.t, .issued, none, 0, [], 0⟩

/-- A home in this module that no reset holds. -/
def State.near (s : State) (t : Nat) (a : Nat) : Prop :=
  (∀ m x, s.home t (BitVec.ofNat 64 a) ≠ .remote m x) ∧ s.home t (BitVec.ofNat 64 a) ≠ .held

/-- The machine with requests sent that took the next numbers. -/
def State.sent (s : State) (rs : List Req) : State := { s with reqs := s.reqs ++ rs, mod := { s.mod with nextId := s.mod.nextId + rs.length } }

theorem State.sent_nil (s : State) : s.sent [] = s := by
  unfold State.sent
  rw [List.append_nil]
  rfl

theorem State.sent_sent (s : State) (as bs : List Req) : (s.sent as).sent bs = s.sent (as ++ bs) := by
  simp only [State.sent, List.append_assoc, List.length_append, Nat.add_assoc]

/-- Requests on their way change no home. -/
theorem State.home_sent (s : State) (rs : List Req) (t : Nat) (a : W64) : (s.sent rs).home t a = s.home t a := rfl

theorem State.ownShelf_sent (s : State) (rs : List Req) (b : BunchRef) (a : Nat) : (s.sent rs).ownShelf b a = s.ownShelf b a := rfl

theorem State.near_sent {s : State} {t a : Nat} (near : s.near t a) (rs : List Req) : (s.sent rs).near t a := by
  unfold State.near
  rwa [State.home_sent]

theorem State.issueReq_near {s : State} (h : Th) {a : Nat} (near : s.near h.b.t a) (op : ReqOp) :
    s.issueReq (s.mkReq a op 4 (.bunch (bkey h.b)) h.b.t) = s.sent [accessOf h s.mod.nextId a op] := by
  obtain ⟨notRemote, notHeld⟩ := near
  unfold State.issueReq
  split
  next m x remote => exact absurd remote (notRemote m x)
  next held => exact absurd held notHeld
  next => rfl

/-- Steps each of which sends one access. -/
theorem foldl_sends {α : Type} (h : Th) {f : State → α → State} {at_ : α → Nat} {op : α → ReqOp} {s : State} {l : List α}
    (sends : ∀ a ∈ l, ∀ rs, f (s.sent rs) a = (s.sent rs).sent [accessOf h (s.sent rs).mod.nextId (at_ a) (op a)]) :
    l.foldl f s = s.sent (l.zipIdx.map fun e => accessOf h (s.mod.nextId + e.2) (at_ e.1) (op e.1)) := by
  have later (l : List α) (rs : List Req) (step : ∀ a ∈ l, ∀ rs, f (s.sent rs) a = (s.sent rs).sent [accessOf h (s.sent rs).mod.nextId (at_ a) (op a)]) :
      l.foldl f (s.sent rs) = s.sent (rs ++ (l.zipIdx rs.length).map fun e => accessOf h (s.mod.nextId + e.2) (at_ e.1) (op e.1)) := by
    induction l generalizing rs with
    | nil => rw [List.foldl_nil, List.zipIdx_nil, List.map_nil, List.append_nil]
    | cons a l ih =>
      rw [List.foldl_cons, step a (.head _), State.sent_sent, ih _ fun b hb => step b (.tail _ hb), List.append_assoc, List.length_append]
      rfl
  have all := later l [] sends
  rwa [State.sent_nil, List.nil_append] at all

end Sys2Proof.Machine
end

section
/-! PROOF. LDG, STG and ATOM: what they send, what is at hand, and what their returns make of the bunch (R170 to R172, R193, R196, R283). -/

namespace Sys2Proof.Machine

open Sys2Proof.Claims

/-! ### Sending (R170, R172, R271) -/

/-- A bunch that waits for its accesses at the instruction. -/
def Th.awaiting (h : Th) : Bunch := { h.x with run := .waitAccess, inst := some h.w }

theorem runLanes_eq (x : Bunch) (d : Nat) : runLanes x d = x.lanesFor d := by
  simp [Bunch.lanesFor, runLanes, isUni, activeLanes, lanesOf]

theorem State.bunch_sent (s : State) (rs : List Req) (k : Nat) : (s.sent rs).bunch k = s.bunch k := rfl

/-- An LDG that misses some lines, or without a shelf cache some pieces. -/
theorem runLdg_sends {s : State} {h : Th} (bunch : h.x = s.bunch (bkey h.b)) {need : List (Nat × Nat)}
    (needs : missing h s (h.x.lanesFor (wD h.w)) = need) (more : need ≠ []) (near : ∀ p ∈ need, s.near h.b.t p.1) :
    runLdg h s = .ok ((s.sent (need.zipIdx.map fun p => accessOf h (s.mod.nextId + p.2) p.1.1 (.load p.1.2))).setBunch (bkey h.b) h.awaiting) h.x.pc := by
  have some_need : need.isEmpty = false := by simpa using more
  have sends : need.foldl (fun s p => s.issueReq (s.mkReq p.1 (.load p.2) 4 (.bunch (bkey h.b)) h.b.t)) s =
      s.sent (need.zipIdx.map fun p => accessOf h (s.mod.nextId + p.2) p.1.1 (.load p.1.2)) := by
    refine foldl_sends (α := Nat × Nat) (f := fun s p => s.issueReq (s.mkReq p.1 (.load p.2) 4 (.bunch (bkey h.b)) h.b.t)) (at_ := Prod.fst)
      (op := fun p => .load p.2) h fun p hp rs => ?_
    exact State.issueReq_near (s := s.sent rs) h (State.near_sent (near p hp) rs) (.load p.2)
  simp only [runLdg, needs, some_need, Bool.false_eq_true, if_false]
  rw [sends, State.modBunch, State.bunch_sent, ← bunch]
  rfl

/-- The bytes of an STG that go to a piece of a lane's address. -/
def storeBytes (h : Th) (l : Nat) (p : Nat × Nat) : List (Option (BitVec 9)) :=
  (List.range p.2).map fun i => some ((byteNo (h.x.val (wD h.w) ((accessBytes h + 3) / 4) l) (p.1 - addrOf h l + i)).zeroExtend 9)

/-- The pieces of an STG, lane by lane. -/
def storePieces (h : Th) : List (Nat × (Nat × Nat)) := (lanesOf h.x.m0).flatMap fun l => (pieces 3 (addrOf h l) (accessBytes h)).map fun p => (l, p)

/-- An STG without a shelf cache. -/
theorem runStg_sends {s : State} {h : Th} (uncached : h.tm.cacheKib = 0)
    (near : ∀ e ∈ storePieces h, s.near h.b.t e.2.1 ∧ s.ownShelf h.b e.2.1 = none) :
    runStg h s = .ok (s.sent ((storePieces h).zipIdx.map fun e => accessOf h (s.mod.nextId + e.2) e.1.2.1 (.store (storeBytes h e.1.1 e.1.2)))) h.next := by
  have sends : (storePieces h).foldl (fun s e => stgPiece h s e.2.1
      ((((leBytes (accessBytes h) (h.x.val (wD h.w) ((accessBytes h + 3) / 4) e.1)).map clean).drop (e.2.1 - addrOf h e.1)).take e.2.2)) s =
      s.sent ((storePieces h).zipIdx.map fun e => accessOf h (s.mod.nextId + e.2) e.1.2.1 (.store (storeBytes h e.1.1 e.1.2))) := by
    refine foldl_sends (α := Nat × (Nat × Nat)) (at_ := fun e => e.2.1) (op := fun e => .store (storeBytes h e.1 e.2)) h fun e he rs => ?_
    obtain ⟨home, away⟩ := near e he
    have inside : e.2.1 - addrOf h e.1 + e.2.2 ≤ accessBytes h := by
      obtain ⟨l, -, piece⟩ := List.mem_flatMap.mp he
      obtain ⟨p, hp, rfl⟩ := List.mem_map.mp piece
      dsimp only
      have := mem_pieces hp
      omega
    have other : (s.sent rs).ownShelf h.b e.2.1 = none := (s.ownShelf_sent rs _ _).trans away
    simp only [stgPiece, other, uncached, if_true, pieceBytes_eq _ _ _ _ inside]
    exact State.issueReq_near (s := s.sent rs) h (State.near_sent home rs) _
  rw [← sends, storePieces, List.foldl_flatMap]
  simp only [List.foldl_map, runStg, globOff_eq]
  rfl

/-- The access of an ATOM in a lane. -/
def atomicOf (h : Th) (l : Nat) : ReqOp :=
  .atomic (fld h.w 40 38) (fld h.w 37 36) (accessBytes h) (BitVec.ofNat 64 (atomicOperands h l).1) (BitVec.ofNat 64 (atomicOperands h l).2)

/-- Lines that the shelf cache does not hold need no dropping. -/
theorem dropLines_uncached {h : Th} {s : State} {ga n : Nat} (uncached : ∀ p ∈ pieces 2 ga n, s.cached h.b.t h.b.c (p.1 / 128) = none) :
    dropLines h s ga n = s := by
  refine List.foldlRecOn _ _ (motive := (· = s)) rfl fun u hu p hp => ?_
  subst hu
  simp only [uncached p hp]

theorem State.onePlace_sent (s : State) (rs : List Req) (t ga n : Nat) : (s.sent rs).onePlace t ga n = s.onePlace t ga n := by
  unfold State.onePlace
  rw [State.home_sent, State.home_sent]

theorem State.cached_sent (s : State) (rs : List Req) (t c line : Nat) : (s.sent rs).cached t c line = s.cached t c line := rfl

/-- An ATOM's operation in one lane. -/
def sendAtomic (h : Th) (s : State) (l : Nat) : State :=
  let s0 := dropLines h s (addrOf h l) (accessBytes h)
  let r := s0.mkReq (addrOf h l) (atomicOf h l) 4 (.bunch (bkey h.b)) h.b.t
  if !s0.onePlace h.b.t (addrOf h l) (accessBytes h) then { s0.newId with reqs := s0.reqs ++ [{ r with stage := .done, status := stBadAddress }] }
  else s0.issueReq r

theorem runAtom_eq {h : Th} (s : State) (width : mW h.w = 2 ∨ mW h.w = 3) (more : h.x.lanesFor (wD h.w) ≠ []) : runAtom h s =
    .ok (((h.x.lanesFor (wD h.w)).foldl (sendAtomic h) s).modBunch (bkey h.b) fun y => { y with run := .waitAccess, inst := some h.w }) h.x.pc := by
  have some_lane : (h.x.lanesFor (wD h.w)).isEmpty = false := by simpa using more
  simp only [runAtom, some_lane, Bool.false_eq_true, if_false, globOff_eq, amOperand_eq h width]
  rfl

theorem runAtom_sends {s : State} {h : Th} (bunch : h.x = s.bunch (bkey h.b)) (width : mW h.w = 2 ∨ mW h.w = 3)
    (more : h.x.lanesFor (wD h.w) ≠ [])
    (near : ∀ l ∈ h.x.lanesFor (wD h.w), s.near h.b.t (addrOf h l) ∧ s.onePlace h.b.t (addrOf h l) (accessBytes h) = true ∧
      ∀ p ∈ pieces 2 (addrOf h l) (accessBytes h), s.cached h.b.t h.b.c (p.1 / 128) = none) :
    runAtom h s = .ok ((s.sent ((h.x.lanesFor (wD h.w)).zipIdx.map fun l => accessOf h (s.mod.nextId + l.2) (addrOf h l.1) (atomicOf h l.1))).setBunch
      (bkey h.b) h.awaiting) h.x.pc := by
  have sends : (h.x.lanesFor (wD h.w)).foldl (sendAtomic h) s =
      s.sent ((h.x.lanesFor (wD h.w)).zipIdx.map fun l => accessOf h (s.mod.nextId + l.2) (addrOf h l.1) (atomicOf h l.1)) := by
    refine foldl_sends (α := Nat) (f := sendAtomic h) (at_ := addrOf h) (op := atomicOf h) h fun l hl rs => ?_
    obtain ⟨home, place, uncached⟩ := near l hl
    have kept : dropLines h (s.sent rs) (addrOf h l) (accessBytes h) = s.sent rs :=
      dropLines_uncached fun p hp => (s.cached_sent rs _ _ _).trans (uncached p hp)
    have onePlace : (s.sent rs).onePlace h.b.t (addrOf h l) (accessBytes h) = true := (s.onePlace_sent rs _ _ _).trans place
    rw [sendAtomic, kept]
    simp only [onePlace, Bool.not_true, Bool.false_eq_true, if_false]
    exact State.issueReq_near (s := s.sent rs) h (State.near_sent home rs) _
  rw [runAtom_eq s width more, sends, State.modBunch, State.bunch_sent, ← bunch]
  rfl

end Sys2Proof.Machine
end

section
/-! PROOF. LDG and ATOM whose bytes are at hand or have come back (R170, R172, R193, R196, R283). -/

namespace Sys2Proof.Machine

open Sys2Proof.Claims

/-! ### Reads of the own shelf that change nothing a program sees -/

theorem ShelfWasRead_refl (s : State) (t c : Nat) : ShelfWasRead s s t c := ⟨fun _ _ _ => rfl, fun _ _ => rfl, rfl⟩

theorem ShelfWasRead_trans {s u v : State} {t c : Nat} (first : ShelfWasRead s u t c) (second : ShelfWasRead u v t c) : ShelfWasRead s v t c := by
  refine ⟨fun t' c' off => (second.bytes t' c' off).trans (first.bytes t' c' off), fun l hl => (second.registers l hl).trans (first.registers l hl), ?_⟩
  have rest := congrArg (fun x : State => { x with regs := s.regs, mem := { x.mem with shelf := s.mem.shelf }, mod := { x.mod with ceNow := s.mod.ceNow } })
    second.rest
  exact rest.trans first.rest

theorem ownReads_was (h : Th) (s : State) (lanes : List Nat) : ShelfWasRead s (ownReads h s lanes) h.b.t h.b.c := by
  refine List.foldlRecOn lanes _ (motive := fun u => ShelfWasRead s u h.b.t h.b.c) (ShelfWasRead_refl ..) fun u first l _ => ?_
  refine List.foldlRecOn _ _ (motive := fun u => ShelfWasRead s u h.b.t h.b.c) first fun u first i _ => ?_
  split
  · exact ShelfWasRead_trans first (State.shelfRead_was ..)
  · exact first

/-- An LDG of other places reads nothing of its own shelf. -/
theorem ownReads_away {h : Th} {s : State} {lanes : List Nat}
    (away : ∀ l ∈ lanes, ∀ i, i < mBytes h.w → s.ownShelf h.b ((globOff h l + i) % 2 ^ 64) = none) : ownReads h s lanes = s := by
  refine List.foldlRecOn lanes _ (motive := (· = s)) rfl fun u same l hl => ?_
  subst same
  refine List.foldlRecOn _ _ (motive := (· = u)) rfl fun v same i hi => ?_
  subst same
  rw [away l hl i (List.mem_range.mp hi)]

/-! ### The bytes of a load -/

theorem head_shelfRead (s : State) (t c off : Nat) : (s.shelfRead t c off 1).1.head? = some (Claims.shelfByte s t c off) := by
  simp [State.shelfRead, Claims.shelfByte]

theorem loadByte_of_atHand {h : Th} {s : State} {ga : Nat} {v : BitVec 9} (hand : atHand s h ga = some v) (rs : List Req) :
    loadByte h s rs ga = some v := by
  unfold atHand at hand
  unfold loadByte
  cases own : s.ownShelf h.b ga with
  | some off =>
    rw [own] at hand
    exact (head_shelfRead ..).trans hand
  | none =>
    simp only [own] at hand ⊢
    split at hand
    · exact absurd hand nofun
    next cache =>
      simp only [ne_eq, cache, not_false_eq_true, true_and, hand]

theorem loadByte_of_cameBack {h : Th} {s : State} {ga : Nat} {rs : List Req} (away : s.ownShelf h.b ga = none) (uncached : h.tm.cacheKib = 0)
    (good : ∀ r ∈ rs, r.status = 0) : loadByte h s rs ga = cameBack rs ga := by
  have none_cached : ((s.cached h.b.t h.b.c (ga / 128)).bind fun c =>
      if h.tm.cacheKib ≠ 0 ∧ c.have_.getLsbD (ga % 128) then some (c.byte (ga % 128)) else none) = none := by
    simp [uncached]
  simp only [loadByte, away, none_cached, cameBack]
  clear none_cached
  induction rs with
  | nil => rfl
  | cons r rs ih =>
    rw [List.findSome?_cons, List.findSome?_cons, ih fun q hq => good q (.tail _ hq), good r (.head _)]
    simp only [true_and]

/-! ### LDG takes its data (R193) -/

/-- A machine with no load or atomic of a bunch under way. -/
def State.gone (s : State) (k : Nat) : State := { s with reqs := s.reqs.filter fun q => !(decide (q.owner = .bunch k) && q.op.blocks) }

/-- A bunch whose instruction completes. -/
def Th.back (h : Th) : Bunch := { h.x with run := .ready, inst := none }

/-- What an LDG writes in a lane, when memory holds `byte`. -/
def loadedAt (h : Th) (byte : Nat → BitVec 9) (l : Nat) : Nat :=
  loaded h ((List.range (accessBytes h)).map fun i => ((byte (addrOf h l + i)).toNat % 256) * 256 ^ i).sum

theorem mBytes_eq (h : Th) : mBytes h.w = accessBytes h := rfl

theorem loadVal_eq_loadedAt (h : Th) (byte : Nat → BitVec 9) (l : Nat) :
    loadVal h.w ((List.range (mBytes h.w)).map fun i => byte (addrOf h l + i)) = loadedAt h byte l := by
  rw [mBytes_eq, loadVal_eq, List.map_map, leNat_map_range, loadedAt]
  simp only [Function.comp_apply, dataOf, BitVec.toNat_ofNat]

theorem State.accessFailed_all_good (s : State) (t c te launch : Nat) {rs : List Req} (good : ∀ r ∈ rs, r.status = 0) :
    rs.foldl (fun s r => s.accessFailed t c te launch r.status r.addr) s = s := by
  refine List.foldlRecOn rs _ (motive := (· = s)) rfl fun u same r hr => ?_
  rw [same, State.accessFailed, if_pos (good r hr)]

theorem State.mergeLines_plain {h : Th} {rs : List Req} (plain : h.tm.cacheKib = 0 ∨ rs = []) (s : State) : s.mergeLines h rs = s := by
  rcases plain with uncached | rfl
  · rw [State.mergeLines, if_pos uncached]
  · unfold State.mergeLines
    split <;> rfl

theorem ldgFinish_writes {h : Th} {s : State} {byte : Nat → BitVec 9} (good : ∀ r ∈ s.bunchReqs (bkey h.b), r.status = 0)
    (plain : h.tm.cacheKib = 0 ∨ s.bunchReqs (bkey h.b) = [])
    (bytes : ∀ l ∈ h.x.lanesFor (wD h.w), ∀ i, i < mBytes h.w → isBad (byte (addrOf h l + i)) = false ∧
      loadByte h s (s.bunchReqs (bkey h.b)) ((globOff h l + i) % 2 ^ 64) = some (byte (addrOf h l + i))) :
    ldgFinish h s = h.bunch ((ownReads h s (h.x.lanesFor (wD h.w))).gone (bkey h.b))
      (h.back.setVals (wD h.w) (mRegs h.w) ((h.x.lanesFor (wD h.w)).map fun l => (l, loadedAt h byte l))) := by
  have vals : ((h.x.lanesFor (wD h.w)).map fun l => (l, globOff h l, (List.range (mBytes h.w)).map fun i =>
        (loadByte h s (s.bunchReqs (bkey h.b)) ((globOff h l + i) % 2 ^ 64)).getD 0#9)) =
      (h.x.lanesFor (wD h.w)).map fun l => (l, globOff h l, (List.range (mBytes h.w)).map fun i => byte (addrOf h l + i)) := by
    refine List.map_congr_left fun l hl => ?_
    refine congrArg (l, globOff h l, ·) (List.map_congr_left fun i hi => ?_)
    rw [(bytes l hl i (List.mem_range.mp hi)).2, Option.getD_some]
  have clean : ((h.x.lanesFor (wD h.w)).map fun l => (l, globOff h l, (List.range (mBytes h.w)).map fun i => byte (addrOf h l + i))).find?
      (fun v => v.2.2.any isBad) = none := by
    refine List.find?_eq_none.mpr fun v hv => ?_
    obtain ⟨l, hl, rfl⟩ := List.mem_map.mp hv
    simp only [List.any_map, List.any_eq_true, List.mem_range, Function.comp_apply, not_exists, not_and]
    intro i hi bad
    rw [(bytes l hl i hi).1] at bad
    exact absurd bad nofun
  unfold ldgFinish
  dsimp only
  rw [vals, clean, State.accessFailed_all_good _ _ _ _ _ good, State.mergeLines_plain plain, List.foldl_map]
  simp only [loadVal_eq_loadedAt, Bunch.setVals, List.foldl_map]
  rfl

/-- The registers of an LDG's destination. -/
theorem grouped_of_ldLegal {h : Th} {glob : Bool} (legal : ldLegal glob h = true) : Grouped (wD h.w) (mRegs h.w) := by
  simp only [ldLegal, Bool.and_eq_true] at legal
  obtain ⟨⟨⟨-, group⟩, -⟩, -⟩ := legal
  exact grouped_of_okReg (Nat.mod_lt _ (by decide)) group

theorem writes_loaded {h : Th} {glob : Bool} (legal : ldLegal glob h = true) (byte : Nat → BitVec 9) :
    Writes h.back (h.back.setVals (wD h.w) (mRegs h.w) ((h.x.lanesFor (wD h.w)).map fun l => (l, loadedAt h byte l)))
      (wD h.w) (mRegs h.w) (loadedAt h byte) := by
  refine writes_setVals (grouped_of_ldLegal legal) ?_ fun v hv => ?_
  · rw [List.map_map]
    exact List.map_id _
  · obtain ⟨l, -, rfl⟩ := List.mem_map.mp hv
    rfl

/-! ### LDG whose bytes are at hand (R170) -/

theorem exec_ldg_at_hand {s : State} {h : Th} (hi : Issues s h [0x82] (ldLegal true)) (none_missing : missing h s (h.x.lanesFor (wD h.w)) = [])
    (quiet : ∀ r ∈ s.reqs, r.owner = .bunch (bkey h.b) → r.op.blocks = false)
    (hand : ∀ l ∈ h.x.lanesFor (wD h.w), addrOf h l + accessBytes h ≤ 2 ^ 64 ∧
      ∀ i, i < accessBytes h → ∃ v, atHand s h (addrOf h l + i) = some v ∧ isBad v = false) :
    ∃ y u, ShelfWasRead s u h.b.t h.b.c ∧ exec (.ldg h.b h.w) s = .next (issued u h y (h.x.pc + 8)) ∧
      Writes { h.x with inst := none } y (wD h.w) (mRegs h.w) (loadedAt h fun a => (atHand s h a).getD 0#9) := by
  have none_own (q : Req) (hq : q ∈ s.reqs) : (decide (q.owner = .bunch (bkey h.b)) && q.op.blocks) = false := by
    by_cases own : q.owner = .bunch (bkey h.b)
    · rw [quiet q hq own, Bool.and_false]
    · rw [decide_eq_false own, Bool.false_and]
  have no_reqs : s.bunchReqs (bkey h.b) = [] := List.filter_eq_nil_iff.mpr fun q hq => by simp [none_own q hq]
  have was := ownReads_was h s (h.x.lanesFor (wD h.w))
  have kept : (ownReads h s (h.x.lanesFor (wD h.w))).gone (bkey h.b) = ownReads h s (h.x.lanesFor (wD h.w)) := by
    obtain ⟨-, -, reqs⟩ := requests_of_shelfWasRead was
    generalize ownReads h s (h.x.lanesFor (wD h.w)) = u at reqs
    have all : (u.reqs.filter fun q => !(decide (q.owner = .bunch (bkey h.b)) && q.op.blocks)) = u.reqs :=
      List.filter_eq_self.mpr fun q hq => by rw [none_own q (reqs ▸ hq), Bool.not_false]
    rw [State.gone, all]
  have finish := ldgFinish_writes (h := h) (s := s) (byte := fun a => (atHand s h a).getD 0#9) (by simp [no_reqs]) (.inr no_reqs)
    fun l hl i hi => by
      obtain ⟨fits, byte⟩ := hand l hl
      obtain ⟨v, at_, good⟩ := byte i hi
      rw [mBytes_eq] at hi
      rw [globOff_eq, Nat.mod_eq_of_lt (by omega), at_, Option.getD_some]
      exact ⟨good, loadByte_of_atHand at_ _⟩
  have ran : runLdg h s = .ok ((ownReads h s (h.x.lanesFor (wD h.w))).setBunch (bkey h.b) (h.back.setVals (wD h.w) (mRegs h.w)
      ((h.x.lanesFor (wD h.w)).map fun l => (l, loadedAt h (fun a => (atHand s h a).getD 0#9) l)))) h.next := by
    rw [runLdg, none_missing]
    refine (if_pos rfl).trans ?_
    rw [finish, kept, Th.bunch]
  have ready : h.back = { h.x with inst := none } := by rw [Th.back, ← ready_of_issues hi]
  exact ⟨_, _, was, congrArg Host.Outcome.next (issue_writes hi ran), ready ▸ writes_loaded hi.decodes _⟩

/-! ### The last access of a bunch returns (R193, R196, R283) -/

/-- r is the last access that the bunch of h waits for, and it and all others went well. -/
structure LastReturn (s : State) (h : Th) (r : Req) : Prop where
  bunch : h.x = s.bunch (bkey h.b)
  team : (s.clu h.b.t h.b.c).team = some h.tm
  inst : h.x.inst = some h.w
  own : r ∈ s.bunchReqs (bkey h.b)
  done : r.stage = .done
  unique : ∀ q ∈ s.reqs, q.id = r.id → q = r
  others : ∀ q ∈ s.bunchReqs (bkey h.b), q ≠ r → q.stage = .back
  good : ∀ q ∈ s.bunchReqs (bkey h.b), q.status = 0

/-- A request that has come back, if it has the number. -/
def Req.marked (id : Nat) (q : Req) : Req := if q.id = id then { q with stage := .back } else q

/-- The machine with the access of a number back. -/
def State.marked (s : State) (id : Nat) : State := { s with reqs := s.reqs.map (Req.marked id) }

theorem Req.marked_eq (id : Nat) (q : Req) : ∃ stage, q.marked id = { q with stage := stage } := by
  unfold Req.marked
  split
  · exact ⟨_, rfl⟩
  · exact ⟨_, rfl⟩

@[simp] theorem Req.marked_status (id : Nat) (q : Req) : (q.marked id).status = q.status := by obtain ⟨_, e⟩ := q.marked_eq id; rw [e]
@[simp] theorem Req.marked_addr (id : Nat) (q : Req) : (q.marked id).addr = q.addr := by obtain ⟨_, e⟩ := q.marked_eq id; rw [e]
@[simp] theorem Req.marked_data (id : Nat) (q : Req) : (q.marked id).data = q.data := by obtain ⟨_, e⟩ := q.marked_eq id; rw [e]
@[simp] theorem Req.marked_owner (id : Nat) (q : Req) : (q.marked id).owner = q.owner := by obtain ⟨_, e⟩ := q.marked_eq id; rw [e]
@[simp] theorem Req.marked_op (id : Nat) (q : Req) : (q.marked id).op = q.op := by obtain ⟨_, e⟩ := q.marked_eq id; rw [e]

theorem State.bunchReqs_marked (s : State) (id k : Nat) : (s.marked id).bunchReqs k = (s.bunchReqs k).map (Req.marked id) := by
  simp only [State.bunchReqs, State.marked, List.filter_map, Function.comp_def, Req.marked_owner, Req.marked_op]

/-- Where an access stands changes no home. -/
theorem State.ownShelf_marked (s : State) (id : Nat) (b : BunchRef) (a : Nat) : (s.marked id).ownShelf b a = s.ownShelf b a := rfl

theorem cameBack_marked (rs : List Req) (id ga : Nat) : cameBack (rs.map (Req.marked id)) ga = cameBack rs ga := by
  simp only [cameBack, List.findSome?_map, Function.comp_def, Req.marked_addr, Req.marked_data]

section

variable {s : State} {h : Th} {r : Req} (last : LastReturn s h r)

include last

theorem find_lastReturn : (s.reqs.find? fun q => q.id = r.id) = some r := by
  have known : r ∈ s.reqs := List.mem_of_mem_filter last.own
  cases found : s.reqs.find? fun q => q.id = r.id with
  | none => exact absurd (decide_eq_true rfl) (List.find?_eq_none.mp found r known)
  | some q => rw [last.unique q (List.mem_of_find?_eq_some found) (by simpa using List.find?_some found)]

theorem gone_marked : (s.marked r.id).gone (bkey h.b) = s.gone (bkey h.b) := by
  have same : (s.marked r.id).reqs.filter (fun q => !(decide (q.owner = .bunch (bkey h.b)) && q.op.blocks)) =
      s.reqs.filter fun q => !(decide (q.owner = .bunch (bkey h.b)) && q.op.blocks) := by
    simp only [State.marked, List.filter_map, Function.comp_def, Req.marked_owner, Req.marked_op]
    refine (List.map_congr_left fun q hq => ?_).trans (List.map_id _)
    obtain ⟨known, other⟩ := List.mem_filter.mp hq
    have mine : (decide (r.owner = .bunch (bkey h.b)) && r.op.blocks) = true := (List.mem_filter.mp last.own).2
    refine if_neg fun e => ?_
    rw [last.unique q known e, mine] at other
    exact absurd other nofun
  rw [State.gone, same]
  rfl

theorem good_marked : ∀ q ∈ (s.marked r.id).bunchReqs (bkey h.b), q.status = 0 := by
  rw [State.bunchReqs_marked]
  intro q hq
  obtain ⟨p, hp, rfl⟩ := List.mem_map.mp hq
  exact (p.marked_status _).trans (last.good p hp)

/-- The waiting instruction completes, with its effect. -/
theorem exec_globalAccessReturn {u : State} {y : Bunch}
    (effect : (if wOpc h.w = 0x82 then ldgFinish h (s.marked r.id) else atomFinish h (s.marked r.id)) = h.bunch u y) :
    exec (.globalAccessReturn r.id) s = .next (u.setBunch (bkey h.b) { y with pc := h.x.pc + 8 }) := by
  have found := find_lastReturn last
  obtain ⟨-, mine⟩ := List.mem_filter.mp last.own
  obtain ⟨owner, blocks⟩ := (Bool.and_eq_true _ _ ▸ mine : _ ∧ _)
  have owner : r.owner = .bunch (bkey h.b) := of_decide_eq_true owner
  have back : ((s.marked r.id).bunchReqs (bkey h.b)).all (fun q => q.stage = .back) = true := by
    refine List.all_eq_true.mpr fun q hq => ?_
    rw [State.bunchReqs_marked] at hq
    obtain ⟨p, hp, rfl⟩ := List.mem_map.mp hq
    unfold Req.marked
    split
    · exact decide_eq_true rfl
    next other => exact decide_eq_true (last.others p hp fun e => other (e ▸ rfl))
  have inst : ((s.marked r.id).bunch (bkey h.b)).inst = some h.w := by
    rw [← last.inst, last.bunch]
    rfl
  have team : ((s.marked r.id).clu h.b.t h.b.c).team = some h.tm := last.team
  have whole : (⟨h.b, (s.marked r.id).bunch (bkey h.b), h.tm, h.w⟩ : Th) = h := congrArg (Th.mk h.b · h.tm h.w) last.bunch.symm
  have completed : (s.marked r.id).bunchBack (bkey h.b) = u.setBunch (bkey h.b) { y with pc := h.x.pc + 8 } := by
    rw [State.bunchBack, refOf_bkey]
    simp only [inst, team, back, if_true, whole, effect, Th.bunch, State.modBunch, State.bunch_setBunch, State.setBunch_setBunch]
    rfl
  have delivered : s.deliver r.id = (s.marked r.id).bunchBack (bkey h.b) := by
    simp only [State.deliver, found, last.done, owner, blocks, if_true, ne_eq, not_true_eq_false, if_false]
    rfl
  have step : execGlobalAccessReturn r.id s = .next (s.deliver r.id) := by
    simp only [execGlobalAccessReturn, found, last.done, if_true]
  rw [← completed, ← delivered]
  exact step

/-- An LDG without a shelf cache takes the bytes that came back. -/
theorem exec_ldg_returns (ldg : wOpc h.w = 0x82) (legal : ldLegal true h = true) (uncached : h.tm.cacheKib = 0)
    (came : ∀ l ∈ h.x.lanesFor (wD h.w), addrOf h l + accessBytes h ≤ 2 ^ 64 ∧ ∀ i, i < accessBytes h → s.ownShelf h.b (addrOf h l + i) = none ∧
      ∃ v, cameBack (s.bunchReqs (bkey h.b)) (addrOf h l + i) = some v ∧ isBad v = false) :
    ∃ y, exec (.globalAccessReturn r.id) s = .next ((s.gone (bkey h.b)).setBunch (bkey h.b) { y with pc := h.x.pc + 8 }) ∧
      Writes h.back y (wD h.w) (mRegs h.w) (loadedAt h fun a => (cameBack (s.bunchReqs (bkey h.b)) a).getD 0#9) := by
  have place (l : Nat) (hl : l ∈ h.x.lanesFor (wD h.w)) (i : Nat) (hi : i < mBytes h.w) : (globOff h l + i) % 2 ^ 64 = addrOf h l + i := by
    have := (came l hl).1
    rw [mBytes_eq] at hi
    rw [globOff_eq, Nat.mod_eq_of_lt (by omega)]
  have away (l : Nat) (hl : l ∈ h.x.lanesFor (wD h.w)) (i : Nat) (hi : i < mBytes h.w) : (s.marked r.id).ownShelf h.b ((globOff h l + i) % 2 ^ 64) = none := by
    rw [place l hl i hi, State.ownShelf_marked]
    exact ((came l hl).2 i hi).1
  have finish := ldgFinish_writes (h := h) (s := s.marked r.id) (byte := fun a => (cameBack (s.bunchReqs (bkey h.b)) a).getD 0#9)
    (good_marked last) (.inl uncached) fun l hl i hi => by
      obtain ⟨v, back, good⟩ := ((came l hl).2 i hi).2
      rw [loadByte_of_cameBack (away l hl i hi) uncached (good_marked last), place l hl i hi, State.bunchReqs_marked, cameBack_marked, back, Option.getD_some]
      exact ⟨good, rfl⟩
  rw [ownReads_away away, gone_marked last] at finish
  exact ⟨_, exec_globalAccessReturn last ((if_pos ldg).trans finish), writes_loaded legal _⟩

end

/-! ### ATOM takes its old values (R172, R196) -/

/-- The registers of an ATOM's destination. -/
theorem grouped_of_amLegal {h : Th} {glob : Bool} (legal : amLegal glob h = true) : Grouped (wD h.w) (mRegs h.w) := by
  simp only [amLegal, Bool.and_eq_true] at legal
  obtain ⟨⟨⟨⟨-, group⟩, -⟩, -⟩, -⟩ := legal
  exact grouped_of_okReg (Nat.mod_lt _ (by decide)) group

theorem width_of_amLegal {h : Th} {glob : Bool} (legal : amLegal glob h = true) : mW h.w = 2 ∨ mW h.w = 3 := by
  simp only [amLegal, Bool.and_eq_true, Bool.or_eq_true, decide_eq_true_eq] at legal
  obtain ⟨⟨⟨⟨⟨⟨width, -⟩, -⟩, -⟩, -⟩, -⟩, -⟩ := legal
  exact width

theorem lookup_of_mem {α : Type} {l : List (Nat × α)} (nodup : (l.map Prod.fst).Nodup) {v : Nat × α} (hv : v ∈ l) : l.lookup v.1 = some v.2 := by
  induction l with
  | nil => exact absurd hv List.not_mem_nil
  | cons w l ih =>
    obtain ⟨fresh, nodup⟩ := List.nodup_cons.mp nodup
    rcases List.mem_cons.mp hv with rfl | later
    · exact List.lookup_cons_self
    · have other : (v.1 == w.1) = false := beq_false_of_ne fun e => fresh (e ▸ List.mem_map_of_mem later)
      rw [List.lookup_cons, other]
      exact ih nodup later

/-- The number that the data of an access hold. -/
theorem leNat_data (bs : List (BitVec 9)) :
    leNat (bs.map dataOf) = ((List.range bs.length).map fun i => ((bs.getD i 0#9).toNat % 256) * 256 ^ i).sum := by
  have bytes : bs.map dataOf = (List.range bs.length).map fun i => dataOf (bs.getD i 0#9) := by
    refine List.ext_getElem (by simp) fun i hi _ => ?_
    rw [List.length_map] at hi
    simp [hi]
  rw [bytes, leNat_map_range]
  simp only [dataOf, BitVec.toNat_ofNat]

/-- What an ATOM writes in a lane: the old value that its access brought. -/
def oldValue (vs : List (Nat × Req)) (l : Nat) : Nat :=
  match vs.lookup l with
  | some q => ((List.range q.data.length).map fun i => ((q.data.getD i 0#9).toNat % 256) * 256 ^ i).sum
  | none => 0

theorem atomFinish_writes {h : Th} {s : State} (good : ∀ r ∈ s.bunchReqs (bkey h.b), r.status = 0)
    (clean : ∀ r ∈ s.bunchReqs (bkey h.b), ∀ v ∈ r.data, isBad v = false) :
    atomFinish h s = h.bunch (s.gone (bkey h.b)) (h.back.setVals (wD h.w) (mRegs h.w)
      (((h.x.lanesFor (wD h.w)).zip (s.bunchReqs (bkey h.b))).map fun v => (v.1, leNat (v.2.data.map dataOf)))) := by
  have mine {v : Nat × Req} (hv : v ∈ (h.x.lanesFor (wD h.w)).zip (s.bunchReqs (bkey h.b))) : v.2 ∈ s.bunchReqs (bkey h.b) := (List.of_mem_zip hv).2
  have none_bad : ((h.x.lanesFor (wD h.w)).zip (s.bunchReqs (bkey h.b))).find? (fun v => v.2.status = 0 && v.2.data.any isBad) = none := by
    refine List.find?_eq_none.mpr fun v hv bad => ?_
    obtain ⟨-, some_bad⟩ := (Bool.and_eq_true _ _ ▸ bad : _ ∧ _)
    obtain ⟨b, hb, bad⟩ := List.any_eq_true.mp some_bad
    rw [clean v.2 (mine hv) b hb] at bad
    exact absurd bad nofun
  have values : ((h.x.lanesFor (wD h.w)).zip (s.bunchReqs (bkey h.b))).foldl (fun y v =>
        y.setVal (wD h.w) (mRegs h.w) v.1 (if v.2.status = 0 then leNat (v.2.data.map dataOf) else 0)) h.back =
      ((h.x.lanesFor (wD h.w)).zip (s.bunchReqs (bkey h.b))).foldl (fun y v => y.setVal (wD h.w) (mRegs h.w) v.1 (leNat (v.2.data.map dataOf))) h.back :=
    List.foldl_ext _ _ _ fun y v hv => by rw [if_pos (good v.2 (mine hv))]
  unfold atomFinish
  dsimp only
  rw [none_bad, State.accessFailed_all_good _ _ _ _ _ good, Bunch.setVals, List.foldl_map, ← values]
  rfl

/-- An ATOM writes each lane's old value. -/
theorem exec_atom_returns {s : State} {h : Th} {r : Req} (last : LastReturn s h r) (atom : wOpc h.w = 0x85) (legal : amLegal true h = true)
    (each : (h.x.lanesFor (wD h.w)).length = (s.bunchReqs (bkey h.b)).length) (clean : ∀ q ∈ s.bunchReqs (bkey h.b), ∀ v ∈ q.data, isBad v = false) :
    ∃ y, exec (.globalAccessReturn r.id) s = .next ((s.gone (bkey h.b)).setBunch (bkey h.b) { y with pc := h.x.pc + 8 }) ∧
      Writes h.back y (wD h.w) (mRegs h.w) (oldValue ((h.x.lanesFor (wD h.w)).zip (s.bunchReqs (bkey h.b)))) := by
  have clean_marked : ∀ q ∈ (s.marked r.id).bunchReqs (bkey h.b), ∀ v ∈ q.data, isBad v = false := by
    rw [State.bunchReqs_marked]
    intro q hq
    obtain ⟨p, hp, rfl⟩ := List.mem_map.mp hq
    rw [Req.marked_data]
    exact clean p hp
  have finish := atomFinish_writes (good_marked last) clean_marked
  have values : ((h.x.lanesFor (wD h.w)).zip ((s.marked r.id).bunchReqs (bkey h.b))).map (fun v => (v.1, leNat (v.2.data.map dataOf))) =
      ((h.x.lanesFor (wD h.w)).zip (s.bunchReqs (bkey h.b))).map fun v => (v.1, leNat (v.2.data.map dataOf)) := by
    rw [State.bunchReqs_marked, List.zip_map_right, List.map_map]
    refine List.map_congr_left fun v _ => ?_
    simp only [Function.comp_apply, Prod.map_fst, Prod.map_snd, Req.marked_data, id_eq]
  rw [values, gone_marked last] at finish
  have lanes : ((h.x.lanesFor (wD h.w)).zip (s.bunchReqs (bkey h.b))).map Prod.fst = h.x.lanesFor (wD h.w) := List.map_fst_zip each.le
  refine ⟨_, exec_globalAccessReturn last ((if_neg (by rw [atom]; decide)).trans finish), writes_setVals (grouped_of_amLegal legal) ?_ fun w hw => ?_⟩
  · rw [List.map_map]
    exact lanes
  · obtain ⟨v, hv, rfl⟩ := List.mem_map.mp hw
    have found : ((h.x.lanesFor (wD h.w)).zip (s.bunchReqs (bkey h.b))).lookup v.1 = some v.2 :=
      lookup_of_mem (by rw [lanes]; exact lanesFor_nodup ..) hv
    simp only [oldValue, found, leNat_data]

end Sys2Proof.Machine

open Sys2Proof Sys2Proof.Machine Sys2Proof.Claims

/-- Settles O10: what an LDG, STG or ATOM sends, and what completes when the last access is back. -/
theorem globalAccessesGoAndReturn : Obligations.GlobalAccessesGoAndReturn := by
  refine ⟨fun s h => ?_, fun s h r => ?_⟩
  · simp only [runLanes_eq]
    refine ⟨fun hi none_missing quiet hand => exec_ldg_at_hand hi none_missing quiet hand, fun hi more near => ?_, fun hi uncached near => ?_,
      fun hi more near => ?_⟩
    · exact congrArg Host.Outcome.next (issue_writes hi (runLdg_sends hi.bunch rfl more near))
    · have sends := runStg_sends (s := s) (h := h) uncached fun e he => by
        obtain ⟨l, active, piece⟩ := List.mem_flatMap.mp he
        obtain ⟨p, hp, rfl⟩ := List.mem_map.mp piece
        exact near l active p hp
      have accesses : ((activeLanes h.x).flatMap fun l => (pieces 3 (addrOf h l) (accessBytes h)).map fun p => (p.1, storeBytes h l p)) =
          (storePieces h).map fun e => (e.2.1, storeBytes h e.1 e.2) := by
        simp only [storePieces, List.map_flatMap, List.map_map]
        rfl
      have step := issue_goes_on hi sends ((s.bunch_sent _ _).trans hi.bunch.symm)
      have listed : ((storePieces h).zipIdx.map fun e => accessOf h (s.mod.nextId + e.2) e.1.2.1 (.store (storeBytes h e.1.1 e.1.2))) =
          (((activeLanes h.x).flatMap fun l => (pieces 3 (addrOf h l) (accessBytes h)).map fun p => (p.1, storeBytes h l p)).zipIdx.map
            fun e => accessOf h (s.mod.nextId + e.2) e.1.1 (.store e.1.2)) := by
        rw [accesses, List.zipIdx_map, List.map_map]
        rfl
      rw [listed] at step
      exact congrArg Host.Outcome.next step
    · exact congrArg Host.Outcome.next (issue_writes hi (runAtom_sends hi.bunch (width_of_amLegal hi.decodes) more near))
  · dsimp only
    intro bunch team inst own done unique others good
    have last : LastReturn s h r := ⟨bunch, team, inst, own, done, unique, others, good⟩
    simp only [runLanes_eq]
    exact ⟨fun ldg legal uncached came => exec_ldg_returns last ldg legal uncached came,
      fun atom legal each clean => exec_atom_returns last atom legal each clean⟩

end
